-- ==== Sys2Proof/Word.lean ====
section
/-!
DEFINITION. The register word of the block (R6: every register is 32 bits wide) and its plainest arithmetic.
-/
namespace Sys2Proof

/-- A register word: 32 bits (R6). -/
abbrev Word := BitVec 32

/-- One byte. -/
abbrev Byte := BitVec 8

/-- The smaller of a count and a ceiling: a counter that saturates at `top`. -/
def satAdd (top a b : Nat) : Nat := min top (a + b)

end Sys2Proof
end

