-- ==== Sys2Proof/Types.lean ====
section
/-!
DEFINITION. The shapes of the commands' operands: who asks (R10), what an input from outside the module carries
(a packet, a host command, a sensor reading, what a coding standard's own process gives for a block).
-/
namespace Sys2Proof

/-- The requesters of register accesses (R10): the host and the control cores CC0 to CC3. -/
inductive Requester where
  | host | cc0 | cc1 | cc2 | cc3
deriving DecidableEq, Repr

/-- The ledger classes of R27, in the class order of R32. -/
inductive LClass where
  | host | task | comp | net | dma
deriving DecidableEq, Repr

/-- The three kinds of ledger bucket of R29. -/
inductive Bucket where
  | live | general | shared
deriving DecidableEq, Repr

/-- The states of a power domain (R16, R17). -/
inductive PState where
  | on | idle | ret | off
deriving DecidableEq, Repr

/-- The three Lomix parts (00_scope, R5). -/
inductive Part where
  | lmx7260 | lmx7242 | lmx7221
deriving DecidableEq, Repr

/-- The units that have a counter control register with CLEAR and FREEZE (R105, R226). -/
inductive CntUnit where
  | lth (n : Nat) | shp | inl (i : Nat) | dmc | hif | rng | cop | bwt | flt
deriving DecidableEq, Repr

/-- The registers that have a CLR bit over a peak, a maximum or a merge count. -/
inductive PeakReg where
  | lgr (c : Nat) | lthTq (n : Nat) | copPool (p : Nat) | txq (p q : Nat) | evmSrc (s : Nat)
deriving DecidableEq, Repr

/-- The units whose LOCK bit makes RWL fields read-only without a check of its own (R7). -/
inductive LockUnit where
  | lth (n : Nat) | spn (n : Nat) | shp | inl (i : Nat) | hif | rng | evm | flt | lcm
deriving DecidableEq, Repr

/-- What acts in the cycle of a flush (R114, R115): a push, and a pop. -/
structure CycleIn where
  push : Bool
  pop : Bool
deriving DecidableEq, Repr

/-- A parked Lathe, and whether an access reaches it in the cycle of its move to OFF (R20, R212). -/
structure ParkIn where
  lathe : Nat
  access : Bool
deriving DecidableEq, Repr

/-- A register access that waits for a domain to wake (R19): a read, or a write of a word. -/
structure Access where
  rq : Requester
  addr : Nat
  write : Option Word
deriving DecidableEq, Repr

/-- One 72-bit word of the bitstream queue (R106). -/
structure BsqWord where
  data : Nat
  start : Bool
  last : Bool
  kind : Nat
  nbytesM1 : Nat
  parity : Bool
deriving DecidableEq, Repr

/-- A word that the feeder brings, and where its eight bytes lie in the coded picture buffer (R107). -/
structure FeedIn where
  word : BsqWord
  src : Nat
deriving DecidableEq, Repr

/-- The causes that rerun a step, by their codes in R273. -/
inductive RerunCause where
  | csUncorr | pipeParity | margin | brk
deriving DecidableEq, Repr

/-- One sample that the standard's decoding or reconstruction process gives: plane, position and coded value. -/
structure Px where
  plane : Nat
  x : Nat
  y : Nat
  v : Nat
deriving DecidableEq, Repr

/-- What the entropy stage and the standard's process make of one block (R109, R116): how many words it pops, the
damage code its syntax shows (0: none), whether it begins an entropy segment, a slice or tile, and a NAL unit or OBU, whether it
is inter, the entries of its reference lists that it predicts from, the one whose stored motion it looks up, the motion that it
stores in sixteenths of a sample, its samples, and its output samples with film grain (R47) (DESIGN CHOICE, log entry 5). -/
structure BlockIn where
  words : Nat
  damage : Nat
  segStart : Bool
  sliceStart : Bool
  nalStart : Bool
  inter : Bool
  refsUsed : List Nat
  colRef : Option Nat
  mv : Int × Int
  px : List Px
  grain : List Px
deriving DecidableEq, Repr

/-- The refused tools and flags that a sequence header, a picture parameter set or a slice header shows (R41, R47, R49). -/
structure Tools where
  extPrecision : Bool
  cabacAlign : Bool
  largeScaleTile : Bool
  constraintSet1 : Bool
  fmo : Bool
  aso : Bool
  redundant : Bool
deriving DecidableEq, Repr

/-- What a sequence header says (R67): the layer that it is of (R47, R50), whether it came in the Annex B format (R47), and what the
checks of R62 are made on (DESIGN CHOICE, log entry 5). -/
structure SeqHdr where
  parses : Bool
  layer : Nat
  annexB : Bool
  profile : Nat
  level : Nat
  width : Nat
  height : Nat
  depthY : Nat
  depthC : Nat
  chroma : Nat
  block : Nat
  tools : Tools
  interlaced : Bool
  fullRange : Bool
  primaries : Nat
  transfer : Nat
deriving DecidableEq, Repr

/-- One entry of an active reference list (R124, R125). -/
structure RefIn where
  picId : Nat
  poc : Int
deriving DecidableEq, Repr

/-- What a picture's headers say (R44, R47, R49, R85, R124, R132, R133): the layer that it is of; its size where its parameter set gives
one of its own (reference picture resampling); where its reference samples lie when film grain is applied to its output; whether it
begins a coded video sequence; the POC of its recovery point; and the pictures that stay in the decoded picture buffer. -/
structure PicHdr where
  parses : Bool
  paramsHeld : Bool
  layer : Nat
  size : Option (Nat × Nat)
  grain : Option Nat
  tools : Tools
  newSeq : Bool
  picId : Nat
  poc : Int
  intraPic : Bool
  irap : Bool
  startPoint : Bool
  recoveryAt : Option Int
  rasl : Bool
  skippable : Bool
  skipDirected : Bool
  allRowsStartSegment : Bool
  overLevel : Bool
  keep : List Nat
  refs : List RefIn
deriving DecidableEq, Repr

/-- What closes a decoded picture (R58, R59, R123, R130, R139): whether a picture hash SEI came and matches, the other SEI messages or metadata
OBUs of the picture with their payloadType or metadata_type and values, its slices that are of a refused sequence, and the line bytes that its
tasks asked of the DRAM controller (R312) (DESIGN CHOICE, log entry 137). -/
structure PicEndIn where
  moved : Nat
  hashPresent : Bool
  hashOk : Bool
  carriers : List (Nat × List Nat)
  slicesDiscarded : Nat
deriving DecidableEq, Repr

/-- The coding tools that an encoder may use beside those of every region (R42, R45, R148, R154): transform skip, palette, intra block copy, BDPCM,
integer-sample AMVR, IDTX, affine, MMVD, LFNST, MTS, ISP, OBMC, the switchable interpolation filter, warped motion, and CfL chosen by rate and
distortion. -/
inductive EncTool where
  | transformSkip | palette | blockCopy | bdpcm | integerMv | idtx | affine | mmvd | lfnst | mts | isp | obmc | switchFilter | warped | cfl
deriving DecidableEq, Repr

/-- A partition of a region as a mode decision makes it (R148): its place in its region and its size in luma samples, the entry of the
picture's references that it predicts from (none: intra), its vector in quarter samples, its intra direction in the order evaluated, and
its tools. -/
structure PartIn where
  x : Nat
  y : Nat
  w : Nat
  h : Nat
  ref : Option Nat
  mv : Int × Int
  dir : Nat
  tools : List EncTool
deriving DecidableEq, Repr

/-- What the encoder's microcode gives for one 64x64 region (R148, R179): its coded bits and bytes, those of its floor form, its mode
decision, and whether it asks for the filters beside deblocking (DESIGN CHOICE, log entry 5). -/
structure RegionIn where
  bits : Nat
  floorBits : Nat
  bytes : List Nat
  floorBytes : List Nat
  parts : List PartIn
  filters : Bool
deriving DecidableEq, Repr

/-- One encoded row (R178 to R180): its regions in raster order, the bits of its overhead, the bytes that end it, and its reconstructed
samples. -/
structure EncRowIn where
  regions : List RegionIn
  overhead : Nat
  tail : List Nat
  recon : List Px
deriving DecidableEq, Repr

/-- What the search of one 8x8 block finds (R145): its two motion candidates, the better first, in samples, and its intra direction class. -/
structure AnaIn where
  mv : Int × Int
  mv2 : Int × Int
  dir : Nat
deriving DecidableEq, Repr

/-- The analysis record of one 8x8 block (R145): its two motion candidates with their costs, and its intra direction class. -/
structure AnaRec where
  mv : Int × Int
  cost : Nat
  mv2 : Int × Int
  cost2 : Nat
  dir : Nat
deriving DecidableEq, Repr

/-- What a task's end reports (R98); `pre` bytes of a slice are the parameter sets, SEI and delimiters before it (R358). -/
structure CommitIn where
  cycles : Nat
  bytes : Nat
  hdr : List Nat
  pre : Nat
deriving DecidableEq, Repr

/-- A frame on a ring port (R348 to R351). -/
structure Frame where
  srcMac : Nat
  dstMac : Nat
  seq : Nat
  hsr : Bool
  fcsOk : Bool
  len : Nat
  tags : Nat
  pcp : Nat
  multicast : Bool
  subscribed : Bool
  pause : Bool
  supervision : Bool
deriving DecidableEq, Repr

/-- A PTP message as the ordinary clock sees it (R352, R353). -/
structure PtpMsg where
  isSync : Bool
  offsetNs : Int
  residenceNs : Nat
  bestMaster : Bool
deriving DecidableEq, Repr

/-- A delivered UDP packet (R355, R356). -/
structure Packet where
  vlan : Nat
  dstIp : Nat
  port : Nat
  frameLen : Nat
  seq : Nat
  marker : Bool
  accepted : Bool
  payload : List Nat
deriving DecidableEq, Repr

/-- An RTCP packet (R356, R357). -/
structure Rtcp where
  frameLen : Nat
  vlan : Nat
  dstIp : Nat
  port : Nat
  pliOrFir : Bool
  ssrc : Nat
deriving DecidableEq, Repr

/-- Where the response to a management message goes (R365): the counter that it echoes, and its sender's address and port. -/
structure MgmtFrom where
  counter : Nat
  ip : Nat
  port : Nat
deriving DecidableEq, Repr

/-- A management message (R365, R366): its header, whether its tag verifies under the node's key, the command, and the
addresses and UDP ports that it comes from and goes to. -/
structure MgmtMsg where
  magic : Nat
  version : Nat
  keySlot : Nat
  epoch : Nat
  counter : Nat
  tagOk : Bool
  cmd : List Word
  srcIp : Nat
  srcPort : Nat
  dstIp : Nat
  dstPort : Nat
deriving DecidableEq, Repr

/-- One descriptor of a chain (R384): two words of address, its length, and the LINK, END and reserved bits. -/
structure ChainDesc where
  addr : Nat
  len : Nat
  link : Bool
  last : Bool
  reserved : Nat
deriving DecidableEq, Repr

/-- A segment of a chain as read from host memory: where it lies and its descriptors. -/
structure ChainSeg where
  base : Nat
  descs : List ChainDesc
deriving DecidableEq, Repr

/-- A parameter item of a configuration record (R447). -/
structure Item where
  group : Nat
  row : Nat
  index : Nat
  values : List Nat
deriving DecidableEq, Repr

/-- A rectangle of a commit's dirty list (R383). -/
structure Rect where
  x : Nat
  y : Nat
  w : Nat
  h : Nat
deriving DecidableEq, Repr

/-- A layer record (R446 type 4): the layer, its parameter items and, in a commit, its dirty rectangles. -/
structure LayerRec where
  layer : Nat
  items : List Item
  dirty : List Rect
deriving DecidableEq, Repr

/-- A record of a CONFIG payload (R446). -/
inductive CfgRec where
  | regWrite (pairs : List (Nat × Word))
  | surface (addr : Nat) (bytes : List Nat)
  | canvas (cv : Nat) (items : List Item)
  | layer (cv : Nat) (rec : LayerRec)
  | stream (sid : Nat) (items : List Item)
  | streamChange (sid : Nat) (items : List Item)
  | overrideSet (set : Nat) (canvases : List (Nat × List LayerRec))
  | otpSettings (gen : Nat) (revoke sris signMask imageKeys mgmtKeys : Nat) (digestOk : Bool)
  | lifecycle (target serial : Nat)
deriving DecidableEq, Repr

/-- A section of a microcode payload (R284): KIND, SLOT, START, COUNT and its items. -/
structure UcSection where
  kind : Nat
  slot : Nat
  start : Nat
  count : Nat
  items : List Nat
deriving DecidableEq, Repr

/-- What the host presents to IMAGE_LOAD (R282 to R286): the header fields, the outcomes of the cryptographic engines
over the presented bytes, and the payload: of a microcode image its sections (R284), of a CONFIG image its records (R446)
(DESIGN CHOICE, log entry 5). -/
structure Image where
  magic : Nat
  format : Nat
  headerSize : Nat
  type : Nat
  flags : Nat
  partMask : Nat
  keyIndex : Nat
  securityVersion : Nat
  buildVersion : Nat
  payloadLength : Nat
  baseId : Nat
  reserved : Nat
  keyHashOk : Bool
  signatureOk : Bool
  tagOk : Bool
  digestOk : Bool
  digest : Nat
  payloadOk : Bool
  versions : List Nat
  closures : List Nat
  sections : List UcSection
  resultCrc : Nat
  factoryMode : Bool
  records : List CfgRec
deriving DecidableEq, Repr

/-- How a host-memory read ends (R386): with bytes, or with an image whose signature, key hash, tag and digest the engines have judged (R283)
(DESIGN CHOICE, log entry 123). -/
inductive HostRead where
  | data (bytes : List Nat) | poisoned (bytes : List Nat) | image (img : Image) | ur | ca
deriving DecidableEq, Repr

end Sys2Proof
end

