-- ==== Sys2Proof/Syntax.lean ====
section
/-!
DEFINITION. The commands of the block: one constructor for each row of spec/opcode_table.json, in the table's order,
with the row's operands. `n` names a Lathe, `now` the ledger time in microseconds (R37) at which the event happens.
-/
namespace Sys2Proof

/-- The commands and events of the Nirpen (DESIGN CHOICE, log entry 5). -/
inductive Instr where
  -- registers, domains and the ledger
  /-- REG_WRITE: `hw` is the mask of W1C bits that hardware sets in the same cycle (R8). -/
  | regWrite (rq : Requester) (addr : Nat) (v hw : Word)
  /-- MISALIGNED_ACCESS of `size` bytes; `wr`: it is a write. -/
  | misalignedAccess (rq : Requester) (addr size : Nat) (wr : Bool)
  | unmappedAccess (rq : Requester) (addr : Nat) (wr : Bool)
  | snapshotRead (rq : Requester) (addr : Nat)
  /-- COUNTER_CLEAR: `inc` lists the counters whose increment falls in the same cycle (R105). -/
  | counterClear (u : CntUnit) (inc : List Nat)
  | peakClear (r : PeakReg)
  /-- REG_LOCK: `v` is the word written to the unit's control register. -/
  | regLock (u : LockUnit) (v : Word)
  /-- LGR_LOCK: `also` lists the LGR_ writes that fall in the same cycle (R9). -/
  | lgrLock (also : List (Nat × Word))
  /-- DOMAIN_WAKE_ON_ACCESS: `w` is the word of a write, none for a read. -/
  | domainWakeOnAccess (rq : Requester) (addr : Nat) (w : Option Word) (now : Nat)
  | domainWakeDone (pd now : Nat)
  | holdLong (now : Nat)
  -- tasks
  | taskDispatch (n : Nat) (desc : List Word) (now : Nat)
  /-- TASK_GRANT_PUSH: `pop` says that the Lathe pops in the same cycle (R100). -/
  | taskGrantPush (n : Nat) (pop : Bool) (now : Nat)
  | taskPushRetry (n now : Nat)
  | nop (n now : Nat)
  | waitEvent (n now : Nat)
  | waitEventPulse (src now : Nat)
  /-- SELF_TEST: `crcOk` says that the CRC of the result equals the built-in one. -/
  | selfTest (n : Nat) (crcOk : Bool) (now : Nat)
  | decSeq (n : Nat) (h : SeqHdr) (now : Nat)
  | decPicStart (n : Nat) (h : PicHdr) (now : Nat)
  | decRow (n : Nat) (blocks : List BlockIn) (now : Nat)
  | decParse (n : Nat) (blocks : List BlockIn) (now : Nat)
  | decReconRow (n : Nat) (blocks : List BlockIn) (now : Nat)
  | decConcealRow (n : Nat) (blocks : List BlockIn) (now : Nat)
  | decPicEnd (n : Nat) (e : PicEndIn) (now : Nat)
  | encPicStart (n now : Nat)
  /-- ANA_ROW: what the search of the row's 8x8 blocks finds, in raster order. -/
  | anaRow (n : Nat) (recs : List AnaIn) (now : Nat)
  | encRow (n : Nat) (r : EncRowIn) (now : Nat)
  /-- ENC_PIC_END: `moved` is how many line bytes the picture's tasks asked of the DRAM controller (R312). -/
  | encPicEnd (n moved now : Nat)
  | ctxSave (n now : Nat)
  | ctxLoad (n now : Nat)
  | ctxVerify (n now : Nat)
  | patchOpcode (n now : Nat)
  | unknownOpcode (n now : Nat)
  | blockDepRelease (n now : Nat)
  | encRowWaitRelease (n now : Nat)
  /-- STEP_RERUN: the causes that arrive together, the control-store location of an uncorrectable one, the PC stopped,
  and whether a Shepherd abandon comes in the same cycle (R275). -/
  | stepRerun (n : Nat) (causes : List RerunCause) (loc pc : Nat) (abandon : Bool) (now : Nat)
  | taskCommit (n : Nat) (c : CommitIn) (now : Nat)
  /-- TASK_TIMEOUT: `cycles` are the CK_CORE cycles since the task's start. -/
  | taskTimeout (n cycles now : Nat)
  /-- TASK_ABANDON: `cycles` are the CK_CORE cycles since the task's start. -/
  | taskAbandon (n cycles now : Nat)
  | lthTqPush (rq : Requester) (n : Nat) (v : Word) (now : Nat)
  | latheDrain (n : Nat)
  /-- FEEDER_PUSH: `loss` names the recorded loss whose LOSS GAP is pushed here instead of the word (R119); `pop` a pop in the same cycle
  (R113). -/
  | feederPush (n : Nat) (w : FeedIn) (loss : Option Nat) (pop : Bool)
  /-- FEEDER_STALL_LIMIT: the word has been held for LIMIT_CYC cycles; `pop` a pop in the same cycle (R113). -/
  | feederStallLimit (n : Nat) (pop : Bool)
  | bsqFlushRequest (n : Nat)
  /-- BSQ_FLUSH: `inFlight` words of the item were fetched from DRAM and not yet pushed (R115). -/
  | bsqFlush (n inFlight : Nat) (c : CycleIn)
  -- encode timing
  | repinWaitExpiry (sid now : Nat)
  | rateChangeWaitExpiry (sid r now : Nat)
  | picDispatchNormal (sid now : Nat)
  | decisionLimit (sid now : Nat)
  | groupDispatch (sid now : Nat)
  -- the Shepherd
  /-- SHEPHERD_TICK: the 64 sensor readings in degrees (none: invalid). -/
  | shepherdTick (tj : List (Option Int)) (now : Nat)
  | bandFall (now : Nat)
  | unparkComplete (now : Nat)
  | parkedLatheOff (p : ParkIn)
  | parkRotate (now : Nat)
  /-- POWER_WINDOW: the average input power of the window in 0.1 W. -/
  | powerWindow (dw now : Nat)
  | bwLevelLower (now : Nat)
  | frameBoundaryMigrate (sid : Nat) (lanes : List Nat) (now : Nat)
  /-- POWER_STATE_DECISION: `gnext` is the time in microseconds to the next need that the Shepherd knows of beside its calendar (none: no such
  need); `access` says that a register access or an unforeseen need comes in the same cycle (R20, R224). -/
  | powerStateDecision (pd : Nat) (gnext : Option Nat) (access : Bool) (now : Nat)
  | domainWakeStart (pd need now : Nat)
  | maintRestart (v : Word) (now : Nat)
  | maintRecalibrate (v : Word) (now : Nat)
  | maintRetire (v : Word) (now : Nat)
  | maintVersionOk (now : Nat)
  /-- MAINT_DRAINED: `pass` says that the action and its SELF_TEST pass. -/
  | maintDrained (n : Nat) (pass : Bool) (now : Nat)
  -- the Inlays and heads
  | commitPoint (cv now : Nat)
  | compGrant (cv now : Nat)
  | bandDone (cv now : Nat)
  | compDelivered (cv now : Nat)
  | fenceLatch (src : Nat)
  | overrideTriggerWrite (v : Word) (now : Nat)
  | overrideReleaseWrite (v : Word) (now : Nat)
  | overrideGpioAssert (g now : Nat)
  | overrideGpioDeassert (g now : Nat)
  | layerStale (cv now : Nat)
  | headEnable (d : Nat) (v : Word)
  /-- HEAD_FRAME_START: the line-0 phase error in ns. -/
  | headFrameStart (d : Nat) (err : Int) (now : Nat)
  | vblank (d : Nat)
  | hpdLoss (d : Nat)
  | hpdReturn (d : Nat) (edid : List Nat)
  | linkTrainingDone (d : Nat) (ok : Bool) (rate lanes : Nat)
  -- the Spindle
  /-- CS_PATROL: the outcome at the location read: 0 clean, 1 correctable, 2 uncorrectable. -/
  | csPatrol (n outcome : Nat)
  | spindleLoad (n : Nat)
  | spnReload (n : Nat) (v : Word)
  /-- SPINDLE_LOAD_DONE: whether read-back met an uncorrectable error. -/
  | spindleLoadDone (n : Nat) (uncorr : Bool)
  | traceEnable (n : Nat) (v : Word)
  -- DRAM
  /-- DRAM_READ: port, accounting tag, address, length, and the number of erroneous bytes the first decode meets in
  the line. -/
  | dramRead (port tag addr len bad : Nat)
  /-- DRAM_READ_RETRY of the line at `addr`: the number of erroneous bytes this retry meets. -/
  | dramReadRetry (port tag addr bad now : Nat)
  | dramWrite (port tag addr : Nat) (bytes : List Nat) (bad : Nat)
  | refreshSlot (ch now : Nat)
  | dramTempRead (ch : Nat) (temp : Int) (now : Nat)
  | scrubLine (ch bad now : Nat)
  /-- SOFT_REPAIR: `spare` says that the bank has a spare row. -/
  | softRepair (ch : Nat) (spare : Bool) (now : Nat)
  | wipeDone (now : Nat)
  /-- DRIFT_TRACK: the largest tracked drift in 1/64 UI. -/
  | driftTrack (ch drift : Nat)
  | bwWindow (now : Nat)
  | dmcLock (also : List (Nat × Word))
  -- Coop
  | coopLock (also : List (Nat × Word))
  | coopReady (now : Nat)
  | coopWaitGrant (now : Nat)
  | coopFree (handle : Nat)
  -- Drover
  | drvCopy (ch : Nat) (v : Word) (now : Nat)
  | drvFill (ch : Nat) (v : Word) (now : Nat)
  | drvCompare (ch : Nat) (v : Word) (now : Nat)
  /-- DRV_LEDGER_GRANT: `src` and `dst` are the bytes that host memory returns for host ranges. -/
  | drvLedgerGrant (ch : Nat) (src dst : List Nat) (now : Nat)
  | drvAbort (ch : Nat) (v : Word) (now : Nat)
  | drvDone (ch now : Nat)
  -- ring
  /-- RING_CHECK_WINDOW: supervision sources heard in both directions and in one only; own frames returned on EAST
  and WEST. -/
  | ringCheckWindow (both oneWay : Nat) (ownE ownW : Bool) (now : Nat)
  | supervisionSend (now : Nat)
  | holdoffExpiry (now : Nat)
  /-- SWITCH_SENSED: the position bits sensed (1: NODE). -/
  | switchSensed (pos : Nat) (now : Nat)
  | switchTimeout (now : Nat)
  | bypassFaultRetry (pos : Nat) (now : Nat)
  | forceBypass (v : Word) (now : Nat)
  | withdrawWaitExpiry (now : Nat)
  | linkWaitExpiry (p now : Nat)
  | portLinkUp (p now : Nat)
  | portLinkDown (p now : Nat)
  | speedTryExpiry (p now : Nat)
  | sfpInsert (p ident : Nat)
  /-- FRAME_RX: `room` says that the pass-through queue has room; `late` that the frame's residence passes the bound
  of R351; `same` that the other port receives the other copy in the same CK_FAB cycle. -/
  | frameRx (p : Nat) (f : Frame) (same : Bool) (now : Nat)
  | dupEntryExpiry (now : Nat)
  /-- PORT_TRANSMIT: `residence` is the residence in ns of the frame that starts. -/
  | portTransmit (p residence now : Nat)
  | ptpMessage (p : Nat) (m : PtpMsg) (now : Nat)
  | ptpSyncTimeout (now : Nat)
  | ptpSecond (now : Nat)
  | ppsInEdge (ns : Nat)
  | rtpPacketRx (p : Nat) (k : Packet) (now : Nat)
  | reorderTimeout (flow now : Nat)
  | rtcpRx (p : Nat) (k : Rtcp) (now : Nat)
  /-- ARP_ICMP_RX: the target address, and whether it is an ICMP echo (else ARP). -/
  | arpIcmpRx (p ip : Nat) (icmp : Bool)
  /-- SLICE_PACKETISE: the next slice of the rendition is cut. -/
  | slicePacketise (sid r now : Nat)
  | netGrant (sid r now : Nat)
  | txqAgeDrop (p q now : Nat)
  | txqRateWrite (q : Nat) (v : Word) (now : Nat)
  | txqSample (now : Nat)
  | rtcpSrSend (sid r now : Nat)
  | mgmtRequest (m : MgmtMsg) (now : Nat)
  | mgmtHello (m : MgmtMsg)
  | mgmtLockoutEnd (now : Nat)
  -- host interface
  | perstAssert (now : Nat)
  | hotReset (now : Nat)
  | linkDown (now : Nat)
  | functionLevelReset (now : Nat)
  | d3coldEntry (now : Nat)
  | d3hotEntry (now : Nat)
  | d0Entry (now : Nat)
  | bar4Write (off : Nat) (bytes : List Nat)
  | bar4Read (off len : Nat)
  | sqTailDoorbell (q : Nat) (v : Word)
  | cqHeadDoorbell (q : Nat) (v : Word)
  | queueEnable (q : Nat) (v : Word)
  | queueDisable (q : Nat) (v : Word)
  | queueDrained (q : Nat)
  /-- COMMAND_FETCH: what the read of the next commands returns: up to 8 commands of 16 words. -/
  | commandFetch (q : Nat) (cmds : List (List Word))
  | commandStart (q now : Nat)
  | cmdNop (e : Nat)
  | streamOpen (e : Nat) (segs : List ChainSeg) (now : Nat)
  | streamClose (e now : Nat)
  | streamConfig (e : Nat) (segs : List ChainSeg) (now : Nat)
  | streamStats (e : Nat) (segs : List ChainSeg)
  | refreshRequest (e now : Nat)
  | setTargetVersion (e now : Nat)
  | canvasCommit (e : Nat) (segs : List ChainSeg) (now : Nat)
  | override (e now : Nat)
  | overrideRelease (e now : Nat)
  | bufAlloc (e now : Nat)
  | bufFree (e : Nat)
  | ingest (e : Nat) (segs : List ChainSeg)
  | egress (e : Nat) (segs : List ChainSeg)
  | imageLoad (e : Nat) (segs : List ChainSeg) (now : Nat)
  | floorCommit (e : Nat)
  /-- HOST_READ_TIMEOUT of the read of owner `o` (R386): 0 to 63 a queue's fetch, 64 + c a Drover channel,
  128 + e the command that holds entry e. -/
  | hostReadTimeout (o now : Nat)
  | hostReadCompletion (o : Nat) (r : HostRead) (now : Nat)
  | completionWrite (e now : Nat)
  | cplWaitExpiry (e now : Nat)
  | vectorTimerExpiry (v now : Nat)
  | vectorUnmask (v : Nat)
  | quiesce (v : Word)
  -- events and interrupts
  | swFencePulse (hi : Bool) (v : Word)
  | sinkWrite (k : Nat) (v : Word)
  | crossingDelivery (src : Nat)
  | stampRead (rq : Requester) (j : Nat)
  | gpioDirWrite (v : Word)
  | gpioInputEdge (g : Nat)
  | gpioPulseEnd (g : Nat)
  | bwtSourcePulse (s : Nat)
  /-- BWT_CLAIM: `pulsed` lists sources whose pulse falls in the same cycle; `rival` another target claiming in the
  same cycle (R409). -/
  | bwtClaim (rq : Requester) (t : Nat) (pulsed : List Nat) (rival : Option Nat)
  | bwtEoi (rq : Requester) (t : Nat) (v : Word) (pulsed : Bool)
  | bwtSet (rq : Requester) (v : Word)
  | bwtClear (v : Word) (pulsed : Bool)
  | bwtSrcCfgWrite (s : Nat) (v : Word)
  | targetOffline (t : Nat)
  | targetOnline (t : Nat)
  -- faults
  | faultEdge (k now : Nat)
  /-- STICKY_CLEAR of FLT_STICKY word `i`: `edges` lists sources with a rising edge in the same cycle (R420). -/
  | stickyClear (i : Nat) (v : Word) (edges : List Nat) (now : Nat)
  | brokenClear (i : Nat) (v : Word)
  | wireBroken (k now : Nat)
  | wireRestored (k : Nat)
  /-- WIRE_TEST: `inverts` says that the pair inverts in the source's slot. -/
  | wireTest (k : Nat) (inverts : Bool) (now : Nat)
  | logRead (rq : Requester) (e : Nat)
  | injectAssert (v : Word) (now : Nat)
  | injectBreakF (v : Word) (now : Nat)
  | injectBreakFn (v : Word) (now : Nat)
  | injectDramCe (v : Word)
  | injectDramUe (v : Word)
  | injectCsFlip (v : Word)
  | injectCsFlip2 (v : Word)
  | injectBsqParity (v : Word)
  | migrateTimeout (n now : Nat)
  -- start and life
  /-- INPUT_GOOD: input 0 is VIN_A, 1 is VIN_B; its voltage in units of 10 mV, and whether MOD_INHIBIT is high (R466). -/
  | inputGood (i mv10 : Nat) (inhibit : Bool) (now : Nat)
  | inputLost (i : Nat) (mv10 other : Nat) (otherInRange : Bool) (now : Nat)
  | bothInputsLost (now : Nat)
  | resetComplete (now : Nat)
  /-- CALIBRATE_DONE: the channels whose training failed three times, the banks (channel, bank) whose spare rows are used up (R308),
  and the planned VOFF of each domain with its measured margin (R455). -/
  | calibrateDone (failed : List Nat) (spent : List (Nat × Nat)) (margins : List (Nat × Nat × Nat)) (now : Nat)
  /-- LOAD_DONE: whether bank A and bank B are read without an uncorrectable error, and the images that were in them before this
  machine's own IMAGE_LOADs. -/
  | loadDone (okA okB : Bool) (imgsA imgsB : List Image) (now : Nat)
  | modeReqRestart (v : Word) (now : Nat)
  | modeReqService (v : Word) (now : Nat)
  | modeReqMaintain (v : Word) (now : Nat)
  | modeReqQuiet (v : Word) (now : Nat)
  | maintHour (hour now : Nat)
  /-- MAINTAIN_END: the channels whose retraining failed, and the banks whose spare rows are used up. -/
  | maintainEnd (failed : List Nat) (spent : List (Nat × Nat)) (now : Nat)
  | holdExit (now : Nat)
  | withdrawCooled (tj : Int) (now : Nat)
  | bankConfirm (now : Nat)
  /-- FLASH_SCRUB of one block: bank 0 A, 1 B, 2 log; corrected bits; uncorrectable; a copy in the other bank. -/
  | flashScrub (bank bits : Nat) (uncorr copy : Bool) (now : Nat)
  | lifeMinute (now : Nat)
  /-- MARGIN_READ of a domain: the four monitors' slack in ps and the projection to 150 degrees of their least. -/
  | marginRead (pd : Nat) (slack : List Nat) (projected now : Nat)
  | nearMiss (pd now : Nat)
  | perstDeassert (now : Nat)
  | modInhibitRelease (now : Nat)
  /-- TX_COPY_LEFT: the copy of NET entry `e` finishes leaving port `p`. -/
  | txCopyLeft (e p now : Nat)
deriving DecidableEq, Repr

end Sys2Proof
end

