-- ==== Sys2Proof/Config.lean ====
section
/-!
DEFINITION. The free values of the model: what the spec leaves open and the machine nevertheless produces. Each is an
opaque constant without a body, so no proof can see a value of it.
-/
namespace Sys2Proof.Config

/-- Which ledger entry a grant takes is not defined (R32): the number proposed for the n-th grant (DESIGN CHOICE, log entry 6). -/
opaque freeEntry : Nat → Nat

/-- The n-th value that the spec leaves undefined or does not state, of any kind (each use names its log entry) (DESIGN CHOICE, log entry 7). -/
opaque freeValue : Nat → Nat

/-- Whether the limits that a coding standard itself sets for a level and tier hold for a stream: its standard, level, tier, and
R_a, B, width, height, picture period, slice rows, span ceiling, tile columns and MODEL (R70, R171). The standards are not part of the
spec (DESIGN CHOICE, log entry 51). -/
opaque levelFits : Nat → Nat → Nat → List Nat → Bool

/-- Whether a bit rate and a buffer size lie within a standard's level and tier: all that an unconstrained level code is held to (R65)
(DESIGN CHOICE, log entry 51). -/
opaque bufferFits : Nat → Nat → Nat → Nat → Nat → Bool

/-- The 8-bit AC quantiser step of an AV1 qindex (R172), which the standard tabulates (DESIGN CHOICE, log entry 51). -/
opaque av1Step : Nat → Nat

/-- The cost of a motion candidate of an 8x8 block, or with no matched samples of its best intra direction: a function of the samples
that it compares, which the spec does not state (R145) (DESIGN CHOICE, log entry 131). -/
opaque anaCost : List Nat → List Nat → Nat

/-- The MaxTiles of an AV1 level (R84) (DESIGN CHOICE, log entry 51). -/
opaque maxTiles : Nat → Nat

/-- The bytes of the smallest filler unit of a standard (R175), which the standard sets (PRESUMED, log entry 50). -/
opaque minFiller : Nat → Nat

/-- The stored check bits of a control-store location with its data (R265): the spec names the code's size only (DESIGN CHOICE, log entry 37). -/
opaque storeCheck : Nat → Nat

end Sys2Proof.Config
end

