-- ==== Sys2Proof/Machine/RegMap.lean ====
section
/-!
DEFINITION. The register map of BAR0 (R24): every register's place, fields, access codes (R7) and reset values, as the
register tables of the spec's chapters give them. A field is named REGISTER_FIELD. Where a register stands once per
unit, the first argument is the unit; where it stands in an array, the last one is the index.
-/
namespace Sys2Proof.Machine

/-- A register field: the BAR0 byte address of its register, its lowest bit, its width and its reset value. -/
structure Fld where
  a : Nat
  lo : Nat
  w : Nat
  rst : Nat
deriving DecidableEq, Repr

/-- The access codes of R7 (reserved bits are in no field). -/
inductive Acc where
  | ro | rw | w1c | w1s | wo | rwl
deriving DecidableEq, Repr

/-- A field within a row of the map. -/
structure RegField where
  lo : Nat
  w : Nat
  acc : Acc
  rst : Nat
deriving DecidableEq, Repr

/-- A row of a window's map: `count` groups, `stride` bytes apart, of `words` registers of the same fields. -/
structure RegRow where
  off : Nat
  stride : Nat
  count : Nat
  words : Nat
  fields : List RegField
deriving DecidableEq, Repr

namespace Reg

def ID_CAPS0_LT_PRESENT : Fld := ⟨0x10, 0, 26, 0x3ffffff⟩
def ID_CAPS0_IN_PRESENT : Fld := ⟨0x10, 26, 2, 3⟩
def ID_CAPS0_DP_PRESENT : Fld := ⟨0x10, 28, 4, 0xf⟩
def ID_CAPS1_HEVC_DEC : Fld := ⟨0x14, 0, 1, 1⟩
def ID_CAPS1_VVC_DEC : Fld := ⟨0x14, 1, 1, 1⟩
def ID_CAPS1_AV1_DEC : Fld := ⟨0x14, 2, 1, 1⟩
def ID_CAPS1_H264_DEC : Fld := ⟨0x14, 3, 1, 1⟩
def ID_CAPS1_HEVC_ENC : Fld := ⟨0x14, 4, 1, 1⟩
def ID_CAPS1_AV1_ENC : Fld := ⟨0x14, 5, 1, 1⟩
def ID_CAPS1_VVC_ENC : Fld := ⟨0x14, 6, 1, 1⟩
def ID_CAPS1_SERVICE_LATHES : Fld := ⟨0x14, 16, 8, 0x18⟩
def ID_CAPS1_SPARE_LATHES : Fld := ⟨0x14, 24, 8, 2⟩
def ID_CAPS2_RING_PORTS : Fld := ⟨0x18, 0, 2, 3⟩
def ID_CAPS2_RING_25G : Fld := ⟨0x18, 2, 1, 1⟩
def ID_CAPS2_DRAM_RAW_GIB : Fld := ⟨0x18, 8, 8, 0x20⟩
def ID_CAPS2_DRAM_USABLE_GIB : Fld := ⟨0x18, 16, 8, 0x1c⟩
def ID_CAPS3_CANVASES : Fld := ⟨0x1c, 0, 7, 0x40⟩
def ID_CAPS3_DROVER_CHANNELS : Fld := ⟨0x1c, 8, 8, 0x10⟩
def ID_CAPS3_LEDGER_KENTRIES : Fld := ⟨0x1c, 16, 16, 0x80⟩
def ID_PART_PART : Fld := ⟨0x0, 0, 16, 0x7260⟩
def ID_PART_STEP : Fld := ⟨0x0, 16, 8, 1⟩
def ID_SERIAL_LO_SERIAL_LO : Fld := ⟨0x4, 0, 32, 0⟩
def ID_SERIAL_HI_SERIAL_HI : Fld := ⟨0x8, 0, 32, 0⟩
def LCM_CTRL_LOCK : Fld := ⟨0x10000, 0, 1, 0⟩
def LCM_MODE_MODE : Fld := ⟨0x10004, 0, 4, 1⟩
def LCM_MODE_PREV : Fld := ⟨0x10004, 4, 4, 0⟩
def LCM_MODE_REASON : Fld := ⟨0x10004, 8, 4, 0⟩
def LCM_MODE_REQ_REQ : Fld := ⟨0x10008, 0, 4, 5⟩
def LCM_MODE_REQ_GO : Fld := ⟨0x10008, 4, 1, 0⟩
def LCM_MODE_REQ_REFUSED : Fld := ⟨0x10008, 5, 1, 0⟩
def LCM_LC_STATE : Fld := ⟨0x1000c, 0, 3, 0⟩
def LCM_LC_WORDS_USED : Fld := ⟨0x1000c, 3, 5, 0⟩
def LCM_OTP_ACTIVE_GEN : Fld := ⟨0x10010, 0, 2, 0⟩
def LCM_OTP_GEN_USED : Fld := ⟨0x10010, 2, 4, 0⟩
def LCM_OTP_SIGN_VALID : Fld := ⟨0x10010, 6, 4, 0⟩
def LCM_OTP_SIGN_REVOKED : Fld := ⟨0x10010, 10, 4, 0⟩
def LCM_OTP_IMAGE_KEYS : Fld := ⟨0x10010, 14, 4, 0⟩
def LCM_OTP_MGMT_KEYS : Fld := ⟨0x10010, 18, 4, 0⟩
def LCM_OTP_SRIS : Fld := ⟨0x10010, 22, 1, 0⟩
def LCM_FLOOR_FLOOR (k : Nat) : Fld := ⟨0x10014 + 4 * k, 0, 32, 0⟩
def LCM_FLOOR_LEFT_LEFT_CONFIG : Fld := ⟨0x10020, 0, 8, 0x80⟩
def LCM_FLOOR_LEFT_LEFT_FIRMWARE : Fld := ⟨0x10020, 8, 8, 0x80⟩
def LCM_FLOOR_LEFT_LEFT_MICROCODE : Fld := ⟨0x10020, 16, 8, 0x80⟩
def LCM_BOOT_BANK : Fld := ⟨0x10024, 0, 1, 0⟩
def LCM_BOOT_TRIAL : Fld := ⟨0x10024, 1, 1, 0⟩
def LCM_BOOT_TRIES : Fld := ⟨0x10024, 2, 2, 0⟩
def LCM_BOOT_FALLBACK : Fld := ⟨0x10024, 4, 1, 0⟩
def LCM_BOOT_FAILED_STARTS : Fld := ⟨0x10024, 5, 2, 0⟩
def LCM_EPOCH_EPOCH : Fld := ⟨0x10028, 0, 32, 0⟩
def LCM_BOOT_CFG_CONFIRM_MIN : Fld := ⟨0x1002c, 0, 16, 0x1e⟩
def LCM_BOOT_CFG_MAINT_HOUR : Fld := ⟨0x1002c, 16, 5, 0x18⟩
def LCM_START_TIME_MS : Fld := ⟨0x10030, 0, 16, 0⟩
def LCM_SUPPLY_VIN_A : Fld := ⟨0x10034, 0, 11, 0⟩
def LCM_SUPPLY_VIN_B : Fld := ⟨0x10034, 11, 11, 0⟩
def LCM_SUPPLY_A_GOOD : Fld := ⟨0x10034, 22, 1, 0⟩
def LCM_SUPPLY_B_GOOD : Fld := ⟨0x10034, 23, 1, 0⟩
def LCM_SUPPLY_RESERVE_OK : Fld := ⟨0x10034, 24, 1, 0⟩
def LCM_LIFE_H_HOURS : Fld := ⟨0x10038, 0, 32, 0⟩
def LCM_LIFE_PCT_PCT : Fld := ⟨0x1003c, 0, 20, 0⟩
def LCM_FLASH_SCRUB_EN : Fld := ⟨0x10040, 0, 1, 1⟩
def LCM_FLASH_SCRUB_H : Fld := ⟨0x10040, 1, 8, 0x18⟩
def LCM_FLASH_BANK_A_OK : Fld := ⟨0x10040, 9, 1, 0⟩
def LCM_FLASH_BANK_B_OK : Fld := ⟨0x10040, 10, 1, 0⟩
def LCM_FLASH_REFRESHED : Fld := ⟨0x10040, 16, 16, 0⟩
def LCM_AGE_CFG_TARGET_PS : Fld := ⟨0x10044, 0, 8, 0x28⟩
def LCM_AGE_CFG_MIN_PS : Fld := ⟨0x10044, 8, 8, 0x14⟩
def LCM_DOMAIN_MARGIN_PS (k : Nat) : Fld := ⟨0x10100 + 4 * k, 0, 8, 0⟩
def LCM_DOMAIN_VOFF (k : Nat) : Fld := ⟨0x10100 + 4 * k, 8, 5, 0⟩
def LCM_DOMAIN_AT_LIMIT (k : Nat) : Fld := ⟨0x10100 + 4 * k, 13, 1, 0⟩
def LCM_DOMAIN_BASE_PS (k : Nat) : Fld := ⟨0x10100 + 4 * k, 14, 8, 0⟩
def LCM_DOMAIN_NEAR_MISS (k : Nat) : Fld := ⟨0x10100 + 4 * k, 22, 10, 0⟩
def SHP_CTRL_LOCK : Fld := ⟨0x20000, 0, 1, 0⟩
def SHP_CTRL_LIVE_BAND : Fld := ⟨0x20000, 1, 2, 2⟩
def SHP_CTRL_ROTATE_EN : Fld := ⟨0x20000, 3, 1, 1⟩
def SHP_PWR_CAP_CAP_W : Fld := ⟨0x20004, 0, 8, 0x78⟩
def SHP_PWR_POWER_DW : Fld := ⟨0x20008, 0, 12, 0⟩
def SHP_PWR_OVER_CAP : Fld := ⟨0x20008, 12, 1, 0⟩
def SHP_TEMP_TJ_MAX : Fld := ⟨0x2000c, 0, 9, 0⟩
def SHP_TEMP_DRAM_MAX : Fld := ⟨0x2000c, 9, 9, 0⟩
def SHP_TEMP_BAND : Fld := ⟨0x2000c, 18, 2, 0⟩
def SHP_TEMP_MULT : Fld := ⟨0x2000c, 20, 2, 0⟩
def SHP_TEMP_SENSORS_VALID : Fld := ⟨0x2000c, 22, 7, 0x40⟩
def SHP_BAND_CFG_HYST_C : Fld := ⟨0x20010, 0, 4, 5⟩
def SHP_BAND_CFG_DWELL_MS : Fld := ⟨0x20010, 4, 12, 0x3e8⟩
def SHP_GUAR_G_MPX : Fld := ⟨0x20014, 0, 16, 0x3a98⟩
def SHP_GUAR_N : Fld := ⟨0x20014, 16, 5, 0x18⟩
def SHP_SHED_LEVEL : Fld := ⟨0x20018, 0, 3, 0⟩
def SHP_SHED_HEAT_LEVEL : Fld := ⟨0x20018, 3, 3, 0⟩
def SHP_SHED_POWER_LEVEL : Fld := ⟨0x20018, 6, 3, 0⟩
def SHP_SHED_BW_LEVEL : Fld := ⟨0x20018, 9, 3, 0⟩
def SHP_BW_BUDGET_DGB : Fld := ⟨0x20030, 0, 16, 0x47e⟩
def SHP_BW_DEMAND_DGB : Fld := ⟨0x20030, 16, 16, 0⟩
def SHP_MAINT_LATHE : Fld := ⟨0x20054, 0, 5, 0⟩
def SHP_MAINT_ACTION : Fld := ⟨0x20054, 5, 2, 0⟩
def SHP_MAINT_START : Fld := ⟨0x20054, 7, 1, 0⟩
def SHP_MAINT_STATE : Fld := ⟨0x20054, 8, 3, 0⟩
def SHP_ROTATE_ROTATE_MIN : Fld := ⟨0x20058, 0, 16, 0xa⟩
def SHP_GUARD_WAKE_GUARD_US : Fld := ⟨0x2005c, 0, 8, 5⟩
def SHP_GUARD_ARRIVAL_GUARD_US : Fld := ⟨0x2005c, 8, 16, 0x3e8⟩
def SHP_STATUS_LIVE_OVERCOMMIT : Fld := ⟨0x200a0, 0, 1, 0⟩
def SHP_STATUS_CAP_UNMET : Fld := ⟨0x200a0, 1, 1, 0⟩
def SHP_STATUS_DEGRADED : Fld := ⟨0x200a0, 2, 1, 0⟩
def SHP_STATUS_SENSORS_LOW : Fld := ⟨0x200a0, 3, 1, 0⟩
def SHP_STATUS_BAND_CHANGED : Fld := ⟨0x200a0, 4, 1, 0⟩
def SHP_STATUS_SHED_CHANGED : Fld := ⟨0x200a0, 5, 1, 0⟩
def SHP_STATUS_WAKE_LATE : Fld := ⟨0x200a0, 6, 1, 0⟩
def SHP_CNT_CTRL_FREEZE : Fld := ⟨0x20180, 1, 1, 0⟩
def SHP_CHARGE_CHARGE_MPX (k : Nat) : Fld := ⟨0x20020 + 4 * k, 0, 16, 0⟩
def SHP_LT_SERVICE_MASK : Fld := ⟨0x20040, 0, 26, 0xffffff⟩
def SHP_LT_SPARE_MASK : Fld := ⟨0x20044, 0, 26, 0x3000000⟩
def SHP_LT_PARKED_MASK : Fld := ⟨0x20048, 0, 26, 0⟩
def SHP_LT_MAINT_MASK : Fld := ⟨0x2004c, 0, 26, 0⟩
def SHP_LT_RETIRED_MASK : Fld := ⟨0x20050, 0, 26, 0⟩
def SHP_CTX_BASE_LO_ADDR_LO : Fld := ⟨0x20060, 0, 32, 0⟩
def SHP_CTX_BASE_HI_ADDR_HI : Fld := ⟨0x20064, 0, 3, 0⟩
def FLT_CTRL_LOCK : Fld := ⟨0x30000, 0, 1, 0⟩
def FLT_STATUS_HOLD_REQ : Fld := ⟨0x30004, 0, 1, 0⟩
def FLT_STATUS_ANY_BROKEN : Fld := ⟨0x30004, 1, 1, 0⟩
def FLT_STATUS_LOG_WRAPPED : Fld := ⟨0x30004, 2, 1, 0⟩
def FLT_STATUS_LOG_WR : Fld := ⟨0x30004, 3, 6, 0⟩
def FLT_STATUS_STICKY_UNIT : Fld := ⟨0x30004, 9, 10, 0⟩
def FLT_STATUS_STICKY_DEVICE : Fld := ⟨0x30004, 19, 10, 0⟩
def FLT_LADDER_CFG_MIGRATE_MS : Fld := ⟨0x30008, 0, 16, 0x64⟩
def FLT_LADDER_CFG_STRIKE_LIMIT : Fld := ⟨0x30008, 16, 5, 3⟩
def FLT_LADDER_CFG_MIN_LATHES : Fld := ⟨0x30008, 21, 5, 1⟩
def FLT_STRIKE_CFG_STRIKE_WINDOW_MIN : Fld := ⟨0x3000c, 0, 16, 0x3c⟩
def FLT_INJECT_CTRL_KIND : Fld := ⟨0x30010, 0, 4, 0⟩
def FLT_INJECT_CTRL_TARGET : Fld := ⟨0x30010, 4, 9, 0⟩
def FLT_INJECT_CTRL_ARM : Fld := ⟨0x30010, 13, 1, 0⟩
def FLT_INJECT_ADDR_LO_ADDR : Fld := ⟨0x30014, 6, 26, 0⟩
def FLT_INJECT_ADDR_HI_ADDR_HI : Fld := ⟨0x30018, 0, 3, 0⟩
def FLT_LT_LADDER_RUNG (k : Nat) : Fld := ⟨0x30400 + 4 * k, 0, 3, 0⟩
def FLT_LT_LADDER_STRIKES (k : Nat) : Fld := ⟨0x30400 + 4 * k, 3, 5, 0⟩
def FLT_LT_LADDER_RETIRE_BLOCKED (k : Nat) : Fld := ⟨0x30400 + 4 * k, 8, 1, 0⟩
def FLT_SRC_CFG_CLASS (k : Nat) : Fld := ⟨0x30800 + 4 * k, 0, 2, 0⟩
def FLT_SRC_CFG_LOG (k : Nat) : Fld := ⟨0x30800 + 4 * k, 2, 1, 1⟩
def FLT_SRC_CFG_IRQ (k : Nat) : Fld := ⟨0x30800 + 4 * k, 3, 1, 0⟩
def FLT_SRC_CFG_RETIRE_UNIT (k : Nat) : Fld := ⟨0x30800 + 4 * k, 4, 1, 0⟩
def FLT_SRC_CFG_HOLD (k : Nat) : Fld := ⟨0x30800 + 4 * k, 5, 1, 0⟩
def FLT_SRC_CFG_PRESENT (k : Nat) : Fld := ⟨0x30800 + 4 * k, 6, 1, 1⟩
def FLT_SRC_CFG_COUNT (k : Nat) : Fld := ⟨0x30800 + 4 * k, 8, 8, 0⟩
def FLT_CNT_CTRL_FREEZE : Fld := ⟨0x31080, 1, 1, 0⟩
def EVM_CTRL_LOCK : Fld := ⟨0x40000, 0, 1, 0⟩
def EVM_CV_APPLIED_LO_CANVAS : Fld := ⟨0x40020, 0, 32, 0⟩
def EVM_CV_APPLIED_HI_CANVAS : Fld := ⟨0x40024, 0, 32, 0⟩
def EVM_GPIO_DIR_DIR : Fld := ⟨0x40030, 0, 16, 0⟩
def EVM_SINK_SOURCE (k : Nat) : Fld := ⟨0x40400 + 4 * k, 0, 8, 0⟩
def EVM_SINK_EN (k : Nat) : Fld := ⟨0x40400 + 4 * k, 8, 1, 0⟩
def EVM_SINK_DIV (k : Nat) : Fld := ⟨0x40400 + 4 * k, 16, 8, 0⟩
def EVM_SRC_STAT_MERGED (k : Nat) : Fld := ⟨0x40800 + 4 * k, 0, 16, 0⟩
def EVM_SRC_STAT_DROPPED (k : Nat) : Fld := ⟨0x40800 + 4 * k, 16, 15, 0⟩
def EVM_STAMP0_NS (k : Nat) : Fld := ⟨0x40c00 + 8 * k, 0, 30, 0⟩
def EVM_STAMP0_OVERWRITTEN (k : Nat) : Fld := ⟨0x40c00 + 8 * k, 30, 1, 0⟩
def EVM_STAMP0_VALID (k : Nat) : Fld := ⟨0x40c00 + 8 * k, 31, 1, 0⟩
def EVM_STAMP1_SECONDS (k : Nat) : Fld := ⟨0x40c04 + 8 * k, 0, 32, 0⟩
def BWT_FAULT_EOI_ORDER : Fld := ⟨0x44000, 0, 5, 0⟩
def BWT_FAULT_FOREIGN : Fld := ⟨0x44000, 5, 1, 0⟩
def BWT_TGT_STATE_RP (k : Nat) : Fld := ⟨0x44010 + 4 * k, 0, 4, 0⟩
def BWT_TGT_STATE_EMPTY (k : Nat) : Fld := ⟨0x44010 + 4 * k, 4, 1, 1⟩
def BWT_TGT_STATE_DEPTH (k : Nat) : Fld := ⟨0x44010 + 4 * k, 5, 5, 0⟩
def BWT_TGT_STATE_OFFLINE (k : Nat) : Fld := ⟨0x44010 + 4 * k, 10, 1, 0⟩
def BWT_TGT_STATE_ASLEEP (k : Nat) : Fld := ⟨0x44010 + 4 * k, 11, 1, 0⟩
def BWT_TGT_STATE_PRESENTED (k : Nat) : Fld := ⟨0x44010 + 4 * k, 12, 1, 0⟩
def BWT_CNT_CTRL_FREEZE : Fld := ⟨0x44280, 1, 1, 0⟩
def BWT_SRC_CFG_PRIORITY (k : Nat) : Fld := ⟨0x48000 + 4 * k, 0, 4, 0⟩
def BWT_SRC_CFG_TARGET (k : Nat) : Fld := ⟨0x48000 + 4 * k, 4, 3, 7⟩
def BWT_SRC_CFG_FALLBACK (k : Nat) : Fld := ⟨0x48000 + 4 * k, 7, 3, 7⟩
def BWT_SRC_CFG_VECTOR (k : Nat) : Fld := ⟨0x48000 + 4 * k, 10, 6, 0⟩
def BWT_SRC_CFG_ENABLE (k : Nat) : Fld := ⟨0x48000 + 4 * k, 16, 1, 0⟩
def BWT_SRC_CFG_STATE (k : Nat) : Fld := ⟨0x48000 + 4 * k, 18, 2, 0⟩
def BWT_SRC_CFG_OWNER (k : Nat) : Fld := ⟨0x48000 + 4 * k, 20, 3, 0⟩
def HIF_CTRL_LOCK : Fld := ⟨0x50000, 0, 1, 0⟩
def HIF_CTRL_QUIESCE : Fld := ⟨0x50000, 1, 1, 0⟩
def HIF_STATUS_LINK_UP : Fld := ⟨0x50004, 0, 1, 0⟩
def HIF_STATUS_SPEED : Fld := ⟨0x50004, 1, 3, 0⟩
def HIF_STATUS_WIDTH : Fld := ⟨0x50004, 4, 4, 0⟩
def HIF_STATUS_DSTATE : Fld := ⟨0x50004, 8, 2, 0⟩
def HIF_STATUS_SRIS : Fld := ⟨0x50004, 10, 1, 0⟩
def HIF_STATUS_QUIESCED : Fld := ⟨0x50004, 11, 1, 0⟩
def HIF_CFG_HOP_LIMIT : Fld := ⟨0x50008, 0, 11, 0x40⟩
def HIF_CFG_RD_RETRY : Fld := ⟨0x50008, 11, 2, 1⟩
def HIF_CFG_CPL_WAIT_MS : Fld := ⟨0x50008, 13, 16, 0x3e8⟩
def HIF_APERTURE_BASE_GIB : Fld := ⟨0x5000c, 0, 5, 0⟩
def HIF_FAULT_HOST_MEM : Fld := ⟨0x50010, 0, 1, 0⟩
def HIF_FAULT_CHAIN : Fld := ⟨0x50010, 1, 1, 0⟩
def HIF_FAULT_CPL_LOST : Fld := ⟨0x50010, 2, 1, 0⟩
def HIF_FAULT_QUEUE_ERR : Fld := ⟨0x50010, 3, 1, 0⟩
def HIF_FAULT_AER_UNCORR : Fld := ⟨0x50010, 4, 1, 0⟩
def HIF_ERR_LOG0_QP : Fld := ⟨0x50014, 0, 6, 0⟩
def HIF_ERR_LOG0_KIND : Fld := ⟨0x50014, 6, 4, 0⟩
def HIF_ERR_LOG0_DETAIL : Fld := ⟨0x50014, 10, 8, 0⟩
def HIF_ERR_LOG0_OPCODE : Fld := ⟨0x50014, 18, 8, 0⟩
def HIF_ERR_LOG0_DRV : Fld := ⟨0x50014, 26, 1, 0⟩
def HIF_ERR_LOG1_CID : Fld := ⟨0x50018, 0, 16, 0⟩
def HIF_ERR_LOG1_HOPS : Fld := ⟨0x50018, 16, 16, 0⟩
def HIF_ERR_LOG2_ADDR_LO : Fld := ⟨0x5001c, 0, 32, 0⟩
def HIF_Q0_SQ_BASE_LO (k : Nat) : Fld := ⟨0x51000 + 0x40 * k, 0, 32, 0⟩
def HIF_Q1_SQ_BASE_HI (k : Nat) : Fld := ⟨0x51004 + 0x40 * k, 0, 32, 0⟩
def HIF_Q2_CQ_BASE_LO (k : Nat) : Fld := ⟨0x51008 + 0x40 * k, 0, 32, 0⟩
def HIF_Q3_CQ_BASE_HI (k : Nat) : Fld := ⟨0x5100c + 0x40 * k, 0, 32, 0⟩
def HIF_Q4_SQ_SIZE_M1 (k : Nat) : Fld := ⟨0x51010 + 0x40 * k, 0, 12, 0⟩
def HIF_Q4_CQ_SIZE_M1 (k : Nat) : Fld := ⟨0x51010 + 0x40 * k, 12, 12, 0⟩
def HIF_Q4_VECTOR (k : Nat) : Fld := ⟨0x51010 + 0x40 * k, 24, 6, 0⟩
def HIF_Q4_PRIO (k : Nat) : Fld := ⟨0x51010 + 0x40 * k, 30, 1, 0⟩
def HIF_Q4_ENABLE (k : Nat) : Fld := ⟨0x51010 + 0x40 * k, 31, 1, 0⟩
def HIF_Q5_SQ_HEAD (k : Nat) : Fld := ⟨0x51014 + 0x40 * k, 0, 12, 0⟩
def HIF_Q5_CQ_TAIL (k : Nat) : Fld := ⟨0x51014 + 0x40 * k, 12, 12, 0⟩
def HIF_Q5_STATE (k : Nat) : Fld := ⟨0x51014 + 0x40 * k, 24, 3, 0⟩
def HIF_Q5_ERROR (k : Nat) : Fld := ⟨0x51014 + 0x40 * k, 27, 2, 0⟩
def HIF_Q5_HELD (k : Nat) : Fld := ⟨0x51014 + 0x40 * k, 29, 1, 0⟩
def HIF_Q5_OVERFLOW (k : Nat) : Fld := ⟨0x51014 + 0x40 * k, 30, 1, 0⟩
def HIF_Q6_CPL_LOST (k : Nat) : Fld := ⟨0x51018 + 0x40 * k, 0, 16, 0⟩
def HIF_Q6_INFLIGHT (k : Nat) : Fld := ⟨0x51018 + 0x40 * k, 16, 16, 0⟩
def HIF_VEC_MOD_COUNT (k : Nat) : Fld := ⟨0x53200 + 4 * k, 0, 8, 1⟩
def HIF_VEC_MOD_TIME_US (k : Nat) : Fld := ⟨0x53200 + 4 * k, 8, 16, 0⟩
def HIF_CNT_CTRL_FREEZE : Fld := ⟨0x53180, 1, 1, 0⟩
def MSIX_ADDR_LO_ADDR (k : Nat) : Fld := ⟨0x52000 + 0x10 * k, 0, 32, 0⟩
def MSIX_ADDR_HI_ADDR (k : Nat) : Fld := ⟨0x52004 + 0x10 * k, 0, 32, 0⟩
def MSIX_DATA_DATA (k : Nat) : Fld := ⟨0x52008 + 0x10 * k, 0, 32, 0⟩
def MSIX_CTRL_MASK (k : Nat) : Fld := ⟨0x5200c + 0x10 * k, 0, 1, 1⟩
def RNG_CTRL_LOCK : Fld := ⟨0x60000, 0, 1, 0⟩
def RNG_STATUS_RING_OPEN : Fld := ⟨0x60004, 0, 1, 0⟩
def RNG_STATUS_PTP_UNLOCK : Fld := ⟨0x60004, 1, 1, 0⟩
def RNG_STATUS_LIVE_DROP : Fld := ⟨0x60004, 2, 1, 0⟩
def RNG_PORT_CFG_SPEED (k : Nat) : Fld := ⟨0x60010 + 4 * k, 0, 2, 0⟩
def RNG_PORT_CFG_FEC (k : Nat) : Fld := ⟨0x60010 + 4 * k, 2, 2, 0⟩
def RNG_PORT_CFG_OVERHEAD (k : Nat) : Fld := ⟨0x60010 + 4 * k, 4, 6, 0x14⟩
def RNG_PORT_STATUS_LINK_UP (k : Nat) : Fld := ⟨0x60018 + 4 * k, 0, 1, 0⟩
def RNG_PORT_STATUS_RATE_25G (k : Nat) : Fld := ⟨0x60018 + 4 * k, 1, 1, 0⟩
def RNG_PORT_STATUS_MOD_PRESENT (k : Nat) : Fld := ⟨0x60018 + 4 * k, 2, 1, 0⟩
def RNG_PORT_STATUS_LINK_LATE (k : Nat) : Fld := ⟨0x60018 + 4 * k, 3, 1, 0⟩
def RNG_PORT_STATUS_LINK_FAIL (k : Nat) : Fld := ⟨0x60018 + 4 * k, 4, 1, 0⟩
def RNG_BYPASS_CFG_INSERT_SLOT : Fld := ⟨0x60020, 0, 8, 0⟩
def RNG_BYPASS_CFG_RING_NODES : Fld := ⟨0x60020, 8, 8, 0⟩
def RNG_BYPASS_CFG_SLOT_100MS : Fld := ⟨0x60020, 16, 8, 5⟩
def RNG_BYPASS_CFG_CHECK_100MS : Fld := ⟨0x60020, 24, 8, 0x3c⟩
def RNG_BYPASS_CTRL_FORCE_BYPASS : Fld := ⟨0x60024, 0, 1, 0⟩
def RNG_BYPASS_CTRL_SUP_INTERVAL_MS : Fld := ⟨0x60024, 1, 15, 0x7d0⟩
def RNG_BYPASS_CTRL_LINK_WAIT_10MS : Fld := ⟨0x60024, 16, 8, 0x64⟩
def RNG_BYPASS_CTRL_WITHDRAW_WAIT_S : Fld := ⟨0x60024, 24, 8, 0xa⟩
def RNG_BYPASS_STATUS_STATE : Fld := ⟨0x60028, 0, 4, 0⟩
def RNG_BYPASS_STATUS_POSITION : Fld := ⟨0x60028, 4, 2, 0⟩
def RNG_BYPASS_STATUS_SOURCES : Fld := ⟨0x60028, 6, 8, 0⟩
def RNG_BYPASS_STATUS_ONE_WAY : Fld := ⟨0x60028, 14, 1, 0⟩
def RNG_PTP_CFG_DOMAIN : Fld := ⟨0x60040, 0, 8, 0x7f⟩
def RNG_PTP_CFG_PRIORITY1 : Fld := ⟨0x60040, 8, 8, 0x80⟩
def RNG_PTP_CFG_PRIORITY2 : Fld := ⟨0x60040, 16, 8, 0x80⟩
def RNG_PTP_CFG_MASTER_CAPABLE : Fld := ⟨0x60040, 24, 1, 0⟩
def RNG_PTP_STATUS_LOCKED : Fld := ⟨0x60044, 0, 1, 0⟩
def RNG_PTP_STATUS_GRANDMASTER : Fld := ⟨0x60044, 1, 1, 0⟩
def RNG_PTP_STATUS_PATH : Fld := ⟨0x60044, 2, 1, 0⟩
def RNG_PTP_STATUS_PPS_IN_NS : Fld := ⟨0x60044, 3, 29, 0⟩
def RNG_PTP_OFFSET_OFFSET_NS : Fld := ⟨0x60048, 0, 32, 0⟩
def RNG_NODE_MAC_LO_MAC_LO : Fld := ⟨0x60030, 0, 32, 0⟩
def RNG_NODE_MAC_HI_MAC_HI : Fld := ⟨0x60034, 0, 16, 0⟩
def RNG_NODE_MAC_HI_VLAN : Fld := ⟨0x60034, 16, 12, 0⟩
def RNG_NODE_IP_IPV4 : Fld := ⟨0x60038, 0, 32, 0⟩
def RNG_MGMT_CFG_MGMT_EN : Fld := ⟨0x60050, 0, 1, 0⟩
def RNG_MGMT_CFG_MGMT_QP : Fld := ⟨0x60050, 1, 6, 0x3f⟩
def RNG_MGMT_CFG_MGMT_KEY_SLOT : Fld := ⟨0x60050, 7, 2, 0⟩
def RNG_MGMT_CFG_MGMT_PORT : Fld := ⟨0x60050, 16, 16, 0xb7fc⟩
def RNG_SAMPLE_SAMPLE_MS : Fld := ⟨0x60060, 0, 10, 1⟩
def RNG_SAMPLE_REORDER_PKTS : Fld := ⟨0x60060, 10, 4, 4⟩
def RNG_SAMPLE_REORDER_US : Fld := ⟨0x60060, 14, 10, 0x64⟩
def RNG_FLOW0_VLAN (k : Nat) : Fld := ⟨0x61000 + 0x20 * k, 0, 12, 0⟩
def RNG_FLOW0_KIND (k : Nat) : Fld := ⟨0x61000 + 0x20 * k, 12, 2, 0⟩
def RNG_FLOW0_PLI_ON_LOSS (k : Nat) : Fld := ⟨0x61000 + 0x20 * k, 14, 1, 0⟩
def RNG_FLOW0_UDP_PORT (k : Nat) : Fld := ⟨0x61000 + 0x20 * k, 16, 16, 0⟩
def RNG_FLOW1_DST_IPV4 (k : Nat) : Fld := ⟨0x61004 + 0x20 * k, 0, 32, 0⟩
def RNG_FLOW2_SID (k : Nat) : Fld := ⟨0x61008 + 0x20 * k, 0, 9, 0⟩
def RNG_FLOW2_RENDITION (k : Nat) : Fld := ⟨0x61008 + 0x20 * k, 9, 2, 0⟩
def RNG_FLOW2_OWNER (k : Nat) : Fld := ⟨0x61008 + 0x20 * k, 11, 10, 0⟩
def RNG_FLOW3_CIR_KBPS (k : Nat) : Fld := ⟨0x6100c + 0x20 * k, 0, 25, 0⟩
def RNG_FLOW4_CBS (k : Nat) : Fld := ⟨0x61010 + 0x20 * k, 0, 20, 0⟩
def RNG_FLOW5_POLICED (k : Nat) : Fld := ⟨0x61014 + 0x20 * k, 0, 32, 0⟩
def RNG_FLOW6_LOST (k : Nat) : Fld := ⟨0x61018 + 0x20 * k, 0, 32, 0⟩
def RNG_TXQ_CFG0_RATE_KBPS (k : Nat) : Fld := ⟨0x66000 + 8 * k, 0, 25, 0⟩
def RNG_TXQ_CFG0_CLASS (k : Nat) : Fld := ⟨0x66000 + 8 * k, 25, 2, 3⟩
def RNG_TXQ_CFG1_QUEUE_PKTS (k : Nat) : Fld := ⟨0x66004 + 8 * k, 0, 13, 0x40⟩
def RNG_TXQ_CFG1_DROP_AGE_100US (k : Nat) : Fld := ⟨0x66004 + 8 * k, 13, 16, 0x1f4⟩
def RNG_TXQ_SAMPLE0_DEPTH_PKTS (k : Nat) : Fld := ⟨0x67000 + 8 * k, 0, 13, 0⟩
def RNG_TXQ_SAMPLE0_HEAD_AGE_US (k : Nat) : Fld := ⟨0x67000 + 8 * k, 13, 19, 0⟩
def RNG_TXQ_SAMPLE1_MAX_AGE_US (k : Nat) : Fld := ⟨0x67004 + 8 * k, 0, 19, 0⟩
def RNG_CNT_CTRL_FREEZE : Fld := ⟨0x68300, 1, 1, 0⟩
def COP_CTRL_LOCK : Fld := ⟨0x70000, 0, 1, 0⟩
def COP_STATUS_CFG_ERR : Fld := ⟨0x70004, 0, 1, 0⟩
def COP_STATUS_READY : Fld := ⟨0x70004, 1, 1, 0⟩
def COP_STATUS_LIVE_WAIT : Fld := ⟨0x70004, 2, 1, 0⟩
def COP_STATUS_BAD_FREE : Fld := ⟨0x70004, 3, 1, 0⟩
def COP_POOL0_BASE_LO (k : Nat) : Fld := ⟨0x70100 + 0x20 * k, 12, 20, 0⟩
def COP_POOL1_BASE_HI (k : Nat) : Fld := ⟨0x70104 + 0x20 * k, 0, 3, 0⟩
def COP_POOL2_COUNT (k : Nat) : Fld := ⟨0x70108 + 0x20 * k, 0, 19, 0⟩
def COP_POOL3_FREE (k : Nat) : Fld := ⟨0x7010c + 0x20 * k, 0, 19, 0⟩
def COP_POOL4_SHARED_FREE (k : Nat) : Fld := ⟨0x70110 + 0x20 * k, 0, 19, 0⟩
def COP_POOL5_WAITING (k : Nat) : Fld := ⟨0x70114 + 0x20 * k, 0, 16, 0⟩
def COP_POOL6_PEAK_HELD (k : Nat) : Fld := ⟨0x70118 + 0x20 * k, 0, 19, 0⟩
def COP_OWNER_LIMIT_MIN (o : Nat) (p : Nat) : Fld := ⟨0x74000 + 32 * o + 4 * p, 0, 16, 0⟩
def COP_OWNER_LIMIT_MAX (o : Nat) (p : Nat) : Fld := ⟨0x74000 + 32 * o + 4 * p, 16, 16, 0⟩
def COP_OWNER_HELD3_LIVE (k : Nat) : Fld := ⟨0x7c00c + 0x10 * k, 0, 1, 0⟩
def COP_CNT_CTRL_FREEZE : Fld := ⟨0x70280, 1, 1, 0⟩
def DRV_SRC_LO_ADDR (k : Nat) : Fld := ⟨0x80100 + 0x40 * k, 0, 32, 0⟩
def DRV_SRC_HI_ADDR (k : Nat) : Fld := ⟨0x80104 + 0x40 * k, 0, 32, 0⟩
def DRV_DST_LO_ADDR (k : Nat) : Fld := ⟨0x80108 + 0x40 * k, 0, 32, 0⟩
def DRV_DST_HI_ADDR (k : Nat) : Fld := ⟨0x8010c + 0x40 * k, 0, 32, 0⟩
def DRV_LEN_BYTES (k : Nat) : Fld := ⟨0x80110 + 0x40 * k, 0, 32, 0⟩
def DRV_FILL_PATTERN (k : Nat) : Fld := ⟨0x80114 + 0x40 * k, 0, 32, 0⟩
def DRV_CFG_MODE (k : Nat) : Fld := ⟨0x80118 + 0x40 * k, 0, 2, 0⟩
def DRV_CFG_SRC_HOST (k : Nat) : Fld := ⟨0x80118 + 0x40 * k, 2, 1, 0⟩
def DRV_CFG_DST_HOST (k : Nat) : Fld := ⟨0x80118 + 0x40 * k, 3, 1, 0⟩
def DRV_CFG_CLASS (k : Nat) : Fld := ⟨0x80118 + 0x40 * k, 4, 2, 2⟩
def DRV_CFG_LIVE (k : Nat) : Fld := ⟨0x80118 + 0x40 * k, 6, 1, 0⟩
def DRV_CMD_START (k : Nat) : Fld := ⟨0x8011c + 0x40 * k, 0, 1, 0⟩
def DRV_CMD_ABORT (k : Nat) : Fld := ⟨0x8011c + 0x40 * k, 1, 1, 0⟩
def DRV_STATUS_BUSY (k : Nat) : Fld := ⟨0x80120 + 0x40 * k, 0, 1, 0⟩
def DRV_STATUS_WAIT_LEDGER (k : Nat) : Fld := ⟨0x80120 + 0x40 * k, 1, 1, 0⟩
def DRV_STATUS_DESCENDING (k : Nat) : Fld := ⟨0x80120 + 0x40 * k, 2, 1, 0⟩
def DRV_STATUS_STATUS (k : Nat) : Fld := ⟨0x80120 + 0x40 * k, 3, 8, 0⟩
def DRV_STATUS_MISMATCH (k : Nat) : Fld := ⟨0x80120 + 0x40 * k, 11, 1, 0⟩
def DRV_STATUS_POISON (k : Nat) : Fld := ⟨0x80120 + 0x40 * k, 12, 1, 0⟩
def DRV_STATUS_ABORTED (k : Nat) : Fld := ⟨0x80120 + 0x40 * k, 13, 1, 0⟩
def DRV_STATUS_WRITE_IGNORED (k : Nat) : Fld := ⟨0x80120 + 0x40 * k, 14, 1, 0⟩
def DRV_DONE_BYTES (k : Nat) : Fld := ⟨0x80124 + 0x40 * k, 0, 32, 0⟩
def DRV_FIRST_OFF_OFFSET (k : Nat) : Fld := ⟨0x80128 + 0x40 * k, 0, 32, 0xffffffff⟩
def DRV_JOBS_COUNT (k : Nat) : Fld := ⟨0x8012c + 0x40 * k, 0, 32, 0⟩
def DMC_CTRL_LOCK : Fld := ⟨0x90000, 0, 1, 0⟩
def DMC_CFG_CHANNELS : Fld := ⟨0x90004, 0, 5, 0x10⟩
def DMC_CFG_GRANULE_KIB : Fld := ⟨0x90004, 5, 11, 0x700⟩
def DMC_CFG_MTS : Fld := ⟨0x90004, 16, 16, 0x1290⟩
def DMC_STATUS_CFG_ERR : Fld := ⟨0x90008, 0, 1, 0⟩
def DMC_STATUS_TRAINED : Fld := ⟨0x90008, 1, 1, 0⟩
def DMC_STATUS_WIPE_BUSY : Fld := ⟨0x90008, 2, 1, 0⟩
def DMC_STATUS_OVERTEMP : Fld := ⟨0x90008, 3, 1, 0⟩
def DMC_STATUS_RETRAIN_DUE : Fld := ⟨0x90008, 4, 1, 0⟩
def DMC_REGION_BASE (k : Nat) : Fld := ⟨0x90010 + 4 * k, 0, 10, 0⟩
def DMC_REGION_COUNT (k : Nat) : Fld := ⟨0x90010 + 4 * k, 10, 11, if k = 0 then 1024 else 0⟩
def DMC_REGION_ORDER (k : Nat) : Fld := ⟨0x90010 + 4 * k, 21, 2, 0⟩
def DMC_AGE_LIMIT_NS (k : Nat) : Fld := ⟨0x90030 + 4 * k, 0, 16, [2000, 8000, 32000].getD k 0⟩
def DMC_ECC_CTRL_RETRIES : Fld := ⟨0x90040, 0, 2, 2⟩
def DMC_ECC_CTRL_PPR_THRESH : Fld := ⟨0x90040, 2, 6, 4⟩
def DMC_ECC_CTRL_CE_THRESH : Fld := ⟨0x90040, 8, 8, 0x40⟩
def DMC_ECC_CTRL_SOFT_EN : Fld := ⟨0x90040, 16, 1, 1⟩
def DMC_SCRUB_EN : Fld := ⟨0x90044, 0, 1, 1⟩
def DMC_SCRUB_PERIOD_H : Fld := ⟨0x90044, 1, 8, 0x18⟩
def DMC_SCRUB_STATUS_PASSES : Fld := ⟨0x90048, 0, 16, 0⟩
def DMC_SCRUB_STATUS_PERCENT : Fld := ⟨0x90048, 16, 7, 0⟩
def DMC_FAULT_CE_THRESH : Fld := ⟨0x9004c, 0, 16, 0⟩
def DMC_FAULT_UE : Fld := ⟨0x9004c, 16, 4, 0⟩
def DMC_FAULT_PPR_EXHAUSTED : Fld := ⟨0x9004c, 20, 4, 0⟩
def DMC_FAULT_TRAIN_FAIL : Fld := ⟨0x9004c, 24, 4, 0⟩
def DMC_FAULT_DRIFT : Fld := ⟨0x9004c, 28, 4, 0⟩
def DMC_ERR_LOG0_CHANNEL : Fld := ⟨0x90050, 0, 4, 0⟩
def DMC_ERR_LOG0_BANK : Fld := ⟨0x90050, 4, 4, 0⟩
def DMC_ERR_LOG0_ROW : Fld := ⟨0x90050, 8, 16, 0⟩
def DMC_ERR_LOG0_SLOT : Fld := ⟨0x90050, 24, 5, 0⟩
def DMC_ERR_LOG0_TYPE : Fld := ⟨0x90050, 29, 2, 0⟩
def DMC_ERR_LOG1_PORT : Fld := ⟨0x90054, 0, 4, 0⟩
def DMC_ERR_LOG1_TAG : Fld := ⟨0x90054, 4, 10, 0⟩
def DMC_ERR_LOG1_TIME_MS : Fld := ⟨0x90054, 14, 18, 0⟩
def DMC_PPR_SEL_CHANNEL : Fld := ⟨0x900f0, 0, 4, 0⟩
def DMC_PPR_SEL_OVERFLOW : Fld := ⟨0x900f0, 8, 8, 0⟩
def DMC_PPR_SEL_LISTED : Fld := ⟨0x900f0, 16, 5, 0⟩
def DMC_CH_STATE_TEMP (k : Nat) : Fld := ⟨0x90200 + 4 * k, 0, 9, 0⟩
def DMC_CH_STATE_MULT (k : Nat) : Fld := ⟨0x90200 + 4 * k, 9, 2, 0⟩
def DMC_CH_STATE_TRAINED (k : Nat) : Fld := ⟨0x90200 + 4 * k, 11, 1, 0⟩
def DMC_CH_STATE_RETRAIN_DUE (k : Nat) : Fld := ⟨0x90200 + 4 * k, 12, 1, 0⟩
def DMC_CH_STATE_DRIFT (k : Nat) : Fld := ⟨0x90200 + 4 * k, 13, 8, 0⟩
def DMC_BW_DGB (k : Nat) : Fld := ⟨0x90300 + 4 * k, 0, 16, 0⟩
def DMC_CNT_CTRL_FREEZE : Fld := ⟨0x90480, 1, 1, 0⟩
def INL_ID_INDEX (i : Nat) : Fld := ⟨0xa0000 + 0x10000 * i, 0, 1, i⟩
def INL_ID_STEP (i : Nat) : Fld := ⟨0xa0000 + 0x10000 * i, 8, 8, 1⟩
def INL_CTRL_LOCK (i : Nat) : Fld := ⟨0xa0004 + 0x10000 * i, 0, 1, 0⟩
def INL_COMMIT_TIMEOUT_MS (i : Nat) : Fld := ⟨0xa0018 + 0x10000 * i, 0, 16, 0x64⟩
def INL_FAULT_LINEBUF (i : Nat) : Fld := ⟨0xa001c + 0x10000 * i, 0, 1, 0⟩
def INL_FAULT_FENCE_TIMEOUT (i : Nat) : Fld := ⟨0xa001c + 0x10000 * i, 1, 1, 0⟩
def INL_FAULT_BAND_LATE (i : Nat) : Fld := ⟨0xa001c + 0x10000 * i, 2, 1, 0⟩
def INL_FAULT_DROPPED (i : Nat) : Fld := ⟨0xa001c + 0x10000 * i, 3, 1, 0⟩
def INL_FAULT_POISON (i : Nat) : Fld := ⟨0xa001c + 0x10000 * i, 4, 1, 0⟩
def INL_CV_MASK_LO_MASK (i : Nat) : Fld := ⟨0xa0008 + 0x10000 * i, 0, 32, 0⟩
def INL_CV_MASK_HI_MASK (i : Nat) : Fld := ⟨0xa000c + 0x10000 * i, 0, 32, 0⟩
def INL_LB_POOL_BYTES (i : Nat) : Fld := ⟨0xa0010 + 0x10000 * i, 0, 20, 0xc0000⟩
def INL_LB_USED_BYTES (i : Nat) : Fld := ⟨0xa0014 + 0x10000 * i, 0, 20, 0⟩
def INL_CV_STATE_ACTIVE (i : Nat) (k : Nat) : Fld := ⟨0xa0100 + 0x10000 * i + 4 * k, 0, 1, 0⟩
def INL_CV_STATE_OVERRIDDEN (i : Nat) (k : Nat) : Fld := ⟨0xa0100 + 0x10000 * i + 4 * k, 1, 1, 0⟩
def INL_CV_STATE_STALE (i : Nat) (k : Nat) : Fld := ⟨0xa0100 + 0x10000 * i + 4 * k, 2, 1, 0⟩
def INL_CV_STATE_HELD (i : Nat) (k : Nat) : Fld := ⟨0xa0100 + 0x10000 * i + 4 * k, 3, 1, 0⟩
def INL_CV_STATE_QUEUED (i : Nat) (k : Nat) : Fld := ⟨0xa0100 + 0x10000 * i + 4 * k, 4, 4, 0⟩
def INL_CV_STATE_PIC_SEQ (i : Nat) (k : Nat) : Fld := ⟨0xa0100 + 0x10000 * i + 4 * k, 8, 16, 0⟩
def INL_CNT_CTRL_FREEZE (i : Nat) : Fld := ⟨0xa0280 + 0x10000 * i, 1, 1, 0⟩
def INL_CSC_VALUE (i : Nat) (s : Nat) (k : Nat) : Fld := ⟨0xa0400 + 0x10000 * i + 0x40 * s + 4 * k, 0, 16, 0⟩
def INL_SCL_COEF_COEF (i : Nat) (k : Nat) : Fld := ⟨0xa2000 + 0x10000 * i + 4 * k, 0, 10, 0⟩
def INL_OVR_CTRL_SET : Fld := ⟨0xa0020, 0, 3, 0⟩
def INL_OVR_CTRL_TRIGGER : Fld := ⟨0xa0020, 3, 1, 0⟩
def INL_OVR_CTRL_RELEASE : Fld := ⟨0xa0020, 4, 1, 0⟩
def INL_OVR_CTRL_GPIO_EN : Fld := ⟨0xa0020, 5, 1, 0⟩
def INL_OVR_CTRL_GPIO_SEL : Fld := ⟨0xa0020, 6, 4, 0⟩
def INL_OVR_CTRL_GPIO_SET : Fld := ⟨0xa0020, 10, 3, 0⟩
def INL_OVR_CTRL_GPIO_RELEASE : Fld := ⟨0xa0020, 13, 1, 0⟩
def INL_OVR_STATUS_ACTIVE : Fld := ⟨0xa0024, 0, 1, 0⟩
def INL_OVR_STATUS_ACTIVE_SET : Fld := ⟨0xa0024, 1, 3, 0⟩
def INL_OVR_STATUS_SOURCE : Fld := ⟨0xa0024, 4, 2, 0⟩
def INL_OVR_STATUS_SWITCHING : Fld := ⟨0xa0024, 6, 1, 0⟩
def DP_CTRL_ENABLE (k : Nat) : Fld := ⟨0xa8000 + 0x400 * k, 0, 1, 0⟩
def DP_CTRL_DITHER (k : Nat) : Fld := ⟨0xa8000 + 0x400 * k, 1, 1, 1⟩
def DP_CTRL_CSC (k : Nat) : Fld := ⟨0xa8000 + 0x400 * k, 2, 4, 0⟩
def DP_CTRL_ENCODING (k : Nat) : Fld := ⟨0xa8000 + 0x400 * k, 6, 2, 0⟩
def DP_CTRL_DEPTH (k : Nat) : Fld := ⟨0xa8000 + 0x400 * k, 8, 2, 1⟩
def DP_CTRL_DSC_EN (k : Nat) : Fld := ⟨0xa8000 + 0x400 * k, 10, 1, 0⟩
def DP_CTRL_DSC_BPP_X16 (k : Nat) : Fld := ⟨0xa8000 + 0x400 * k, 11, 9, 0xc0⟩
def DP_CTRL_DSC_SLICES_M1 (k : Nat) : Fld := ⟨0xa8000 + 0x400 * k, 20, 3, 3⟩
def DP_CTRL_MAX_RATE (k : Nat) : Fld := ⟨0xa8000 + 0x400 * k, 23, 3, 4⟩
def DP_CTRL_MAX_LANES (k : Nat) : Fld := ⟨0xa8000 + 0x400 * k, 26, 2, 2⟩
def DP_STATUS_HPD (k : Nat) : Fld := ⟨0xa8004 + 0x400 * k, 0, 1, 0⟩
def DP_STATUS_LINK_UP (k : Nat) : Fld := ⟨0xa8004 + 0x400 * k, 1, 1, 0⟩
def DP_STATUS_RATE (k : Nat) : Fld := ⟨0xa8004 + 0x400 * k, 2, 3, 0⟩
def DP_STATUS_LANES (k : Nat) : Fld := ⟨0xa8004 + 0x400 * k, 5, 2, 0⟩
def DP_STATUS_GENLOCKED (k : Nat) : Fld := ⟨0xa8004 + 0x400 * k, 7, 1, 0⟩
def DP_STATUS_MODE_REFUSED (k : Nat) : Fld := ⟨0xa8004 + 0x400 * k, 8, 1, 0⟩
def DP_STATUS_LINK_FAIL (k : Nat) : Fld := ⟨0xa8004 + 0x400 * k, 9, 1, 0⟩
def DP_GENLOCK_ERR_NS (k : Nat) : Fld := ⟨0xa8008 + 0x400 * k, 0, 32, 0⟩
def DP_MVID_MVID (k : Nat) : Fld := ⟨0xa800c + 0x400 * k, 0, 24, 0⟩
def DP_NVID_NVID (k : Nat) : Fld := ⟨0xa8010 + 0x400 * k, 0, 24, 0⟩
def DP_HTIMING0_HTOTAL (k : Nat) : Fld := ⟨0xa8020 + 0x400 * k, 0, 14, 0⟩
def DP_HTIMING0_HSYNC_START (k : Nat) : Fld := ⟨0xa8020 + 0x400 * k, 16, 14, 0⟩
def DP_HTIMING1_HSYNC_WIDTH (k : Nat) : Fld := ⟨0xa8024 + 0x400 * k, 0, 12, 0⟩
def DP_HTIMING1_HSYNC_POL (k : Nat) : Fld := ⟨0xa8024 + 0x400 * k, 12, 1, 0⟩
def DP_VTIMING_VSYNC_START (k : Nat) : Fld := ⟨0xa8028 + 0x400 * k, 0, 14, 0⟩
def DP_VTIMING_VSYNC_WIDTH (k : Nat) : Fld := ⟨0xa8028 + 0x400 * k, 16, 8, 0⟩
def DP_VTIMING_VSYNC_POL (k : Nat) : Fld := ⟨0xa8028 + 0x400 * k, 24, 1, 0⟩
def LTH_ID_INDEX (n : Nat) : Fld := ⟨0x100000 + 0x10000 * n, 0, 5, n⟩
def LTH_ID_STEP (n : Nat) : Fld := ⟨0x100000 + 0x10000 * n, 8, 8, 1⟩
def LTH_ROLE_ROLE (n : Nat) : Fld := ⟨0x100004 + 0x10000 * n, 0, 2, 0⟩
def LTH_CTRL_DRAIN (n : Nat) : Fld := ⟨0x100008 + 0x10000 * n, 0, 1, 0⟩
def LTH_CTRL_DIRECT_TQ (n : Nat) : Fld := ⟨0x100008 + 0x10000 * n, 1, 1, 0⟩
def LTH_CTRL_LOCK (n : Nat) : Fld := ⟨0x100008 + 0x10000 * n, 2, 1, 0⟩
def LTH_STATUS_MODE (n : Nat) : Fld := ⟨0x10000c + 0x10000 * n, 0, 2, 0⟩
def LTH_STATUS_BUSY (n : Nat) : Fld := ⟨0x10000c + 0x10000 * n, 2, 1, 0⟩
def LTH_STATUS_DRAINED (n : Nat) : Fld := ⟨0x10000c + 0x10000 * n, 3, 1, 0⟩
def LTH_STATUS_WAIT_DEP (n : Nat) : Fld := ⟨0x10000c + 0x10000 * n, 4, 1, 0⟩
def LTH_STATUS_PARSE_AHEAD (n : Nat) : Fld := ⟨0x10000c + 0x10000 * n, 5, 1, 0⟩
def LTH_STATUS_SID (n : Nat) : Fld := ⟨0x10000c + 0x10000 * n, 8, 9, 0⟩
def LTH_STATUS_LANE (n : Nat) : Fld := ⟨0x10000c + 0x10000 * n, 17, 3, 0⟩
def LTH_STATUS_SPAN_M1 (n : Nat) : Fld := ⟨0x10000c + 0x10000 * n, 20, 3, 0⟩
def LTH_TQ_DEPTH (n : Nat) : Fld := ⟨0x100010 + 0x10000 * n, 0, 7, 0⟩
def LTH_TQ_FULL (n : Nat) : Fld := ⟨0x100010 + 0x10000 * n, 7, 1, 0⟩
def LTH_TQ_PEAK (n : Nat) : Fld := ⟨0x100010 + 0x10000 * n, 8, 7, 0⟩
def LTH_TASK_LIMIT_LIMIT_KCYC (n : Nat) : Fld := ⟨0x100014 + 0x10000 * n, 0, 16, 0x4000⟩
def LTH_FAULT_TASK_TIMEOUT (n : Nat) : Fld := ⟨0x100018 + 0x10000 * n, 0, 1, 0⟩
def LTH_FAULT_PIPE_PARITY (n : Nat) : Fld := ⟨0x100018 + 0x10000 * n, 1, 1, 0⟩
def LTH_FAULT_DESC_BAD (n : Nat) : Fld := ⟨0x100018 + 0x10000 * n, 2, 1, 0⟩
def LTH_FAULT_VERSION (n : Nat) : Fld := ⟨0x100018 + 0x10000 * n, 3, 1, 0⟩
def LTH_FAULT_PUSH_REFUSED (n : Nat) : Fld := ⟨0x100018 + 0x10000 * n, 4, 1, 0⟩
def LTH_CNT_CTRL_FREEZE (n : Nat) : Fld := ⟨0x100180 + 0x10000 * n, 1, 1, 0⟩
def LTH_BSQ_LEVEL_UNREAD (n : Nat) : Fld := ⟨0x100200 + 0x10000 * n, 0, 15, 0⟩
def LTH_BSQ_LEVEL_OCCUPIED (n : Nat) : Fld := ⟨0x100200 + 0x10000 * n, 16, 15, 0⟩
def LTH_BSQ_STATE_DISCARDING (n : Nat) : Fld := ⟨0x100204 + 0x10000 * n, 0, 1, 0⟩
def LTH_BSQ_STATE_GAP_WRITTEN (n : Nat) : Fld := ⟨0x100204 + 0x10000 * n, 1, 1, 0⟩
def LTH_BSQ_STATE_FLUSH_PENDING (n : Nat) : Fld := ⟨0x100204 + 0x10000 * n, 2, 1, 0⟩
def LTH_BSQ_STATE_HOLDING (n : Nat) : Fld := ⟨0x100204 + 0x10000 * n, 3, 1, 0⟩
def LTH_BSQ_STATE_FEEDER_STALLED (n : Nat) : Fld := ⟨0x100204 + 0x10000 * n, 4, 1, 0⟩
def LTH_BSQ_CTRL_FLUSH (n : Nat) : Fld := ⟨0x100208 + 0x10000 * n, 0, 1, 0⟩
def LTH_BSQ_STALL_LIMIT_LIMIT_CYC (n : Nat) : Fld := ⟨0x10020c + 0x10000 * n, 0, 16, 0x4000⟩
def LTH_BSQ_FAULT_PARITY (n : Nat) : Fld := ⟨0x100210 + 0x10000 * n, 0, 1, 0⟩
def LTH_DEC_ERR0_CODE (n : Nat) : Fld := ⟨0x100280 + 0x10000 * n, 0, 8, 0⟩
def LTH_DEC_ERR0_SID (n : Nat) : Fld := ⟨0x100280 + 0x10000 * n, 8, 9, 0⟩
def LTH_DEC_ERR0_ROW (n : Nat) : Fld := ⟨0x100280 + 0x10000 * n, 17, 9, 0⟩
def LTH_DEC_ERR1_PIC_SEQ (n : Nat) : Fld := ⟨0x100284 + 0x10000 * n, 0, 16, 0⟩
def LTH_DEC_ERR1_BLOCK (n : Nat) : Fld := ⟨0x100284 + 0x10000 * n, 16, 16, 0⟩
def SPN_STATUS_STATE (n : Nat) : Fld := ⟨0x108000 + 0x10000 * n, 0, 3, 0⟩
def SPN_STATUS_LOADED_FROM (n : Nat) : Fld := ⟨0x108000 + 0x10000 * n, 3, 1, 0⟩
def SPN_STATUS_SLOTS_VALID (n : Nat) : Fld := ⟨0x108000 + 0x10000 * n, 4, 4, 0⟩
def SPN_STATUS_RETRIED (n : Nat) : Fld := ⟨0x108000 + 0x10000 * n, 8, 1, 0⟩
def SPN_CTRL_LOCK (n : Nat) : Fld := ⟨0x108004 + 0x10000 * n, 0, 1, 0⟩
def SPN_CTRL_RELOAD (n : Nat) : Fld := ⟨0x108004 + 0x10000 * n, 1, 1, 0⟩
def SPN_SRC_SEL (n : Nat) : Fld := ⟨0x108008 + 0x10000 * n, 0, 1, 0⟩
def SPN_RERUN_LIMIT_LIMIT (n : Nat) : Fld := ⟨0x10800c + 0x10000 * n, 0, 4, 4⟩
def SPN_FAULT_CS_CORR (n : Nat) : Fld := ⟨0x108038 + 0x10000 * n, 0, 1, 0⟩
def SPN_FAULT_CS_UNCORR (n : Nat) : Fld := ⟨0x108038 + 0x10000 * n, 1, 1, 0⟩
def SPN_FAULT_CS_HARD (n : Nat) : Fld := ⟨0x108038 + 0x10000 * n, 2, 1, 0⟩
def SPN_FAULT_LOAD_FAIL (n : Nat) : Fld := ⟨0x108038 + 0x10000 * n, 3, 1, 0⟩
def SPN_FAULT_RERUN_EXHAUSTED (n : Nat) : Fld := ⟨0x108038 + 0x10000 * n, 4, 1, 0⟩
def SPN_FAULT_NO_ENTRY (n : Nat) : Fld := ⟨0x108038 + 0x10000 * n, 5, 1, 0⟩
def SPN_FAULT_LOAD_RETRIED (n : Nat) : Fld := ⟨0x108038 + 0x10000 * n, 6, 1, 0⟩
def SPN_ERR_ADDR_ADDR (n : Nat) : Fld := ⟨0x10803c + 0x10000 * n, 0, 13, 0⟩
def SPN_ERR_ADDR_UNCORR (n : Nat) : Fld := ⟨0x10803c + 0x10000 * n, 13, 1, 0⟩
def SPN_LAST_RERUN_CAUSE (n : Nat) : Fld := ⟨0x108040 + 0x10000 * n, 0, 3, 0⟩
def SPN_LAST_RERUN_OPCODE (n : Nat) : Fld := ⟨0x108040 + 0x10000 * n, 3, 8, 0⟩
def SPN_LAST_RERUN_PC (n : Nat) : Fld := ⟨0x108040 + 0x10000 * n, 11, 12, 0⟩
def SPN_TRACE_CTRL_EN (n : Nat) : Fld := ⟨0x108044 + 0x10000 * n, 0, 1, 0⟩
def SPN_TRACE_CTRL_FREEZE_ON_FAULT (n : Nat) : Fld := ⟨0x108044 + 0x10000 * n, 1, 1, 0⟩
def SPN_TRACE_CTRL_WR_PTR (n : Nat) : Fld := ⟨0x108044 + 0x10000 * n, 2, 8, 0⟩
def SPN_TRACE_CTRL_WRAPPED (n : Nat) : Fld := ⟨0x108044 + 0x10000 * n, 10, 1, 0⟩
def SPN_TRACE_CTRL_BREAK_EN (n : Nat) : Fld := ⟨0x108044 + 0x10000 * n, 11, 1, 0⟩
def SPN_TRACE_CTRL_BREAK_PC (n : Nat) : Fld := ⟨0x108044 + 0x10000 * n, 12, 12, 0⟩
def SPN_BUILD_BUILD (n : Nat) : Fld := ⟨0x108010 + 0x10000 * n, 0, 32, 0⟩
def SPN_SECVER_SECVER (n : Nat) : Fld := ⟨0x108014 + 0x10000 * n, 0, 32, 0⟩
def SPN_BASE_ID_BASE_ID (n : Nat) : Fld := ⟨0x108018 + 0x10000 * n, 0, 32, 0⟩
def SPN_VSLOT_VERSION (n : Nat) (k : Nat) : Fld := ⟨0x108020 + 0x10000 * n + 4 * k, 0, 8, 0⟩
def SPN_VSLOT_VALID (n : Nat) (k : Nat) : Fld := ⟨0x108020 + 0x10000 * n + 4 * k, 8, 1, 0⟩
def SPN_VSLOT_WORDS (n : Nat) (k : Nat) : Fld := ⟨0x108020 + 0x10000 * n + 4 * k, 9, 12, 0⟩
def SPN_CRC_LO_CRC_LO (n : Nat) : Fld := ⟨0x108030 + 0x10000 * n, 0, 32, 0⟩
def SPN_CRC_HI_CRC_HI (n : Nat) : Fld := ⟨0x108034 + 0x10000 * n, 0, 32, 0⟩
def SPN_CS_ADDR_ADDR (n : Nat) : Fld := ⟨0x108048 + 0x10000 * n, 0, 13, 0⟩
def SPN_MC0_LO_ADDR (n : Nat) : Fld := ⟨0x108070 + 0x10000 * n, 0, 32, 0⟩
def SPN_MC0_HI_ADDR (n : Nat) : Fld := ⟨0x108074 + 0x10000 * n, 0, 32, 0⟩
def SPN_MC1_LO_ADDR (n : Nat) : Fld := ⟨0x108078 + 0x10000 * n, 0, 32, 0⟩
def SPN_MC1_HI_ADDR (n : Nat) : Fld := ⟨0x10807c + 0x10000 * n, 0, 32, 0⟩
def LGR_CTRL_LOCK : Fld := ⟨0x400000, 0, 1, 0⟩
def LGR_MIN_MIN (k : Nat) : Fld := ⟨0x400010 + 4 * k, 0, 18, [4096, 16384, 2048, 16384, 512].getD k 0⟩
def LGR_LIVE_LIVE (k : Nat) : Fld := ⟨0x400030 + 4 * k, 0, 18, [256, 8192, 1024, 8192, 128].getD k 0⟩
def LGR_PEAK_PEAK (k : Nat) : Fld := ⟨0x400090 + 4 * k, 0, 18, 0⟩
def LGR_STATUS_CFG_ERR : Fld := ⟨0x4000b4, 0, 1, 0⟩
def LGR_STATUS_FULL : Fld := ⟨0x4000b4, 1, 1, 0⟩
def LGR_STATUS_LIVE_HELD : Fld := ⟨0x4000b4, 2, 1, 0⟩
def LGR_STATUS_HOLD_LONG : Fld := ⟨0x4000b4, 3, 1, 0⟩
def LGR_HOLD_LIMIT_LIMIT_US : Fld := ⟨0x4000b8, 0, 16, 0x3e8⟩

end Reg

/-- The ID_ window (R5, R460). -/
def idRows : List RegRow := [
  ⟨0x10, 0, 1, 1, [⟨0, 26, .ro, 0x3ffffff⟩, ⟨26, 2, .ro, 3⟩, ⟨28, 4, .ro, 0xf⟩]⟩,  -- ID_CAPS0
  ⟨0x14, 0, 1, 1, [⟨0, 1, .ro, 1⟩, ⟨1, 1, .ro, 1⟩, ⟨2, 1, .ro, 1⟩, ⟨3, 1, .ro, 1⟩, ⟨4, 1, .ro, 1⟩, ⟨5, 1, .ro, 1⟩, ⟨6, 1, .ro, 1⟩, ⟨16, 8, .ro, 0x18⟩, ⟨24, 8, .ro, 2⟩]⟩,  -- ID_CAPS1
  ⟨0x18, 0, 1, 1, [⟨0, 2, .ro, 3⟩, ⟨2, 1, .ro, 1⟩, ⟨8, 8, .ro, 0x20⟩, ⟨16, 8, .ro, 0x1c⟩]⟩,  -- ID_CAPS2
  ⟨0x1c, 0, 1, 1, [⟨0, 7, .ro, 0x40⟩, ⟨8, 8, .ro, 0x10⟩, ⟨16, 16, .ro, 0x80⟩]⟩,  -- ID_CAPS3
  ⟨0x0, 0, 1, 1, [⟨0, 16, .ro, 0x7260⟩, ⟨16, 8, .ro, 1⟩]⟩,  -- ID_PART
  ⟨0x4, 0, 1, 1, [⟨0, 32, .ro, 0⟩]⟩,  -- ID_SERIAL_LO
  ⟨0x8, 0, 1, 1, [⟨0, 32, .ro, 0⟩]⟩  -- ID_SERIAL_HI
]

/-- The LCM_ window (R460). -/
def lcmRows : List RegRow := [
  ⟨0x0, 0, 1, 1, [⟨0, 1, .w1s, 0⟩]⟩,  -- LCM_CTRL
  ⟨0x4, 0, 1, 1, [⟨0, 4, .ro, 1⟩, ⟨4, 4, .ro, 0⟩, ⟨8, 4, .ro, 0⟩]⟩,  -- LCM_MODE
  ⟨0x8, 0, 1, 1, [⟨0, 4, .rw, 5⟩, ⟨4, 1, .w1s, 0⟩, ⟨5, 1, .w1c, 0⟩]⟩,  -- LCM_MODE_REQ
  ⟨0xc, 0, 1, 1, [⟨0, 3, .ro, 0⟩, ⟨3, 5, .ro, 0⟩]⟩,  -- LCM_LC
  ⟨0x10, 0, 1, 1, [⟨0, 2, .ro, 0⟩, ⟨2, 4, .ro, 0⟩, ⟨6, 4, .ro, 0⟩, ⟨10, 4, .ro, 0⟩, ⟨14, 4, .ro, 0⟩, ⟨18, 4, .ro, 0⟩, ⟨22, 1, .ro, 0⟩]⟩,  -- LCM_OTP
  ⟨0x14, 4, 3, 1, [⟨0, 32, .ro, 0⟩]⟩,  -- LCM_FLOOR
  ⟨0x20, 0, 1, 1, [⟨0, 8, .ro, 0x80⟩, ⟨8, 8, .ro, 0x80⟩, ⟨16, 8, .ro, 0x80⟩]⟩,  -- LCM_FLOOR_LEFT
  ⟨0x24, 0, 1, 1, [⟨0, 1, .ro, 0⟩, ⟨1, 1, .ro, 0⟩, ⟨2, 2, .ro, 0⟩, ⟨4, 1, .ro, 0⟩, ⟨5, 2, .ro, 0⟩]⟩,  -- LCM_BOOT
  ⟨0x28, 0, 1, 1, [⟨0, 32, .ro, 0⟩]⟩,  -- LCM_EPOCH
  ⟨0x2c, 0, 1, 1, [⟨0, 16, .rwl, 0x1e⟩, ⟨16, 5, .rwl, 0x18⟩]⟩,  -- LCM_BOOT_CFG
  ⟨0x30, 0, 1, 1, [⟨0, 16, .ro, 0⟩]⟩,  -- LCM_START_TIME
  ⟨0x34, 0, 1, 1, [⟨0, 11, .ro, 0⟩, ⟨11, 11, .ro, 0⟩, ⟨22, 1, .ro, 0⟩, ⟨23, 1, .ro, 0⟩, ⟨24, 1, .ro, 0⟩]⟩,  -- LCM_SUPPLY
  ⟨0x38, 0, 1, 1, [⟨0, 32, .ro, 0⟩]⟩,  -- LCM_LIFE_H
  ⟨0x3c, 0, 1, 1, [⟨0, 20, .ro, 0⟩]⟩,  -- LCM_LIFE_PCT
  ⟨0x40, 0, 1, 1, [⟨0, 1, .rwl, 1⟩, ⟨1, 8, .rwl, 0x18⟩, ⟨9, 1, .ro, 0⟩, ⟨10, 1, .ro, 0⟩, ⟨16, 16, .ro, 0⟩]⟩,  -- LCM_FLASH
  ⟨0x44, 0, 1, 1, [⟨0, 8, .rwl, 0x28⟩, ⟨8, 8, .rwl, 0x14⟩]⟩,  -- LCM_AGE_CFG
  ⟨0x100, 4, 38, 1, [⟨0, 8, .ro, 0⟩, ⟨8, 5, .ro, 0⟩, ⟨13, 1, .ro, 0⟩, ⟨14, 8, .ro, 0⟩, ⟨22, 10, .ro, 0⟩]⟩  -- LCM_DOMAIN
]

/-- The SHP_ window (R225). -/
def shpRows0 : List RegRow := [
  ⟨0x0, 0, 1, 1, [⟨0, 1, .w1s, 0⟩, ⟨1, 2, .rwl, 2⟩, ⟨3, 1, .rwl, 1⟩]⟩,  -- SHP_CTRL
  ⟨0x4, 0, 1, 1, [⟨0, 8, .rw, 0x78⟩]⟩,  -- SHP_PWR_CAP
  ⟨0x8, 0, 1, 1, [⟨0, 12, .ro, 0⟩, ⟨12, 1, .ro, 0⟩]⟩,  -- SHP_PWR
  ⟨0xc, 0, 1, 1, [⟨0, 9, .ro, 0⟩, ⟨9, 9, .ro, 0⟩, ⟨18, 2, .ro, 0⟩, ⟨20, 2, .ro, 0⟩, ⟨22, 7, .ro, 0x40⟩]⟩,  -- SHP_TEMP
  ⟨0x10, 0, 1, 1, [⟨0, 4, .rwl, 5⟩, ⟨4, 12, .rwl, 0x3e8⟩]⟩,  -- SHP_BAND_CFG
  ⟨0x14, 0, 1, 1, [⟨0, 16, .ro, 0x3a98⟩, ⟨16, 5, .ro, 0x18⟩]⟩,  -- SHP_GUAR
  ⟨0x18, 0, 1, 1, [⟨0, 3, .ro, 0⟩, ⟨3, 3, .ro, 0⟩, ⟨6, 3, .ro, 0⟩, ⟨9, 3, .ro, 0⟩]⟩,  -- SHP_SHED
  ⟨0x30, 0, 1, 1, [⟨0, 16, .ro, 0x47e⟩, ⟨16, 16, .ro, 0⟩]⟩,  -- SHP_BW
  ⟨0x54, 0, 1, 1, [⟨0, 5, .rw, 0⟩, ⟨5, 2, .rw, 0⟩, ⟨7, 1, .w1s, 0⟩, ⟨8, 3, .ro, 0⟩]⟩,  -- SHP_MAINT
  ⟨0x58, 0, 1, 1, [⟨0, 16, .rwl, 0xa⟩]⟩,  -- SHP_ROTATE
  ⟨0x5c, 0, 1, 1, [⟨0, 8, .rwl, 5⟩, ⟨8, 16, .rwl, 0x3e8⟩]⟩,  -- SHP_GUARD
  ⟨0xa0, 0, 1, 1, [⟨0, 1, .ro, 0⟩, ⟨1, 1, .ro, 0⟩, ⟨2, 1, .ro, 0⟩, ⟨3, 1, .ro, 0⟩, ⟨4, 1, .w1c, 0⟩, ⟨5, 1, .w1c, 0⟩, ⟨6, 1, .w1c, 0⟩]⟩,  -- SHP_STATUS
  ⟨0x180, 0, 1, 1, [⟨0, 1, .wo, 0⟩, ⟨1, 1, .rw, 0⟩]⟩,  -- SHP_CNT_CTRL
  ⟨0x20, 4, 4, 1, [⟨0, 16, .ro, 0⟩]⟩,  -- SHP_CHARGE
  ⟨0x40, 0, 1, 1, [⟨0, 26, .ro, 0xffffff⟩]⟩,  -- SHP_LT_SERVICE
  ⟨0x44, 0, 1, 1, [⟨0, 26, .ro, 0x3000000⟩]⟩,  -- SHP_LT_SPARE
  ⟨0x48, 0, 1, 1, [⟨0, 26, .ro, 0⟩]⟩,  -- SHP_LT_PARKED
  ⟨0x4c, 0, 1, 1, [⟨0, 26, .ro, 0⟩]⟩,  -- SHP_LT_MAINT
  ⟨0x50, 0, 1, 1, [⟨0, 26, .ro, 0⟩]⟩,  -- SHP_LT_RETIRED
  ⟨0x60, 0, 1, 1, [⟨0, 32, .ro, 0⟩]⟩  -- SHP_CTX_BASE_LO
]

/-- The SHP_ window (R225). -/
def shpRows1 : List RegRow := [
  ⟨0x64, 0, 1, 1, [⟨0, 3, .ro, 0⟩]⟩,  -- SHP_CTX_BASE_HI
  ⟨0x80, 4, 3, 1, [⟨0, 2, .ro, 0⟩, ⟨2, 2, .ro, 0⟩, ⟨4, 2, .ro, 0⟩, ⟨6, 2, .ro, 0⟩, ⟨8, 2, .ro, 0⟩, ⟨10, 2, .ro, 0⟩, ⟨12, 2, .ro, 0⟩, ⟨14, 2, .ro, 0⟩, ⟨16, 2, .ro, 0⟩, ⟨18, 2, .ro, 0⟩, ⟨20, 2, .ro, 0⟩, ⟨22, 2, .ro, 0⟩, ⟨24, 2, .ro, 0⟩, ⟨26, 2, .ro, 0⟩, ⟨28, 2, .ro, 0⟩, ⟨30, 2, .ro, 0⟩]⟩,  -- SHP_PD_STATE
  ⟨0x90, 4, 3, 1, [⟨0, 2, .rw, 3⟩, ⟨2, 2, .rw, 3⟩, ⟨4, 2, .rw, 3⟩, ⟨6, 2, .rw, 3⟩, ⟨8, 2, .rw, 3⟩, ⟨10, 2, .rw, 3⟩, ⟨12, 2, .rw, 3⟩, ⟨14, 2, .rw, 3⟩, ⟨16, 2, .rw, 3⟩, ⟨18, 2, .rw, 3⟩, ⟨20, 2, .rw, 3⟩, ⟨22, 2, .rw, 3⟩, ⟨24, 2, .rw, 3⟩, ⟨26, 2, .rw, 3⟩, ⟨28, 2, .rw, 3⟩, ⟨30, 2, .rw, 3⟩]⟩  -- SHP_PD_LIMIT
]

/-- The SHP_ window (R225). -/
def shpRows : List RegRow := shpRows0 ++ shpRows1

/-- The FLT_ window (R429). -/
def fltRows : List RegRow := [
  ⟨0x0, 0, 1, 1, [⟨0, 1, .w1s, 0⟩]⟩,  -- FLT_CTRL
  ⟨0x4, 0, 1, 1, [⟨0, 1, .ro, 0⟩, ⟨1, 1, .ro, 0⟩, ⟨2, 1, .w1c, 0⟩, ⟨3, 6, .ro, 0⟩, ⟨9, 10, .ro, 0⟩, ⟨19, 10, .ro, 0⟩]⟩,  -- FLT_STATUS
  ⟨0x8, 0, 1, 1, [⟨0, 16, .rwl, 0x64⟩, ⟨16, 5, .rwl, 3⟩, ⟨21, 5, .rwl, 1⟩]⟩,  -- FLT_LADDER_CFG
  ⟨0xc, 0, 1, 1, [⟨0, 16, .rwl, 0x3c⟩]⟩,  -- FLT_STRIKE_CFG
  ⟨0x10, 0, 1, 1, [⟨0, 4, .rw, 0⟩, ⟨4, 9, .rw, 0⟩, ⟨13, 1, .w1s, 0⟩]⟩,  -- FLT_INJECT_CTRL
  ⟨0x14, 0, 1, 1, [⟨6, 26, .rw, 0⟩]⟩,  -- FLT_INJECT_ADDR_LO
  ⟨0x18, 0, 1, 1, [⟨0, 3, .rw, 0⟩]⟩,  -- FLT_INJECT_ADDR_HI
  ⟨0x40, 4, 16, 1, [⟨0, 32, .w1c, 0⟩]⟩,  -- FLT_STICKY
  ⟨0x80, 4, 16, 1, [⟨0, 32, .ro, 0⟩]⟩,  -- FLT_LIVE
  ⟨0xc0, 4, 16, 1, [⟨0, 32, .w1c, 0⟩]⟩,  -- FLT_BROKEN
  ⟨0x200, 8, 64, 1, [⟨0, 9, .ro, 0⟩, ⟨9, 2, .ro, 0⟩, ⟨11, 1, .ro, 0⟩, ⟨12, 1, .ro, 0⟩, ⟨13, 1, .ro, 0⟩]⟩,  -- FLT_LOG0
  ⟨0x204, 8, 64, 1, [⟨0, 32, .ro, 0⟩]⟩,  -- FLT_LOG1
  ⟨0x400, 4, 26, 1, [⟨0, 3, .ro, 0⟩, ⟨3, 5, .ro, 0⟩, ⟨8, 1, .ro, 0⟩]⟩,  -- FLT_LT_LADDER
  ⟨0x800, 4, 512, 1, [⟨0, 2, .ro, 0⟩, ⟨2, 1, .ro, 1⟩, ⟨3, 1, .rwl, 0⟩, ⟨4, 1, .rwl, 0⟩, ⟨5, 1, .rwl, 0⟩, ⟨6, 1, .ro, 1⟩, ⟨8, 8, .ro, 0⟩]⟩,  -- FLT_SRC_CFG
  ⟨0x1080, 0, 1, 1, [⟨0, 1, .wo, 0⟩, ⟨1, 1, .rw, 0⟩]⟩  -- FLT_CNT_CTRL
]

/-- The EVM_ and BWT_ registers (R413, R414). -/
def evmRows : List RegRow := [
  ⟨0x0, 0, 1, 1, [⟨0, 1, .w1s, 0⟩]⟩,  -- EVM_CTRL
  ⟨0x10, 0, 1, 1, [⟨0, 32, .wo, 0⟩]⟩,  -- EVM_SW_PULSE_LO
  ⟨0x14, 0, 1, 1, [⟨0, 32, .wo, 0⟩]⟩,  -- EVM_SW_PULSE_HI
  ⟨0x20, 0, 1, 1, [⟨0, 32, .w1c, 0⟩]⟩,  -- EVM_CV_APPLIED_LO
  ⟨0x24, 0, 1, 1, [⟨0, 32, .w1c, 0⟩]⟩,  -- EVM_CV_APPLIED_HI
  ⟨0x30, 0, 1, 1, [⟨0, 16, .rwl, 0⟩]⟩,  -- EVM_GPIO_DIR
  ⟨0x400, 4, 256, 1, [⟨0, 8, .rwl, 0⟩, ⟨8, 1, .rwl, 0⟩, ⟨16, 8, .rwl, 0⟩]⟩,  -- EVM_SINK
  ⟨0x800, 4, 256, 1, [⟨0, 16, .ro, 0⟩, ⟨16, 15, .ro, 0⟩, ⟨31, 1, .wo, 0⟩]⟩,  -- EVM_SRC_STAT
  ⟨0xc00, 8, 16, 1, [⟨0, 30, .ro, 0⟩, ⟨30, 1, .ro, 0⟩, ⟨31, 1, .ro, 0⟩]⟩,  -- EVM_STAMP0
  ⟨0xc04, 8, 16, 1, [⟨0, 32, .ro, 0⟩]⟩,  -- EVM_STAMP1
  ⟨0x4000, 0, 1, 1, [⟨0, 5, .w1c, 0⟩, ⟨5, 1, .w1c, 0⟩]⟩,  -- BWT_FAULT
  ⟨0x4010, 4, 5, 1, [⟨0, 4, .ro, 0⟩, ⟨4, 1, .ro, 1⟩, ⟨5, 5, .ro, 0⟩, ⟨10, 1, .ro, 0⟩, ⟨11, 1, .ro, 0⟩, ⟨12, 1, .ro, 0⟩]⟩,  -- BWT_TGT_STATE
  ⟨0x4040, 4, 5, 1, [⟨0, 10, .ro, 0⟩, ⟨10, 4, .ro, 0⟩, ⟨31, 1, .ro, 0⟩]⟩,  -- BWT_CLAIM
  ⟨0x4060, 4, 5, 1, [⟨0, 10, .wo, 0⟩]⟩,  -- BWT_EOI
  ⟨0x4080, 0, 1, 1, [⟨0, 10, .wo, 0⟩]⟩,  -- BWT_SET
  ⟨0x4084, 0, 1, 1, [⟨0, 10, .wo, 0⟩]⟩,  -- BWT_CLEAR
  ⟨0x4100, 4, 32, 1, [⟨0, 32, .ro, 0⟩]⟩,  -- BWT_PENDING
  ⟨0x4280, 0, 1, 1, [⟨0, 1, .wo, 0⟩, ⟨1, 1, .rw, 0⟩]⟩,  -- BWT_CNT_CTRL
  ⟨0x8000, 4, 1024, 1, [⟨0, 4, .rw, 0⟩, ⟨4, 3, .rw, 7⟩, ⟨7, 3, .rw, 7⟩, ⟨10, 6, .rw, 0⟩, ⟨16, 1, .rw, 0⟩, ⟨18, 2, .ro, 0⟩, ⟨20, 3, .ro, 0⟩]⟩  -- BWT_SRC_CFG
]

/-- The HIF_ window (R394), with the MSI-X table and pending bits. -/
def hifRows0 : List RegRow := [
  ⟨0x0, 0, 1, 1, [⟨0, 1, .w1s, 0⟩, ⟨1, 1, .rw, 0⟩]⟩,  -- HIF_CTRL
  ⟨0x4, 0, 1, 1, [⟨0, 1, .ro, 0⟩, ⟨1, 3, .ro, 0⟩, ⟨4, 4, .ro, 0⟩, ⟨8, 2, .ro, 0⟩, ⟨10, 1, .ro, 0⟩, ⟨11, 1, .ro, 0⟩]⟩,  -- HIF_STATUS
  ⟨0x8, 0, 1, 1, [⟨0, 11, .rwl, 0x40⟩, ⟨11, 2, .rwl, 1⟩, ⟨13, 16, .rwl, 0x3e8⟩]⟩,  -- HIF_CFG
  ⟨0xc, 0, 1, 1, [⟨0, 5, .rwl, 0⟩]⟩,  -- HIF_APERTURE
  ⟨0x10, 0, 1, 1, [⟨0, 1, .w1c, 0⟩, ⟨1, 1, .w1c, 0⟩, ⟨2, 1, .w1c, 0⟩, ⟨3, 1, .w1c, 0⟩, ⟨4, 1, .w1c, 0⟩]⟩,  -- HIF_FAULT
  ⟨0x14, 0, 1, 1, [⟨0, 6, .ro, 0⟩, ⟨6, 4, .ro, 0⟩, ⟨10, 8, .ro, 0⟩, ⟨18, 8, .ro, 0⟩, ⟨26, 1, .ro, 0⟩]⟩,  -- HIF_ERR_LOG0
  ⟨0x18, 0, 1, 1, [⟨0, 16, .ro, 0⟩, ⟨16, 16, .ro, 0⟩]⟩,  -- HIF_ERR_LOG1
  ⟨0x1c, 0, 1, 1, [⟨0, 32, .ro, 0⟩]⟩,  -- HIF_ERR_LOG2
  ⟨0x1000, 0x40, 64, 1, [⟨0, 32, .rw, 0⟩]⟩,  -- HIF_Q0
  ⟨0x1004, 0x40, 64, 1, [⟨0, 32, .rw, 0⟩]⟩,  -- HIF_Q1
  ⟨0x1008, 0x40, 64, 1, [⟨0, 32, .rw, 0⟩]⟩,  -- HIF_Q2
  ⟨0x100c, 0x40, 64, 1, [⟨0, 32, .rw, 0⟩]⟩,  -- HIF_Q3
  ⟨0x1010, 0x40, 64, 1, [⟨0, 12, .rw, 0⟩, ⟨12, 12, .rw, 0⟩, ⟨24, 6, .rw, 0⟩, ⟨30, 1, .rw, 0⟩, ⟨31, 1, .rw, 0⟩]⟩,  -- HIF_Q4
  ⟨0x1014, 0x40, 64, 1, [⟨0, 12, .ro, 0⟩, ⟨12, 12, .ro, 0⟩, ⟨24, 3, .ro, 0⟩, ⟨27, 2, .ro, 0⟩, ⟨29, 1, .ro, 0⟩, ⟨30, 1, .w1c, 0⟩]⟩,  -- HIF_Q5
  ⟨0x1018, 0x40, 64, 1, [⟨0, 16, .ro, 0⟩, ⟨16, 16, .ro, 0⟩]⟩,  -- HIF_Q6
  ⟨0x3200, 4, 64, 1, [⟨0, 8, .rw, 1⟩, ⟨8, 16, .rw, 0⟩]⟩,  -- HIF_VEC_MOD
  ⟨0x3180, 0, 1, 1, [⟨0, 1, .wo, 0⟩, ⟨1, 1, .rw, 0⟩]⟩,  -- HIF_CNT_CTRL
  ⟨0x2000, 0x10, 64, 1, [⟨0, 32, .rw, 0⟩]⟩,  -- MSIX_ADDR_LO
  ⟨0x2004, 0x10, 64, 1, [⟨0, 32, .rw, 0⟩]⟩,  -- MSIX_ADDR_HI
  ⟨0x2008, 0x10, 64, 1, [⟨0, 32, .rw, 0⟩]⟩  -- MSIX_DATA
]

/-- The HIF_ window (R394), with the MSI-X table and pending bits. -/
def hifRows1 : List RegRow := [
  ⟨0x200c, 0x10, 64, 1, [⟨0, 1, .rw, 1⟩]⟩,  -- MSIX_CTRL
  ⟨0x3000, 4, 2, 1, [⟨0, 32, .ro, 0⟩]⟩  -- MSIX_PBA
]

/-- The HIF_ window (R394), with the MSI-X table and pending bits. -/
def hifRows : List RegRow := hifRows0 ++ hifRows1

/-- The RNG_ window (R367). -/
def rngRows0 : List RegRow := [
  ⟨0x0, 0, 1, 1, [⟨0, 1, .w1s, 0⟩]⟩,  -- RNG_CTRL
  ⟨0x4, 0, 1, 1, [⟨0, 1, .ro, 0⟩, ⟨1, 1, .w1c, 0⟩, ⟨2, 1, .w1c, 0⟩]⟩,  -- RNG_STATUS
  ⟨0x10, 4, 2, 1, [⟨0, 2, .rwl, 0⟩, ⟨2, 2, .rwl, 0⟩, ⟨4, 6, .rwl, 0x14⟩]⟩,  -- RNG_PORT_CFG
  ⟨0x18, 4, 2, 1, [⟨0, 1, .ro, 0⟩, ⟨1, 1, .ro, 0⟩, ⟨2, 1, .ro, 0⟩, ⟨3, 1, .ro, 0⟩, ⟨4, 1, .w1c, 0⟩]⟩,  -- RNG_PORT_STATUS
  ⟨0x20, 0, 1, 1, [⟨0, 8, .rwl, 0⟩, ⟨8, 8, .rwl, 0⟩, ⟨16, 8, .rwl, 5⟩, ⟨24, 8, .rwl, 0x3c⟩]⟩,  -- RNG_BYPASS_CFG
  ⟨0x24, 0, 1, 1, [⟨0, 1, .rw, 0⟩, ⟨1, 15, .rwl, 0x7d0⟩, ⟨16, 8, .rwl, 0x64⟩, ⟨24, 8, .rwl, 0xa⟩]⟩,  -- RNG_BYPASS_CTRL
  ⟨0x28, 0, 1, 1, [⟨0, 4, .ro, 0⟩, ⟨4, 2, .ro, 0⟩, ⟨6, 8, .ro, 0⟩, ⟨14, 1, .ro, 0⟩]⟩,  -- RNG_BYPASS_STATUS
  ⟨0x40, 0, 1, 1, [⟨0, 8, .rwl, 0x7f⟩, ⟨8, 8, .rwl, 0x80⟩, ⟨16, 8, .rwl, 0x80⟩, ⟨24, 1, .rwl, 0⟩]⟩,  -- RNG_PTP_CFG
  ⟨0x44, 0, 1, 1, [⟨0, 1, .ro, 0⟩, ⟨1, 1, .ro, 0⟩, ⟨2, 1, .ro, 0⟩, ⟨3, 29, .ro, 0⟩]⟩,  -- RNG_PTP_STATUS
  ⟨0x48, 0, 1, 1, [⟨0, 32, .ro, 0⟩]⟩,  -- RNG_PTP_OFFSET
  ⟨0x30, 0, 1, 1, [⟨0, 32, .ro, 0⟩]⟩,  -- RNG_NODE_MAC_LO
  ⟨0x34, 0, 1, 1, [⟨0, 16, .ro, 0⟩, ⟨16, 12, .rwl, 0⟩]⟩,  -- RNG_NODE_MAC_HI
  ⟨0x38, 0, 1, 1, [⟨0, 32, .rwl, 0⟩]⟩,  -- RNG_NODE_IP
  ⟨0x50, 0, 1, 1, [⟨0, 1, .rwl, 0⟩, ⟨1, 6, .rwl, 0x3f⟩, ⟨7, 2, .rwl, 0⟩, ⟨16, 16, .rwl, 0xb7fc⟩]⟩,  -- RNG_MGMT_CFG
  ⟨0x60, 0, 1, 1, [⟨0, 10, .rwl, 1⟩, ⟨10, 4, .rwl, 4⟩, ⟨14, 10, .rwl, 0x64⟩]⟩,  -- RNG_SAMPLE
  ⟨0x1000, 0x20, 512, 1, [⟨0, 12, .rw, 0⟩, ⟨12, 2, .rw, 0⟩, ⟨14, 1, .rw, 0⟩, ⟨16, 16, .rw, 0⟩]⟩,  -- RNG_FLOW0
  ⟨0x1004, 0x20, 512, 1, [⟨0, 32, .rw, 0⟩]⟩,  -- RNG_FLOW1
  ⟨0x1008, 0x20, 512, 1, [⟨0, 9, .rw, 0⟩, ⟨9, 2, .rw, 0⟩, ⟨11, 10, .rw, 0⟩]⟩,  -- RNG_FLOW2
  ⟨0x100c, 0x20, 512, 1, [⟨0, 25, .rw, 0⟩]⟩,  -- RNG_FLOW3
  ⟨0x1010, 0x20, 512, 1, [⟨0, 20, .rw, 0⟩]⟩  -- RNG_FLOW4
]

/-- The RNG_ window (R367). -/
def rngRows1 : List RegRow := [
  ⟨0x1014, 0x20, 512, 1, [⟨0, 32, .ro, 0⟩]⟩,  -- RNG_FLOW5
  ⟨0x1018, 0x20, 512, 1, [⟨0, 32, .ro, 0⟩]⟩,  -- RNG_FLOW6
  ⟨0x6000, 8, 256, 1, [⟨0, 25, .rw, 0⟩, ⟨25, 2, .rw, 3⟩]⟩,  -- RNG_TXQ_CFG0
  ⟨0x6004, 8, 256, 1, [⟨0, 13, .rw, 0x40⟩, ⟨13, 16, .rw, 0x1f4⟩]⟩,  -- RNG_TXQ_CFG1
  ⟨0x7000, 8, 512, 1, [⟨0, 13, .ro, 0⟩, ⟨13, 19, .ro, 0⟩]⟩,  -- RNG_TXQ_SAMPLE0
  ⟨0x7004, 8, 512, 1, [⟨0, 19, .ro, 0⟩, ⟨31, 1, .wo, 0⟩]⟩,  -- RNG_TXQ_SAMPLE1
  ⟨0x8300, 0, 1, 1, [⟨0, 1, .wo, 0⟩, ⟨1, 1, .rw, 0⟩]⟩  -- RNG_CNT_CTRL
]

/-- The RNG_ window (R367). -/
def rngRows : List RegRow := rngRows0 ++ rngRows1

/-- The COP_ window (R325). -/
def copRows : List RegRow := [
  ⟨0x0, 0, 1, 1, [⟨0, 1, .w1s, 0⟩]⟩,  -- COP_CTRL
  ⟨0x4, 0, 1, 1, [⟨0, 1, .ro, 0⟩, ⟨1, 1, .ro, 0⟩, ⟨2, 1, .w1c, 0⟩, ⟨3, 1, .w1c, 0⟩]⟩,  -- COP_STATUS
  ⟨0x100, 0x20, 6, 1, [⟨12, 20, .rwl, 0⟩]⟩,  -- COP_POOL0
  ⟨0x104, 0x20, 6, 1, [⟨0, 3, .rwl, 0⟩]⟩,  -- COP_POOL1
  ⟨0x108, 0x20, 6, 1, [⟨0, 19, .rwl, 0⟩]⟩,  -- COP_POOL2
  ⟨0x10c, 0x20, 6, 1, [⟨0, 19, .ro, 0⟩]⟩,  -- COP_POOL3
  ⟨0x110, 0x20, 6, 1, [⟨0, 19, .ro, 0⟩]⟩,  -- COP_POOL4
  ⟨0x114, 0x20, 6, 1, [⟨0, 16, .ro, 0⟩]⟩,  -- COP_POOL5
  ⟨0x118, 0x20, 6, 1, [⟨0, 19, .ro, 0⟩]⟩,  -- COP_POOL6
  ⟨0x4000, 0x20, 1024, 1, [⟨0, 16, .rwl, 0⟩, ⟨16, 16, .rw, 0⟩]⟩,  -- COP_OWNER_LIMIT0
  ⟨0x4004, 0x20, 1024, 1, [⟨0, 16, .rwl, 0⟩, ⟨16, 16, .rw, 0⟩]⟩,  -- COP_OWNER_LIMIT1
  ⟨0x4008, 0x20, 1024, 1, [⟨0, 16, .rwl, 0⟩, ⟨16, 16, .rw, 0⟩]⟩,  -- COP_OWNER_LIMIT2
  ⟨0x400c, 0x20, 1024, 1, [⟨0, 16, .rwl, 0⟩, ⟨16, 16, .rw, 0⟩]⟩,  -- COP_OWNER_LIMIT3
  ⟨0x4010, 0x20, 1024, 1, [⟨0, 16, .rwl, 0⟩, ⟨16, 16, .rw, 0⟩]⟩,  -- COP_OWNER_LIMIT4
  ⟨0x4014, 0x20, 1024, 1, [⟨0, 16, .rwl, 0⟩, ⟨16, 16, .rw, 0⟩]⟩,  -- COP_OWNER_LIMIT5
  ⟨0xc000, 0x10, 1024, 1, [⟨0, 16, .ro, 0⟩, ⟨16, 16, .ro, 0⟩]⟩,  -- COP_OWNER_HELD0
  ⟨0xc004, 0x10, 1024, 1, [⟨0, 16, .ro, 0⟩, ⟨16, 16, .ro, 0⟩]⟩,  -- COP_OWNER_HELD1
  ⟨0xc008, 0x10, 1024, 1, [⟨0, 16, .ro, 0⟩, ⟨16, 16, .ro, 0⟩]⟩,  -- COP_OWNER_HELD2
  ⟨0xc00c, 0x10, 1024, 1, [⟨0, 1, .rwl, 0⟩]⟩,  -- COP_OWNER_HELD3
  ⟨0x280, 0, 1, 1, [⟨0, 1, .wo, 0⟩, ⟨1, 1, .rw, 0⟩]⟩  -- COP_CNT_CTRL
]

/-- The DRV_ window (R339). -/
def drvRows : List RegRow := [
  ⟨0x100, 0x40, 16, 1, [⟨0, 32, .rw, 0⟩]⟩,  -- DRV_SRC_LO
  ⟨0x104, 0x40, 16, 1, [⟨0, 32, .rw, 0⟩]⟩,  -- DRV_SRC_HI
  ⟨0x108, 0x40, 16, 1, [⟨0, 32, .rw, 0⟩]⟩,  -- DRV_DST_LO
  ⟨0x10c, 0x40, 16, 1, [⟨0, 32, .rw, 0⟩]⟩,  -- DRV_DST_HI
  ⟨0x110, 0x40, 16, 1, [⟨0, 32, .rw, 0⟩]⟩,  -- DRV_LEN
  ⟨0x114, 0x40, 16, 1, [⟨0, 32, .rw, 0⟩]⟩,  -- DRV_FILL
  ⟨0x118, 0x40, 16, 1, [⟨0, 2, .rw, 0⟩, ⟨2, 1, .rw, 0⟩, ⟨3, 1, .rw, 0⟩, ⟨4, 2, .rw, 2⟩, ⟨6, 1, .rw, 0⟩]⟩,  -- DRV_CFG
  ⟨0x11c, 0x40, 16, 1, [⟨0, 1, .w1s, 0⟩, ⟨1, 1, .w1s, 0⟩]⟩,  -- DRV_CMD
  ⟨0x120, 0x40, 16, 1, [⟨0, 1, .ro, 0⟩, ⟨1, 1, .ro, 0⟩, ⟨2, 1, .ro, 0⟩, ⟨3, 8, .ro, 0⟩, ⟨11, 1, .ro, 0⟩, ⟨12, 1, .ro, 0⟩, ⟨13, 1, .ro, 0⟩, ⟨14, 1, .w1c, 0⟩]⟩,  -- DRV_STATUS
  ⟨0x124, 0x40, 16, 1, [⟨0, 32, .ro, 0⟩]⟩,  -- DRV_DONE
  ⟨0x128, 0x40, 16, 1, [⟨0, 32, .ro, 0xffffffff⟩]⟩,  -- DRV_FIRST_OFF
  ⟨0x12c, 0x40, 16, 1, [⟨0, 32, .ro, 0⟩]⟩  -- DRV_JOBS
]

/-- The DMC_ window (R313). -/
def dmcRows : List RegRow := [
  ⟨0x0, 0, 1, 1, [⟨0, 1, .w1s, 0⟩]⟩,  -- DMC_CTRL
  ⟨0x4, 0, 1, 1, [⟨0, 5, .ro, 0x10⟩, ⟨5, 11, .ro, 0x700⟩, ⟨16, 16, .ro, 0x1290⟩]⟩,  -- DMC_CFG
  ⟨0x8, 0, 1, 1, [⟨0, 1, .ro, 0⟩, ⟨1, 1, .ro, 0⟩, ⟨2, 1, .ro, 0⟩, ⟨3, 1, .ro, 0⟩, ⟨4, 1, .ro, 0⟩]⟩,  -- DMC_STATUS
  ⟨0x10, 4, 8, 1, [⟨0, 10, .rwl, 0⟩, ⟨10, 11, .rwl, 0⟩, ⟨21, 2, .rwl, 0⟩]⟩,  -- DMC_REGION
  ⟨0x30, 4, 3, 1, [⟨0, 16, .rwl, 0⟩]⟩,  -- DMC_AGE
  ⟨0x40, 0, 1, 1, [⟨0, 2, .rwl, 2⟩, ⟨2, 6, .rwl, 4⟩, ⟨8, 8, .rwl, 0x40⟩, ⟨16, 1, .rwl, 1⟩]⟩,  -- DMC_ECC_CTRL
  ⟨0x44, 0, 1, 1, [⟨0, 1, .rwl, 1⟩, ⟨1, 8, .rwl, 0x18⟩]⟩,  -- DMC_SCRUB
  ⟨0x48, 0, 1, 1, [⟨0, 16, .ro, 0⟩, ⟨16, 7, .ro, 0⟩]⟩,  -- DMC_SCRUB_STATUS
  ⟨0x4c, 0, 1, 1, [⟨0, 16, .w1c, 0⟩, ⟨16, 4, .w1c, 0⟩, ⟨20, 4, .w1c, 0⟩, ⟨24, 4, .w1c, 0⟩, ⟨28, 4, .w1c, 0⟩]⟩,  -- DMC_FAULT
  ⟨0x50, 0, 1, 1, [⟨0, 4, .ro, 0⟩, ⟨4, 4, .ro, 0⟩, ⟨8, 16, .ro, 0⟩, ⟨24, 5, .ro, 0⟩, ⟨29, 2, .ro, 0⟩]⟩,  -- DMC_ERR_LOG0
  ⟨0x54, 0, 1, 1, [⟨0, 4, .ro, 0⟩, ⟨4, 10, .ro, 0⟩, ⟨14, 18, .ro, 0⟩]⟩,  -- DMC_ERR_LOG1
  ⟨0xf0, 0, 1, 1, [⟨0, 4, .rw, 0⟩, ⟨8, 8, .ro, 0⟩, ⟨16, 5, .ro, 0⟩]⟩,  -- DMC_PPR_SEL
  ⟨0x100, 8, 16, 1, [⟨0, 1, .ro, 0⟩, ⟨1, 4, .ro, 0⟩, ⟨5, 4, .ro, 0⟩, ⟨9, 16, .ro, 0⟩, ⟨25, 1, .ro, 0⟩, ⟨26, 1, .ro, 0⟩]⟩,  -- DMC_PPR0
  ⟨0x104, 8, 16, 1, [⟨0, 8, .ro, 0⟩, ⟨8, 1, .ro, 0⟩]⟩,  -- DMC_PPR1
  ⟨0x200, 4, 16, 1, [⟨0, 9, .ro, 0⟩, ⟨9, 2, .ro, 0⟩, ⟨11, 1, .ro, 0⟩, ⟨12, 1, .ro, 0⟩, ⟨13, 8, .ro, 0⟩]⟩,  -- DMC_CH_STATE
  ⟨0x300, 4, 16, 1, [⟨0, 16, .ro, 0⟩]⟩,  -- DMC_BW
  ⟨0x480, 0, 1, 1, [⟨0, 1, .wo, 0⟩, ⟨1, 1, .rw, 0⟩]⟩  -- DMC_CNT_CTRL
]

/-- An INL_ window (R264). -/
def inlRows : List RegRow := [
  ⟨0x0, 0, 1, 1, [⟨0, 1, .ro, 0⟩, ⟨8, 8, .ro, 1⟩]⟩,  -- INL_ID
  ⟨0x4, 0, 1, 1, [⟨0, 1, .w1s, 0⟩]⟩,  -- INL_CTRL
  ⟨0x18, 0, 1, 1, [⟨0, 16, .rwl, 0x64⟩]⟩,  -- INL_COMMIT_TIMEOUT
  ⟨0x1c, 0, 1, 1, [⟨0, 1, .w1c, 0⟩, ⟨1, 1, .w1c, 0⟩, ⟨2, 1, .w1c, 0⟩, ⟨3, 1, .w1c, 0⟩, ⟨4, 1, .w1c, 0⟩]⟩,  -- INL_FAULT
  ⟨0x8, 0, 1, 1, [⟨0, 32, .ro, 0⟩]⟩,  -- INL_CV_MASK_LO
  ⟨0xc, 0, 1, 1, [⟨0, 32, .ro, 0⟩]⟩,  -- INL_CV_MASK_HI
  ⟨0x10, 0, 1, 1, [⟨0, 20, .ro, 0xc0000⟩]⟩,  -- INL_LB_POOL
  ⟨0x14, 0, 1, 1, [⟨0, 20, .ro, 0⟩]⟩,  -- INL_LB_USED
  ⟨0x100, 4, 64, 1, [⟨0, 1, .ro, 0⟩, ⟨1, 1, .ro, 0⟩, ⟨2, 1, .ro, 0⟩, ⟨3, 1, .ro, 0⟩, ⟨4, 4, .ro, 0⟩, ⟨8, 16, .ro, 0⟩]⟩,  -- INL_CV_STATE
  ⟨0x280, 0, 1, 1, [⟨0, 1, .wo, 0⟩, ⟨1, 1, .rw, 0⟩]⟩,  -- INL_CNT_CTRL
  ⟨0x400, 0x40, 16, 15, [⟨0, 16, .rwl, 0⟩]⟩,  -- INL_CSC
  ⟨0x2000, 0, 1, 5632, [⟨0, 10, .rwl, 0⟩]⟩  -- INL_SCL_COEF
]

/-- The override and head registers, in the window of IN0 only (R264). -/
def in0Rows : List RegRow := [
  ⟨0x20, 0, 1, 1, [⟨0, 3, .rw, 0⟩, ⟨3, 1, .w1s, 0⟩, ⟨4, 1, .w1s, 0⟩, ⟨5, 1, .rwl, 0⟩, ⟨6, 4, .rwl, 0⟩, ⟨10, 3, .rwl, 0⟩, ⟨13, 1, .rwl, 0⟩]⟩,  -- INL_OVR_CTRL
  ⟨0x24, 0, 1, 1, [⟨0, 1, .ro, 0⟩, ⟨1, 3, .ro, 0⟩, ⟨4, 2, .ro, 0⟩, ⟨6, 1, .ro, 0⟩]⟩,  -- INL_OVR_STATUS
  ⟨0x8000, 0x400, 4, 1, [⟨0, 1, .rw, 0⟩, ⟨1, 1, .rwl, 1⟩, ⟨2, 4, .rwl, 0⟩, ⟨6, 2, .rwl, 0⟩, ⟨8, 2, .rwl, 1⟩, ⟨10, 1, .rwl, 0⟩, ⟨11, 9, .rwl, 0xc0⟩, ⟨20, 3, .rwl, 3⟩, ⟨23, 3, .rwl, 4⟩, ⟨26, 2, .rwl, 2⟩]⟩,  -- DP_CTRL
  ⟨0x8004, 0x400, 4, 1, [⟨0, 1, .ro, 0⟩, ⟨1, 1, .ro, 0⟩, ⟨2, 3, .ro, 0⟩, ⟨5, 2, .ro, 0⟩, ⟨7, 1, .ro, 0⟩, ⟨8, 1, .ro, 0⟩, ⟨9, 1, .w1c, 0⟩]⟩,  -- DP_STATUS
  ⟨0x8008, 0x400, 4, 1, [⟨0, 32, .ro, 0⟩]⟩,  -- DP_GENLOCK
  ⟨0x800c, 0x400, 4, 1, [⟨0, 24, .ro, 0⟩]⟩,  -- DP_MVID
  ⟨0x8010, 0x400, 4, 1, [⟨0, 24, .ro, 0⟩]⟩,  -- DP_NVID
  ⟨0x8020, 0x400, 4, 1, [⟨0, 14, .rwl, 0⟩, ⟨16, 14, .rwl, 0⟩]⟩,  -- DP_HTIMING0
  ⟨0x8024, 0x400, 4, 1, [⟨0, 12, .rwl, 0⟩, ⟨12, 1, .rwl, 0⟩]⟩,  -- DP_HTIMING1
  ⟨0x8028, 0x400, 4, 1, [⟨0, 14, .rwl, 0⟩, ⟨16, 8, .rwl, 0⟩, ⟨24, 1, .rwl, 0⟩]⟩,  -- DP_VTIMING
  ⟨0x8100, 0x400, 4, 64, [⟨0, 32, .ro, 0⟩]⟩  -- DP_EDID
]

/-- A Lathe's LTH_ and SPN_ registers (R104, R140, R290). -/
def lthRows0 : List RegRow := [
  ⟨0x0, 0, 1, 1, [⟨0, 5, .ro, 0⟩, ⟨8, 8, .ro, 1⟩]⟩,  -- LTH_ID
  ⟨0x4, 0, 1, 1, [⟨0, 2, .ro, 0⟩]⟩,  -- LTH_ROLE
  ⟨0x8, 0, 1, 1, [⟨0, 1, .w1s, 0⟩, ⟨1, 1, .rw, 0⟩, ⟨2, 1, .w1s, 0⟩]⟩,  -- LTH_CTRL
  ⟨0xc, 0, 1, 1, [⟨0, 2, .ro, 0⟩, ⟨2, 1, .ro, 0⟩, ⟨3, 1, .ro, 0⟩, ⟨4, 1, .ro, 0⟩, ⟨5, 1, .ro, 0⟩, ⟨8, 9, .ro, 0⟩, ⟨17, 3, .ro, 0⟩, ⟨20, 3, .ro, 0⟩]⟩,  -- LTH_STATUS
  ⟨0x10, 0, 1, 1, [⟨0, 7, .ro, 0⟩, ⟨7, 1, .ro, 0⟩, ⟨8, 7, .ro, 0⟩, ⟨15, 1, .wo, 0⟩]⟩,  -- LTH_TQ
  ⟨0x14, 0, 1, 1, [⟨0, 16, .rwl, 0x4000⟩]⟩,  -- LTH_TASK_LIMIT
  ⟨0x18, 0, 1, 1, [⟨0, 1, .w1c, 0⟩, ⟨1, 1, .w1c, 0⟩, ⟨2, 1, .w1c, 0⟩, ⟨3, 1, .w1c, 0⟩, ⟨4, 1, .w1c, 0⟩]⟩,  -- LTH_FAULT
  ⟨0x180, 0, 1, 1, [⟨0, 1, .wo, 0⟩, ⟨1, 1, .rw, 0⟩]⟩,  -- LTH_CNT_CTRL
  ⟨0x200, 0, 1, 1, [⟨0, 15, .ro, 0⟩, ⟨16, 15, .ro, 0⟩]⟩,  -- LTH_BSQ_LEVEL
  ⟨0x204, 0, 1, 1, [⟨0, 1, .ro, 0⟩, ⟨1, 1, .ro, 0⟩, ⟨2, 1, .ro, 0⟩, ⟨3, 1, .ro, 0⟩, ⟨4, 1, .ro, 0⟩]⟩,  -- LTH_BSQ_STATE
  ⟨0x208, 0, 1, 1, [⟨0, 1, .w1s, 0⟩]⟩,  -- LTH_BSQ_CTRL
  ⟨0x20c, 0, 1, 1, [⟨0, 16, .rw, 0x4000⟩]⟩,  -- LTH_BSQ_STALL_LIMIT
  ⟨0x210, 0, 1, 1, [⟨0, 1, .w1c, 0⟩]⟩,  -- LTH_BSQ_FAULT
  ⟨0x40, 0, 1, 16, [⟨0, 32, .ro, 0⟩]⟩,  -- LTH_CUR_TASK
  ⟨0x80, 0, 1, 4, [⟨0, 32, .ro, 0⟩]⟩,  -- LTH_LAST_RESULT
  ⟨0xc0, 0, 1, 16, [⟨0, 32, .wo, 0⟩]⟩,  -- LTH_TQ_PUSH
  ⟨0x280, 0, 1, 1, [⟨0, 8, .ro, 0⟩, ⟨8, 9, .ro, 0⟩, ⟨17, 9, .ro, 0⟩]⟩,  -- LTH_DEC_ERR0
  ⟨0x284, 0, 1, 1, [⟨0, 16, .ro, 0⟩, ⟨16, 16, .ro, 0⟩]⟩,  -- LTH_DEC_ERR1
  ⟨0x8000, 0, 1, 1, [⟨0, 3, .ro, 0⟩, ⟨3, 1, .ro, 0⟩, ⟨4, 4, .ro, 0⟩, ⟨8, 1, .ro, 0⟩]⟩,  -- SPN_STATUS
  ⟨0x8004, 0, 1, 1, [⟨0, 1, .w1s, 0⟩, ⟨1, 1, .w1s, 0⟩]⟩  -- SPN_CTRL
]

/-- A Lathe's LTH_ and SPN_ registers (R104, R140, R290). -/
def lthRows1 : List RegRow := [
  ⟨0x8008, 0, 1, 1, [⟨0, 1, .rw, 0⟩]⟩,  -- SPN_SRC
  ⟨0x800c, 0, 1, 1, [⟨0, 4, .rwl, 4⟩]⟩,  -- SPN_RERUN_LIMIT
  ⟨0x8038, 0, 1, 1, [⟨0, 1, .w1c, 0⟩, ⟨1, 1, .w1c, 0⟩, ⟨2, 1, .w1c, 0⟩, ⟨3, 1, .w1c, 0⟩, ⟨4, 1, .w1c, 0⟩, ⟨5, 1, .w1c, 0⟩, ⟨6, 1, .w1c, 0⟩]⟩,  -- SPN_FAULT
  ⟨0x803c, 0, 1, 1, [⟨0, 13, .ro, 0⟩, ⟨13, 1, .ro, 0⟩]⟩,  -- SPN_ERR_ADDR
  ⟨0x8040, 0, 1, 1, [⟨0, 3, .ro, 0⟩, ⟨3, 8, .ro, 0⟩, ⟨11, 12, .ro, 0⟩]⟩,  -- SPN_LAST_RERUN
  ⟨0x8044, 0, 1, 1, [⟨0, 1, .rw, 0⟩, ⟨1, 1, .rw, 0⟩, ⟨2, 8, .ro, 0⟩, ⟨10, 1, .ro, 0⟩, ⟨11, 1, .rw, 0⟩, ⟨12, 12, .rw, 0⟩]⟩,  -- SPN_TRACE_CTRL
  ⟨0x8010, 0, 1, 1, [⟨0, 32, .ro, 0⟩]⟩,  -- SPN_BUILD
  ⟨0x8014, 0, 1, 1, [⟨0, 32, .ro, 0⟩]⟩,  -- SPN_SECVER
  ⟨0x8018, 0, 1, 1, [⟨0, 32, .ro, 0⟩]⟩,  -- SPN_BASE_ID
  ⟨0x8020, 4, 4, 1, [⟨0, 8, .ro, 0⟩, ⟨8, 1, .ro, 0⟩, ⟨9, 12, .ro, 0⟩]⟩,  -- SPN_VSLOT
  ⟨0x8030, 0, 1, 1, [⟨0, 32, .ro, 0⟩]⟩,  -- SPN_CRC_LO
  ⟨0x8034, 0, 1, 1, [⟨0, 32, .ro, 0⟩]⟩,  -- SPN_CRC_HI
  ⟨0x8048, 0, 1, 1, [⟨0, 13, .rw, 0⟩]⟩,  -- SPN_CS_ADDR
  ⟨0x8050, 0, 1, 4, [⟨0, 32, .ro, 0⟩]⟩,  -- SPN_CS_DATA
  ⟨0x8060, 0, 1, 1, [⟨0, 16, .ro, 0⟩]⟩,  -- SPN_CS_DATA4
  ⟨0x8070, 0, 1, 1, [⟨0, 32, .ro, 0⟩]⟩,  -- SPN_MC0_LO
  ⟨0x8074, 0, 1, 1, [⟨0, 32, .ro, 0⟩]⟩,  -- SPN_MC0_HI
  ⟨0x8078, 0, 1, 1, [⟨0, 32, .ro, 0⟩]⟩,  -- SPN_MC1_LO
  ⟨0x807c, 0, 1, 1, [⟨0, 32, .ro, 0⟩]⟩,  -- SPN_MC1_HI
  ⟨0x9000, 8, 256, 2, [⟨0, 32, .ro, 0⟩]⟩  -- SPN_TRACE
]

/-- A Lathe's LTH_ and SPN_ registers (R104, R140, R290). -/
def lthRows : List RegRow := lthRows0 ++ lthRows1

/-- The LGR_ window (R36). -/
def lgrRows : List RegRow := [
  ⟨0x0, 0, 1, 1, [⟨0, 1, .w1s, 0⟩]⟩,  -- LGR_CTRL
  ⟨0x10, 4, 5, 1, [⟨0, 18, .rwl, 0⟩]⟩,  -- LGR_MIN
  ⟨0x30, 4, 5, 1, [⟨0, 18, .rwl, 0⟩]⟩,  -- LGR_LIVE
  ⟨0x50, 4, 5, 1, [⟨0, 18, .ro, 0⟩]⟩,  -- LGR_HELD
  ⟨0x70, 4, 5, 1, [⟨0, 16, .ro, 0⟩]⟩,  -- LGR_WAIT
  ⟨0x90, 4, 5, 1, [⟨0, 18, .ro, 0⟩, ⟨31, 1, .wo, 0⟩]⟩,  -- LGR_PEAK
  ⟨0xb0, 0, 1, 1, [⟨0, 18, .ro, 0x16600⟩]⟩,  -- LGR_SHARED
  ⟨0xb4, 0, 1, 1, [⟨0, 1, .ro, 0⟩, ⟨1, 1, .ro, 0⟩, ⟨2, 1, .w1c, 0⟩, ⟨3, 1, .w1c, 0⟩]⟩,  -- LGR_STATUS
  ⟨0xb8, 0, 1, 1, [⟨0, 16, .rwl, 0x3e8⟩]⟩  -- LGR_HOLD_LIMIT
]

/-! The 64-bit counters: each is named by the BAR0 address of its LO word. -/
namespace Cnt

def CNT_BLOCKS (n : Nat) : Nat := 0x100100 + 0x10000 * n
def CNT_STATIC (n : Nat) : Nat := 0x100108 + 0x10000 * n
def CNT_TASKS (n : Nat) : Nat := 0x100110 + 0x10000 * n
def CNT_RERUN (n : Nat) : Nat := 0x100118 + 0x10000 * n
def CNT_ABANDONED (n : Nat) : Nat := 0x100120 + 0x10000 * n
def CYC_BUSY (n : Nat) : Nat := 0x100128 + 0x10000 * n
def CYC_DRAM_STALL (n : Nat) : Nat := 0x100130 + 0x10000 * n
def CYC_WAIT_DEP (n : Nat) : Nat := 0x100138 + 0x10000 * n
def BYTES_IN (n : Nat) : Nat := 0x100140 + 0x10000 * n
def BYTES_OUT (n : Nat) : Nat := 0x100148 + 0x10000 * n
def CYC_SWITCH (n : Nat) : Nat := 0x100150 + 0x10000 * n
def BSQ_WORDS_IN (n : Nat) : Nat := 0x100220 + 0x10000 * n
def BSQ_WORDS_DROPPED (n : Nat) : Nat := 0x100228 + 0x10000 * n
def BSQ_GAPS_OVERFLOW (n : Nat) : Nat := 0x100230 + 0x10000 * n
def BSQ_GAPS_LOSS (n : Nat) : Nat := 0x100238 + 0x10000 * n
def BSQ_POISON_POPPED (n : Nat) : Nat := 0x100240 + 0x10000 * n
def BSQ_PARITY_ERR (n : Nat) : Nat := 0x100248 + 0x10000 * n
def BSQ_REWINDS (n : Nat) : Nat := 0x100250 + 0x10000 * n
def BSQ_FLUSHES (n : Nat) : Nat := 0x100258 + 0x10000 * n
def BSQ_WORDS_FLUSHED (n : Nat) : Nat := 0x100260 + 0x10000 * n
def BSQ_CYC_IDLE (n : Nat) : Nat := 0x100268 + 0x10000 * n
def BSQ_CYC_FULL (n : Nat) : Nat := 0x100270 + 0x10000 * n
def SPN_STEPS (n : Nat) : Nat := 0x108100 + 0x10000 * n
def SPN_RERUN_CS (n : Nat) : Nat := 0x108108 + 0x10000 * n
def SPN_RERUN_PARITY (n : Nat) : Nat := 0x108110 + 0x10000 * n
def SPN_RERUN_MARGIN (n : Nat) : Nat := 0x108118 + 0x10000 * n
def SPN_RERUN_BREAK (n : Nat) : Nat := 0x108120 + 0x10000 * n
def SPN_CS_CORRECTED (n : Nat) : Nat := 0x108128 + 0x10000 * n
def SPN_CS_UNCORRECTED (n : Nat) : Nat := 0x108130 + 0x10000 * n
def SPN_LOADS (n : Nat) : Nat := 0x108138 + 0x10000 * n
def SHP_BAND_RISES : Nat := 0x20100
def SHP_BAND_FALLS : Nat := 0x20108
def SHP_MIGRATIONS : Nat := 0x20110
def SHP_PROMOTIONS : Nat := 0x20118
def SHP_PICS_SHED : Nat := 0x20120
def SHP_GAP_PLACED : Nat := 0x20128
def SHP_WAKES_LATE : Nat := 0x20130
def SHP_PUSH_RETRIES : Nat := 0x20138
def INL_PICS_COMPOSED (i : Nat) : Nat := 0xa0200 + 0x10000 * i
def INL_PICS_DROPPED (i : Nat) : Nat := 0xa0208 + 0x10000 * i
def INL_COMMITS_APPLIED (i : Nat) : Nat := 0xa0210 + 0x10000 * i
def INL_COMMITS_DEFERRED (i : Nat) : Nat := 0xa0218 + 0x10000 * i
def INL_COMMITS_TIMEOUT (i : Nat) : Nat := 0xa0220 + 0x10000 * i
def INL_COMMITS_REFUSED (i : Nat) : Nat := 0xa0228 + 0x10000 * i
def INL_BANDS_LATE (i : Nat) : Nat := 0xa0230 + 0x10000 * i
def INL_ROWS_STALE (i : Nat) : Nat := 0xa0238 + 0x10000 * i
def INL_CELLS_COPIED (i : Nat) : Nat := 0xa0240 + 0x10000 * i
def INL_TILES_POISON (i : Nat) : Nat := 0xa0248 + 0x10000 * i
def INL_COLOUR_MISMATCH (i : Nat) : Nat := 0xa0250 + 0x10000 * i
def INL_OVERRIDES (i : Nat) : Nat := 0xa0258 + 0x10000 * i
def DMC_CE : Nat := 0x90400
def DMC_RETRY_OK : Nat := 0x90408
def DMC_UE : Nat := 0x90410
def DMC_POISON_READS : Nat := 0x90418
def DMC_PROMOTIONS : Nat := 0x90420
def DMC_REFRESHES : Nat := 0x90428
def DMC_PATROL_LINES : Nat := 0x90430
def DMC_SOFT_REPAIRS : Nat := 0x90438
def COP_ALLOCS : Nat := 0x70200
def COP_FALLBACKS : Nat := 0x70208
def COP_TRY_FAILS : Nat := 0x70210
def COP_WAITS : Nat := 0x70218
def COP_FREES : Nat := 0x70220
def COP_BAD_FREES : Nat := 0x70228
def HIF_CMDS_FETCHED : Nat := 0x53100
def HIF_CMDS_COMPLETED : Nat := 0x53108
def HIF_CPL_LOST : Nat := 0x53110
def HIF_READ_TIMEOUTS : Nat := 0x53118
def HIF_CHAIN_FAULTS : Nat := 0x53120
def HIF_MSIX_SENT : Nat := 0x53128
def HIF_PME_SENT : Nat := 0x53130
def HIF_LEDGER_HOLDS : Nat := 0x53138
def BWT_CLAIMS : Nat := 0x44200
def BWT_REFIRE_MERGED : Nat := 0x44208
def BWT_EOI_REFUSED : Nat := 0x44210
def BWT_REQUEUED : Nat := 0x44218
def BWT_FALLBACK_CLAIMS : Nat := 0x44220
def BWT_TH_EVENTS : Nat := 0x44228
def FLT_SETS : Nat := 0x31000
def FLT_MERGED : Nat := 0x31008
def FLT_CLEAR_REFUSED : Nat := 0x31010
def FLT_BROKEN : Nat := 0x31018
def FLT_RUNG2 : Nat := 0x31020
def FLT_RUNG3 : Nat := 0x31028
def FLT_RUNG4 : Nat := 0x31030
def FLT_SUPERSEDED : Nat := 0x31038
def DP_FRAMES (d : Nat) : Nat := 0xa8200 + 0x400 * d
def DP_TEARS (d : Nat) : Nat := 0xa8208 + 0x400 * d
def DP_RETRAINS (d : Nat) : Nat := 0xa8210 + 0x400 * d
def DP_RESYNCS (d : Nat) : Nat := 0xa8218 + 0x400 * d
def RNG_FRAMES_RX (p : Nat) : Nat := 0x68000 + 0x100 * p
def RNG_FRAMES_FWD (p : Nat) : Nat := 0x68008 + 0x100 * p
def RNG_FRAMES_LOCAL (p : Nat) : Nat := 0x68010 + 0x100 * p
def RNG_DUP_DISCARDED (p : Nat) : Nat := 0x68018 + 0x100 * p
def RNG_OWN_RETURNED (p : Nat) : Nat := 0x68020 + 0x100 * p
def RNG_RX_DISCARDED (p : Nat) : Nat := 0x68028 + 0x100 * p
def RNG_PASS_DROPPED (p : Nat) : Nat := 0x68030 + 0x100 * p
def RNG_NO_FLOW (p : Nat) : Nat := 0x68038 + 0x100 * p
def RNG_NOBUF (p : Nat) : Nat := 0x68040 + 0x100 * p
def RNG_PORT_DOWN (p : Nat) : Nat := 0x68048 + 0x100 * p
def RNG_AGED (p : Nat) : Nat := 0x68050 + 0x100 * p
def RNG_HIGH_LATE (p : Nat) : Nat := 0x68058 + 0x100 * p
def RNG_PTP_STEPS : Nat := 0x68200
def RNG_RTCP_REQUESTS : Nat := 0x68208
def RNG_MGMT_ACCEPTED : Nat := 0x68210
def RNG_MGMT_AUTH_FAIL : Nat := 0x68218
def RNG_MGMT_QUEUE_FULL : Nat := 0x68220
/-- DMC_ACCT of accounting tag t (R312). -/
def DMC_ACCT (t : Nat) : Nat := 0x94000 + 8 * t

end Cnt

end Sys2Proof.Machine
end

