-- ==== Sys2Proof/Machine/Tbl.lean ====
section
/-!
DEFINITION. Sparse tables: what the machine holds per number (per register field, per Lathe, per address ...), kept as a
list of (number, value) pairs in ONE canonical form: numbers strictly rising, and no entry equal to the table's default,
which is what an unlisted number reads as.
-/
namespace Sys2Proof.Machine

/-- A table from numbers to values. -/
abbrev Tbl (α : Type) := List (Nat × α)

/-- The value of number `k`; `d` where it is not listed. -/
def tget {α : Type} (d : α) : Tbl α → Nat → α
  | [], _ => d
  | (k', v) :: r, k => if k = k' then v else tget d r k

/-- Puts an entry at its place in the order. -/
def tins {α : Type} (k : Nat) (v : α) : Tbl α → Tbl α
  | [] => [(k, v)]
  | (k', v') :: r => if k < k' then (k, v) :: (k', v') :: r else (k', v') :: tins k v r

/-- Takes the entry of `k` away. -/
def tdel {α : Type} (k : Nat) : Tbl α → Tbl α
  | [] => []
  | (k', v') :: r => if k' = k then tdel k r else (k', v') :: tdel k r

/-- Sets the value of `k`: writing the default takes the entry away. -/
def tset {α : Type} [DecidableEq α] (d : α) (t : Tbl α) (k : Nat) (v : α) : Tbl α :=
  if v = d then tdel k t else tins k v (tdel k t)

/-- Takes away every entry whose number satisfies `p`. -/
def tclear {α : Type} (p : Nat → Bool) : Tbl α → Tbl α
  | [] => []
  | (k, v) :: r => if p k then tclear p r else (k, v) :: tclear p r

/-- Whether every number of the table lies above `lo`, and they rise strictly. -/
def tsorted {α : Type} : Tbl α → Bool
  | [] => true
  | [_] => true
  | (k, _) :: (k', v') :: r => decide (k < k') && tsorted ((k', v') :: r)

/-- The canonical form of a table of default `d`. -/
def twf {α : Type} [DecidableEq α] (d : α) (t : Tbl α) : Bool :=
  tsorted t && t.all (fun e => decide (e.2 ≠ d))

/-- The numbers from `a` on, `n` of them. -/
def upTo (a : Nat) : Nat → List Nat
  | 0 => []
  | n + 1 => a :: upTo (a + 1) n

/-- The first number of a list that satisfies `p`. -/
def firstWith (p : Nat → Bool) : List Nat → Option Nat
  | [] => none
  | k :: r => if p k then some k else firstWith p r

/-- The `n`-th element with a default. -/
def nth {α : Type} (d : α) : List α → Nat → α
  | [], _ => d
  | x :: _, 0 => x
  | _ :: r, n + 1 => nth d r n

/-- Replaces the `n`-th element; a list too short is left as it is. -/
def setNth {α : Type} (v : α) : List α → Nat → List α
  | [], _ => []
  | _ :: r, 0 => v :: r
  | x :: r, n + 1 => x :: setNth v r n

/-- The sum of the values of a table. -/
def tsum (f : Nat → Nat → Nat) : Tbl Nat → Nat
  | [] => 0
  | (k, v) :: r => f k v + tsum f r

end Sys2Proof.Machine
end

