-- ==== Sys2Proof/Machine/State.lean ====
section
/-!
DEFINITION. The state of the block: every register field, counter, memory, queue and mode that the spec gives it, as
plain data, and the queue of the commands that wait.
-/
namespace Sys2Proof.Machine

/-- Why the machine stops with a fault: no command of this block does, for the spec gives each an effect on every
operand. -/
inductive Fault where
deriving DecidableEq, Repr

/-- Why a command has no meaning. -/
inductive Refusal where
  /-- Raised by an arm of exec that has no meaning yet. Safe: nothing can be proved of it. -/
  | notModelled (mnemonic : String)
deriving DecidableEq, Repr

/-- The last answer to a requester's read (DESIGN CHOICE, log entry 13). -/
structure Resp where
  rq : Requester
  addr : Nat
  data : Word
deriving DecidableEq, Repr

/-- An entry of the fault log (R422). -/
structure LogEnt where
  source : Nat
  cls : Nat
  broken : Bool
  injected : Bool
  time : Nat
  valid : Bool
  unread : Bool
deriving DecidableEq, Repr

/-- A record of the flash log area that holds more than a fault entry (R443). -/
inductive FlashRec where
  | fault (e : LogEnt)
  | margin (pd ps : Nat)
  | failedStarts (n : Nat)
deriving DecidableEq, Repr

/-- An injection that is armed and has not yet acted (R428). -/
structure Inject where
  kind : Nat
  target : Nat
  addr : Nat
deriving DecidableEq, Repr

/-- The fault collector (R415 to R422): the causes that no W1C bit holds, the sticky bits, the pairs that are broken now, the
FLT_BROKEN bits, COUNT, the log with its next index and the flash log area (R443), and an injection that is armed. -/
structure Flt where
  levels : Tbl Bool
  sticky : Tbl Bool
  broken : Tbl Bool
  latched : Tbl Bool
  count : Tbl Nat
  log : Tbl LogEnt
  logWr : Nat
  flash : List FlashRec
  inject : Option Inject
deriving DecidableEq, Repr

/-- The halves of an asynchronous pulse crossing (R401). -/
inductive Xing where
  | idle | busy | busyPending
deriving DecidableEq, Repr

/-- A timestamp capture (R398). -/
structure Stamp where
  ns : Nat
  secs : Nat
  above : Bool
  valid : Bool
deriving DecidableEq, Repr

/-- The event matrix: the sinks' divide counters (how many pulses until one passes), the GPIO outputs that are high,
the pulses that reached the cores' event inputs (sinks 208 to 239), the stamps, the crossings, and how many pulses of each source entered
the matrix (R95) (DESIGN CHOICE, log entry 19). -/
structure Evm where
  div : Tbl Nat
  gpioHigh : Tbl Bool
  coreEvt : Tbl Nat
  stamps : Tbl Stamp
  xing : Tbl Xing
  seen : Tbl Nat
deriving DecidableEq, Repr

/-- An MSI-X vector (R389): events counted, when the first of them came, and its pending bit. -/
structure Vec where
  count : Nat
  since : Nat
  pend : Bool
deriving DecidableEq, Repr

/-- What the interface has sent to the host, in order (R388) (DEDUCED, log entry 121). -/
inductive HostMsg where
  | write (addr : Nat) (bytes : List Nat) (ep : Bool)
  | cpl (q slot : Nat) (w0 w1 r0 r1 : Nat)
  | msix (v : Nat)
  | pme
  | barData (bytes : List Nat) (ep : Bool)
deriving DecidableEq, Repr

/-- A message of this node's own on a ring port: a supervision frame (R345), a PTP message, a sender report of a rendition with
its SSRC and its packets and octets (R359), a picture-loss indication, an ARP or ICMP reply, a management response (R365) with
its completion, or a HELLO_REPLY. -/
inductive RingMsg where
  | supervision
  | ptp (m : PtpMsg)
  | report (sid r ssrc packets octets : Nat)
  | pli (sid : Nat)
  | answer (ip : Nat) (icmp : Bool)
  | mgmt (dest : MgmtFrom) (words : List Nat)
  | hello (epoch : Nat) (dest : MgmtFrom)
deriving DecidableEq, Repr

/-- What left a ring port: a forwarded frame, a packet of a rendition (R358, R359: its RTP sequence number, timestamp, marker and
payload bytes), or a message of this node's own (DEDUCED, log entry 121). -/
inductive RingOut where
  | frame (p : Nat) (f : Frame)
  | packet (p sid r seq ts : Nat) (marker : Bool) (bytes : Nat)
  | own (p : Nat) (m : RingMsg)
deriving DecidableEq, Repr

/-- A packet copy in a transmit queue (R360): its NET entry, its frame length and when it was enqueued. -/
structure TxCopy where
  entry : Nat
  len : Nat
  time : Nat
deriving DecidableEq, Repr

/-- A queue's credit in 1/1,024 bit, and when it was last brought up to date (R362). -/
structure Credit where
  v : Int
  time : Nat
deriving DecidableEq, Repr

/-- A ring port: its own messages of order 1 and 5, its pass-through queues, the NET entry whose copy is on the wire, its
transmit queues with their credits, where the rotation within each class stands, whether AUTO tries 25G now, and the module
identity and rate selects (R341, R342, R350, R360, R362). -/
structure Port where
  ctl : List RingMsg
  high : List Frame
  low : List Frame
  reply : List RingMsg
  wire : Option Nat
  txq : Tbl (List TxCopy)
  credit : Tbl Credit
  rot : Tbl Nat
  trySlow : Bool
  ident : Nat
  rs : Bool
deriving DecidableEq, Repr

/-- A packet that is cut and waits for its NET entry (R360): its payload bytes, its timestamp, whether it ends its access unit,
and the Coop handle of its slice. -/
structure CutPkt where
  bytes : Nat
  ts : Nat
  marker : Bool
  handle : Option Nat
deriving DecidableEq, Repr

/-- A packet that holds a NET entry (R360, R361), and whether each copy of it remains. -/
structure NetEnt where
  sid : Nat
  r : Nat
  q : Nat
  seq : Nat
  pkt : CutPkt
  live : Bool
  east : Bool
  west : Bool
deriving DecidableEq, Repr

/-- An entry of the duplicate table (R349): whether a copy was delivered, and whether one was forwarded out of EAST and of WEST. -/
structure DupEnt where
  mac : Nat
  seq : Nat
  time : Nat
  delivered : Bool
  east : Bool
  west : Bool
deriving DecidableEq, Repr

/-- A received packet that waits for an older one (R355). -/
structure RxPkt where
  seq : Nat
  handle : Option Nat
  payload : List Nat
  marker : Bool
deriving DecidableEq, Repr

/-- A flow (R355, R356): the tokens missing from its bucket in 1/8,000 byte and when that was so, the sequence number awaited,
the highest seen, the packets ahead of the awaited one with since when one waits, and whether a fragmented unit is open. -/
structure RxFlow where
  spent : Nat
  time : Nat
  next : Option Nat
  high : Nat
  ahead : List RxPkt
  since : Nat
  frag : Bool
deriving DecidableEq, Repr

/-- What has arrived of a decode stream, in order: stored payload bytes with their Coop buffer, a loss record (R355), the end of a
picture. -/
inductive Arrived where
  | data (handle : Option Nat) (len : Nat)
  | loss (count : Nat)
  | mark
deriving DecidableEq, Repr

/-- The ring unit: its ports, the packets that hold NET entries, those cut per rendition (SID * 4 + rendition), the duplicate
table with the oldest first, the flows, what has arrived per decode stream and when the last of it came (R223), when the bypass state was entered, whether its
switch movement has been retried and since when the ring is seen closed; the PTP rate in ppb and the part of a nanosecond in
1e-9, the Syncs in a row within 1 us, whether the clock has ever locked, when each path last had a Sync and the rate last
changed; and the management endpoint's last counter, its latest failures and until when it is locked out. -/
structure Ring where
  ports : Tbl Port
  nets : Tbl (Option NetEnt)
  cuts : Tbl (List CutPkt)
  dups : List DupEnt
  flows : Tbl RxFlow
  arrived : Tbl (List Arrived)
  lastAt : Tbl Nat
  since : Nat
  retried : Bool
  closed : Bool
  ppb : Int
  sub : Nat
  good : Nat
  everLocked : Bool
  lastSync : Tbl Nat
  lastAdj : Nat
  counter : Nat
  fails : List Nat
  lockUntil : Option Nat
deriving DecidableEq, Repr

/-- A flash bank's directory (R443) and its images by TYPE (R282). -/
structure Bank where
  seq : Nat
  state : Nat
  tries : Nat
  writes : Nat
  images : Tbl (Option Image)
deriving DecidableEq, Repr

/-- A settings generation in OTP (R450): what of it can be seen. -/
structure OtpGen where
  sris : Nat
  signMask : Nat
  revoke : Nat
  imageKeys : Nat
  mgmtKeys : Nat
  digestOk : Bool
deriving DecidableEq, Repr

/-- Start-up, life cycle and ageing (R430 to R458): the flash banks, the OTP settings generations, t = 0 of the last start, whether
the running images' CONFIG asks for FACTORY, since when the bank has served (R444), since when MAINTAIN runs, the day of the last
maintenance hour, since when HOLD is cool and a withdrawn module is cool, whether the last stop was a withdrawal, whether the
bypass closes before a restart with the reason, the domains' low readings in a row, the equivalent life in tenths of a minute,
whether the supervisor holds the module off, the running images' security versions by class, and the day on which each domain's margin was last logged. -/
structure Life where
  banks : Tbl Bank
  gens : Tbl (Option OtpGen)
  start : Nat
  factory : Bool
  servedSince : Option Nat
  maintSince : Option Nat
  maintDay : Nat
  coolSince : Option Nat
  withdrawn : Bool
  restart : Option Nat
  low : Tbl Nat
  acc : Nat
  inhibit : Bool
  running : Tbl Nat
  marginDay : Tbl Nat
deriving DecidableEq, Repr

/-- A held ledger entry (R38). -/
structure LEnt where
  cls : LClass
  bucket : Bucket
  live : Bool
  state : Nat
  origin : Nat
  time : Nat
  words : List Nat
deriving DecidableEq, Repr

/-- A request for a ledger entry that waits (R31, R32): `tag` names the producer's operation. -/
structure LReq where
  cls : LClass
  live : Bool
  origin : Nat
  tag : Nat
  time : Nat
  held : Option Nat
deriving DecidableEq, Repr

/-- The operation ledger: the entries held, by number, the requests in the order made, and the counter of the free
value that names the next grant's entry (the model's own field) (DESIGN CHOICE, log entry 6). -/
structure Ldg where
  entries : Tbl (Option LEnt)
  reqs : List LReq
  free : Nat
deriving DecidableEq, Repr

/-- A region of the address map in force (R296). -/
structure Region where
  base : Nat
  count : Nat
  order : Nat
deriving DecidableEq, Repr

/-- A row that a channel tracks, or a repair candidate of its list (R308). -/
structure RowRec where
  bank : Nat
  row : Nat
  corrected : Nat
  uncorr : Bool
  softDone : Bool
  exhausted : Bool
deriving DecidableEq, Repr

/-- What a DRAM read returned: the data, and whether it carries a poison tag (R294). -/
structure DramRd where
  port : Nat
  tag : Nat
  addr : Nat
  bytes : List Nat
  poison : Bool
deriving DecidableEq, Repr

/-- A read on rung 0: its line failed the first decode and is being retried (R294). -/
structure Retry where
  port : Nat
  tag : Nat
  addr : Nat
  len : Nat
  tries : Nat
deriving DecidableEq, Repr

/-- Device DRAM and its controller: the bytes by device address, the poisoned lines by line number, the bytes that an
injection flipped in a line, the reads on rung 0, the last read's answer, the address map in force, per channel the
tracked rows, the listed candidates, those not listed, the candidates saved to flash, the last soft repair, the patrol's
place, the corrected reads of the running second, the refresh slots taken and due in ns, since when the readings lie
low, and per quadrant and class the bytes of the running window. -/
structure Dram where
  mem : List Host.Cell
  poison : Tbl Bool
  errs : Tbl Nat
  retry : List Retry
  rd : Option DramRd
  map : List Region
  rows : Tbl (List RowRec)
  cands : Tbl (List RowRec)
  above : Tbl Nat
  saved : Tbl (List RowRec)
  lastSoft : Tbl Nat
  patrol : Tbl Nat
  ceSec : Tbl Nat
  ceCount : Tbl Nat
  refLast : Tbl Nat
  refNext : Tbl Nat
  coolSince : Tbl Nat
  bw : Tbl Nat
deriving DecidableEq, Repr

/-- A task of a queue: the 16 words of its descriptor (R96), the ledger entry it holds, and its attempt: 0 the first, 1 a
rung-2 reissue, 2 the substitution that follows (R424, R425), with the Lathes that failed it. -/
structure QTask where
  desc : List Nat
  entry : Nat
  attempt : Nat
  tried : List Nat
deriving DecidableEq, Repr

/-- A task that the Shepherd has dispatched to a Lathe and whose ledger entry is not granted yet (R207). -/
structure Disp where
  lathe : Nat
  desc : List Nat
  tag : Nat
deriving DecidableEq, Repr

/-- A surface in device DRAM: where it lies, its size, and its format by the codes of R232. -/
structure Surf where
  addr : Nat
  w : Nat
  h : Nat
  format : Nat
  pitch : Nat
deriving DecidableEq, Repr

/-- Static HDR metadata in HEVC units (R58, R59, R61): of MDCV the primaries' and the white point's eight chromaticities, then the maximum
and the minimum luminance; of CLL its two values. -/
structure Hdr where
  mdcv : Option (List Nat)
  cll : Option (List Nat)
deriving DecidableEq, Repr

/-- A block of a picture that has completed: 1 decoded as intra, 2 as inter, 3 concealed (0: not yet); its stored motion (R128); the code of
the damage whose span it is lost in (R116); and 1 + the row of the last decoded block at or above it (R128) (DEDUCED, log entry 43). -/
structure Blk where
  st : Nat
  mv : Int × Int
  code : Nat
  dec : Nat
deriving DecidableEq, Repr

/-- A picture of a decoded picture buffer (R124 to R127): its identity and output order, its output surface and the surface that its
references read, without film grain (R47), its stored motion by row * 512 + column (R137), its taint and its metadata (R59). -/
structure DpbPic where
  id : Nat
  poc : Int
  surf : Surf
  refSurf : Surf
  motion : Tbl Blk
  taint : Bool
  hdr : Hdr
deriving DecidableEq, Repr

/-- An entry of the active reference list as the decoder resolves it: the picture, or the alias that stands for a
phantom (none: the FILL plane), and whether it is a phantom (R125). -/
structure RefSlot where
  pic : Option DpbPic
  phantom : Bool
deriving DecidableEq, Repr

/-- The picture that a decode stream decodes: what its headers say, its output surface and its reference surface (R47), its references,
whether it is the first after a start point (R136), its mode, whether it is skipped
(on the Shepherd's direction 1, by shedding 2) or of a layer that is discarded (R50), when its last row committed, its syntax buffers
by row * 512 + column (0 not parsed, 1 parsed, else 2 + the code of the damage that lost the block, R121) and whether the parse
has ended, the rows that committed, and what its commit at DEC_PIC_END adds to the counters and the status record (R139). -/
structure DecPic where
  id : Nat
  poc : Int
  seq : Nat
  intra : Bool
  clears : Bool
  surf : Surf
  refSurf : Surf
  refs : List RefSlot
  first : Bool
  parseAhead : Bool
  skip : Bool
  directed : Nat
  layer : Nat
  shown : Bool
  started : Bool
  finalAt : Option Nat
  syn : Tbl Nat
  parsed : Bool
  rowsDone : Tbl Bool
  taint : Bool
  concealed : Nat
  acc : Tbl Nat
  damage : Option (Nat × Nat × Nat × Nat)
deriving DecidableEq, Repr

/-- The private state of a decode stream (R133 to R137): the sequence in force, whether a start point is awaited (1: any, 2: an
IRAP picture or key frame), whether the stream started at a CRA picture, whether its pictures are tainted until R127 clears them since
it started without an IRAP picture (R134, R135),
the decoded picture buffer, the previous output picture, the picture being decoded, the recovery point awaited (its POC
and whether every block since its start decoded intact), the metadata in force (R59), and when the configured rate's next picture is due (R206). -/
structure DecSt where
  seq : Option SeqHdr
  needStart : Nat
  craStart : Bool
  unrecovered : Bool
  dpb : List DpbPic
  prev : Option DpbPic
  cur : Option DecPic
  recovery : Option (Int × Bool)
  hdr : Hdr
  lateHist : List Bool
  lastPli : Nat
  slot : Nat
deriving DecidableEq, Repr

/-- A reconstructed picture of a rendition: its canvas picture, its number since the last intra picture (R155), where it lies, and the first
picture of its rolling cycle with its place in it (R159). -/
structure RefPic where
  c : Nat
  n : Nat
  dst : Nat
  roll : Option (Nat × Nat)
deriving DecidableEq, Repr

/-- What a region is coded as: its treatment (R152), whether in floor form (R180), whether it shows its first reference unchanged (R153), its
quantiser by R179 and the coded one of its block (R172), its partitions, whether SAO, ALF and loop restoration may act on it, and whether it is a graphic region (R154). -/
structure RegSyn where
  treat : Nat
  floor : Bool
  still : Bool
  rq : Nat
  coded : Nat
  parts : List PartIn
  sao : Bool
  alf : Bool
  restore : Bool
  graphic : Bool
deriving DecidableEq, Repr

/-- The forms of a coded picture (R156, R158): a refresh point's, a trailing picture of HEVC or VVC, a sub-layer non-reference picture of
HEVC, and a frame of AV1 that is no key frame. -/
inductive PicForm where
  | idrNLp | idrWRadl | gdr | keyFrame | trail | subLayerNonRef | frame
deriving DecidableEq, Repr

/-- What the parameter sets or the sequence header say, with the buffering-period SEI or the AV1 operating parameters (R42, R53, R84, R170,
R187, R190): profile, level and tier, the coded size and the size shown, the block size, the tile columns and the height of AV1's tile rows,
whether entropy coding is synchronised, the flags that HEVC's screen content profile sets to 0, R_a, B, cbr_flag, whether decoding units are
signalled, and the initial delay in microseconds. -/
structure SeqSyn where
  profile : Nat
  level : Nat
  tier : Nat
  width : Nat
  height : Nat
  showW : Nat
  showH : Nat
  block : Nat
  tileCols : Nat
  tileH : Nat
  entropySync : Bool
  colourTransform : Bool
  mvResolution : Nat
  ra : Nat
  bufSize : Nat
  cbr : Bool
  duParams : Bool
  delay : Nat
deriving DecidableEq, Repr

/-- The syntax of a coded picture that the spec fixes (R58, R154, R156, R158, R187): its form, the parameter sets that precede it, the
recovery_poc_cnt of a rolling cycle, whether its slices are B slices, the pictures in its reference slots, refresh_frame_flags = 0,
ALTREF_FRAME with show_existing_frame, allow_screen_content_tools, the removal times of its units in ticks after its own, and the carriers
of metadata with their values. -/
structure PicSyn where
  form : PicForm
  seq : Option SeqSyn
  recovery : Option Nat
  bSlices : Bool
  slots : List Nat
  noRefresh : Bool
  showExisting : Bool
  screen : Bool
  units : List Nat
  carriers : List (Nat × List Nat)
deriving DecidableEq, Repr

/-- The picture that a rendition codes (R173 to R181): canvas picture, kind (0 NORMAL, 1 REPEAT, 2 SUBSTITUTE), the canvas picture whose input
it codes, that of the picture before it, its number since the last intra picture, its type by R173, the cause of its refresh point and whether it is in the intra form,
the first picture of its rolling cycle with its place in it, its references, the first one first, the picture that its regions' change is judged against (R152), the
version it re-pins to (0 none), whether it is the first NORMAL one after a REPEAT (R184), its quantiser, target and P, the rows' bits and coded
bytes, its regions as coded, the counts of R193, its filler bits, where its reconstruction lies, its syntax, and its coded bytes as handed on. -/
structure EncPic where
  c : Nat
  kind : Nat
  input : Nat
  prev : Nat
  n : Nat
  type : Nat
  cause : Option Nat
  intra : Bool
  roll : Option (Nat × Nat)
  refs : List RefPic
  base : Option Nat
  repin : Nat
  fresh : Bool
  rq : Nat
  safe : Bool
  target : Nat
  full : Nat
  bits : Tbl Nat
  bytes : Tbl (List Nat)
  regs : Tbl (Option RegSyn)
  qSum : Nat
  qN : Nat
  active : Nat
  floorRegs : Nat
  firstFloor : Nat
  fillers : Tbl Nat
  rowsDone : Tbl Bool
  conceal : Bool
  acc : Tbl Nat
  rateAcc : Tbl Nat
  dst : Nat
  syn : PicSyn
  out : List Nat
deriving DecidableEq, Repr

/-- A canvas picture whose ENC_PIC_START tasks the Shepherd has dispatched (R143, R161, R165, R166, R183, R186): its number, its kind, the canvas
picture whose input it takes, that of the picture before it, the cause of its refresh point and whether it is in the intra form, the version it re-pins to (0 none), the
version of its tasks, whether it is the first NORMAL one after a REPEAT, the first picture of its rolling cycle, and the renditions that
have still to end it. -/
structure Decided where
  c : Nat
  kind : Nat
  input : Nat
  prev : Nat
  cause : Option Nat
  intra : Bool
  repin : Nat
  version : Nat
  fresh : Bool
  roll : Option Nat
  rends : List Nat
deriving DecidableEq, Repr

/-- The private state of an encode stream (R143 to R166): the next canvas picture to be decided, the one whose input the last decided
one takes, those decided in coding order, the last
refresh point and its cause, a request and the first picture that may serve it, since when a re-pin or change waits and whether its wait has
expired, whether the last picture decided was a REPEAT, cell ages and classes, the analysis store by canvas picture * 512 + row, the overrun
history of R205, the REPEAT pictures by overrun, the start of the rolling cycle, and the pictures of a group that reached their limit
uncomposed (R186). -/
structure EncSt where
  c : Nat
  input : Nat
  decided : List Decided
  refresh : Option (Nat × Nat)
  request : Option Nat
  repinAt : Option Nat
  repinDue : Bool
  repeatRun : Bool
  ages : Tbl Nat
  cls : Tbl Nat
  ana : Tbl (List AnaRec)
  overHist : List Bool
  overs : List Nat
  roll : Option Nat
  missed : List Nat
deriving DecidableEq, Repr

/-- The task that a Lathe runs: its start, its reruns in all and of the current step, its step index, the control-store
locations that were uncorrectable in it, whether rung 1 is spent and whether its time limit has passed, the blocks that
still wait and whether they wait on the progress table (R101), in encode the words of each block still to be pushed (R111), whether the rest of an item is being popped and discarded (R118) and whether the word last popped ended its item, in encode how many words lay in the queue when its routine entered (R111), whether its routine has ended, and what its commit will do: its status, the coded bytes
of its row, its counters, damage and, of a skipped picture, metadata for the stream. -/
structure Run where
  task : QTask
  start : Nat
  reruns : Nat
  stepReruns : Nat
  steps : Nat
  uncorr : List Nat
  exhausted : Bool
  timedOut : Bool
  waiting : List BlockIn
  dep : Bool
  out : List (List BsqWord)
  dropping : Bool
  itemOver : Bool
  entered : Nat
  pos : Nat
  done : Bool
  status : Nat
  concealed : Nat
  statics : Nat
  blocks : Nat
  lost : Bool
  lossCode : Nat
  acc : Tbl Nat
  damage : Option (Nat × Nat × Nat × Nat)
  taint : Bool
  enc : Option EncPic
  encIn : Option EncRowIn
  encSt : Option EncSt
  dec : Option DecSt
  hdr : Option Hdr
  commit : Option CommitIn
deriving DecidableEq, Repr

/-- A Lathe's bitstream queue (R106 to R115): `words` are the occupied slots from MARK on, `rd` how many of them lie
before RD; the word that the feeder holds at a full queue; the feeder's states; whether a flush is pending, whether a word whose parity an injection inverted lies in the queue (R428), whether
a flush covers the words that the feeder still offers for the running task, and whether the word last stored leaves its item open (R115). -/
structure Bsq where
  words : List BsqWord
  rd : Nat
  held : Option BsqWord
  discarding : Bool
  gapWritten : Bool
  stalled : Bool
  flushPending : Bool
  inj : Bool
  flushed : Bool
  item : Bool
deriving DecidableEq, Repr

/-- A Lathe: its task queue, the pushes refused and not yet retried in their order, the running task, the descriptor and result last shown,
the last picture carried (SID, PIC_SEQ, encode), the staging words of LTH_TQ_PUSH, the bitstream queue, the control store
and dispatch RAM, the injected or latent errors of their locations, the load being verified (none, the first or the
repeat), the patrol's place, the trace buffer, and its rung-3 entries by time, since when rung 3 is active and the spare it promoted (R425), and
the bound in CK_CORE cycles of the wake that its next picture's task pays (R75) (DESIGN CHOICE, log entry 33). -/
structure Lathe where
  queue : List QTask
  retry : List QTask
  run : Option Run
  curDesc : List Nat
  lastRes : List Nat
  lastPic : Option (Nat × Nat × Bool)
  push : Tbl Nat
  bsq : Bsq
  cs : Tbl Nat
  disp : Tbl Nat
  loads : Nat
  patrol : Nat
  trace : Tbl (Nat × Nat)
  strikes : List Nat
  ladderSince : Option Nat
  spare : Option Nat
  woke : Nat
deriving DecidableEq, Repr

/-- The manifest of a master copy (R277). -/
structure Manifest where
  build : Nat
  secver : Nat
  baseId : Nat
  versions : List Nat
  closures : List Nat
  crc : Nat
deriving DecidableEq, Repr

/-- An assembled slice (R91): its number in its picture, the canvas picture, its Lathe, its Coop handle, its length and coded bytes with the
filler bytes behind it (R175), whether it ends its picture, and the bytes of it that are packetised. -/
structure Slice where
  index : Nat
  c : Nat
  lathe : Nat
  handle : Option Nat
  len : Nat
  data : List Nat
  fill : List Nat
  picLast : Bool
  pre : Nat
deriving DecidableEq, Repr

/-- The private state of a rendition: parameters and the changes of them that wait for a refresh point with since
when and from which canvas picture on (R190), those that wait for a canvas picture (R189), whether it is coded, the picture
it codes, rendition pictures since its last intra picture and in all, its last refresh point with its cause (R168), its pictures coded since then,
the latest first, those of them that are poisoned, the row costs of the previous picture, the settle counts and dirty marks of its regions, the next slice to hand on
with those assembled ahead of it (R92) and those handed on, its RTP state (R359), and the HDR metadata last emitted (R60). -/
structure Rend where
  params : Tbl Nat
  change : Tbl Nat
  changeAt : Option Nat
  changeFrom : Nat
  soon : List (Nat × Tbl Nat)
  active : Bool
  cur : Option EncPic
  n : Nat
  total : Nat
  point : Option (Nat × Nat)
  refs : List RefPic
  poisoned : List Nat
  costs : Tbl Nat
  settle : Tbl Nat
  dirty : Tbl Bool
  nextSlice : Nat
  ahead : List Slice
  ready : List Slice
  ssrc : Nat
  rtpSeq : Nat
  packets : Nat
  octets : Nat
  sent : Hdr
deriving DecidableEq, Repr

/-- A stream (R194 to R198): the fields of its context header and scheduling record, its parameters by group * 65536 +
row * 256 + value, the words of its status records and counter blocks by their offset in the context (R196), the
least W of R205 and how many pictures it has not overrun or has at W_MAX, its pictures, the command that closes it, its
DRAM traffic at the last picture boundary with the largest per picture, of the pictures in flight the W by PIC_SEQ and the rows sent
by PIC_SEQ, kind and lane (R83, R99), and its private state. -/
structure Stream where
  dir : Nat
  std : Nat
  cls : Nat
  wMax : Nat
  rends : Nat
  state : Nat
  version : Nat
  target : Nat
  canvas : Nat
  period : Nat
  equivKpx : Nat
  staticFloor : Nat
  skipFrac : Nat
  bwEst : Nat
  params : Tbl Nat
  lanes : List Nat
  shed : Nat
  migratePending : Bool
  overrun : Bool
  lastEnd : Nat
  migrations : Nat
  picsShed : Nat
  maxWait : Nat
  minW : Nat
  calm : Nat
  pics : Nat
  closeBy : Option Nat
  hot : Nat
  acct : Nat
  bwMax : Nat
  spans : Tbl Nat
  sent : Tbl Nat
  ctx : Tbl Nat
  dec : DecSt
  enc : EncSt
  rend : Tbl Rend
deriving DecidableEq, Repr

/-- The state record of a Coop buffer (R315): held, charged to its owner's reserve or not, its generation and owner; and
whether it has ever been granted since the free lists were built. -/
structure CoopBuf where
  held : Bool
  reserve : Bool
  gen : Nat
  owner : Nat
  used : Bool
deriving DecidableEq, Repr

/-- For whom a Coop request waits: the slice that Lathe n assembles, a payload received on a port, or a host command. -/
inductive CoopFor where
  | slice (n : Nat)
  | ring (p : Nat) (k : Packet)
  | host (e : Nat)
deriving DecidableEq, Repr

/-- A request that waits in the Coop (R320, R321), and since when. -/
structure CoopReq where
  whom : CoopFor
  owner : Nat
  size : Nat
  time : Nat
deriving DecidableEq, Repr

/-- The Coop (R314 to R325): the buffers' records by pool * 2^18 + index, the freed buffers of each pool, the last freed
first, and the waiting requests in the order made. -/
structure Coop where
  bufs : Tbl CoopBuf
  freed : Tbl (List Nat)
  waits : List CoopReq
deriving DecidableEq, Repr

/-- The states of a Drover channel's job. -/
inductive DrvPhase where
  | idle | asked | running | ended
deriving DecidableEq, Repr

/-- A Drover channel's job (R326 to R338): its phase, its ledger entry, the bytes of a host source and destination that
host memory has returned (each with its poison), and what its end will report. -/
structure Drv where
  phase : DrvPhase
  entry : Option Nat
  src : List (Nat × Bool)
  dst : List (Nat × Bool)
  status : Nat
  done : Nat
  first : Nat
  descending : Bool
  mismatch : Bool
  poison : Bool
  aborted : Bool
  tries : Nat
deriving DecidableEq, Repr

/-- A layer of a canvas (R231): a decode SID or a surface, its crop (none: FULL), its place, and its blending. -/
structure Layer where
  video : Bool
  sid : Nat
  surf : Surf
  crop : Option Rect
  dx : Int
  dy : Int
  dw : Nat
  dh : Nat
  alpha : Nat
  hint : Nat
  csc : Option Nat
  sync : Nat
  z : Nat
deriving DecidableEq, Repr

/-- A commit that waits in a canvas's queue (R250, R251): the command it completes, its layer changes, its fences with
whether each has been latched, and when it entered. -/
structure Commit where
  own : Nat
  recs : List LayerRec
  fences : List (Nat × Bool)
  entered : Nat
deriving DecidableEq, Repr

/-- What a video layer shows: the picture it took, when, and the picture shown before it (R233). -/
structure Shown where
  pic : Option DpbPic
  since : Nat
  before : Option DpbPic
  fresh : Bool
deriving DecidableEq, Repr

/-- A canvas picture that has an entry (R253): its number, its ledger entry, its start in ns of PTP time, the surface it
is written to, the bands written, whether it is live, and whether every cell is CHANGED. -/
structure CvPic where
  c : Nat
  entry : Nat
  start : Nat
  surf : Nat
  bands : Nat
  live : Bool
  allChanged : Bool
deriving DecidableEq, Repr

/-- A rectangle of a canvas. -/
structure CvRect where
  x : Int
  y : Int
  w : Nat
  h : Nat
deriving DecidableEq, Repr

/-- A canvas (R227 to R258): its parameters by row * 256 + value of group 6, its Inlay, its own layer stack, its commit
queue, the override set shown and the switch that waits for the next commit point, the next picture and the last started, the
COMP request that waits with whether the commits of its commit point are evaluated, the picture composing and those delivered
whose entry is held, the canvas surfaces with the base of each one's hint map, the scaled copies of each rendition, the picture
that each surface holds and the metadata of what its video layers showed (R60), the surface and picture last composed, the picture
of each decode stream at the last commit point with the one before it (SID * 2 + SYNC), what its video layers show, the rectangles that a commit
changed for the next picture and whether everything changed, the cells poisoned, and STALE. -/
structure Canvas where
  cfg : Tbl Nat
  inlay : Option Nat
  layers : List Layer
  queue : List Commit
  ovr : Option Nat
  switch : Option (Option Nat)
  c : Nat
  startAt : Nat
  picSeq : Nat
  asked : Option Nat
  judged : Bool
  cur : Option CvPic
  delivering : List CvPic
  surfs : List (Surf × Nat)
  copies : List (List Surf)
  surfC : Tbl Nat
  surfHdr : Tbl (Tbl Hdr)
  last : Option Nat
  lastPic : Option Nat
  taken : Tbl (Option DpbPic × Option DpbPic)
  shows : Tbl Shown
  rects : List CvRect
  all : Bool
  poison : Tbl Bool
  stale : Bool
deriving DecidableEq, Repr

/-- An override set (R256, R258): for each canvas named, its stack; and its OVR_REFRESH option (DESIGN CHOICE, log entry 78). -/
structure OvrSet where
  canvases : List (Nat × List Layer)
  refresh : Bool
deriving DecidableEq, Repr

/-- A display head (R255, R259 to R263): the surfaces of the picture it scans out, of the one it scanned out before and of the canvas
picture before it, its number, when its frame began, whether that frame has torn and from which line, whether it shows BACKGROUND until
the canvas's next picture, its frame count, whether its trained link waits for its next frame start, the link trainings, the EDID bytes,
and when Mvid last changed. -/
structure Head where
  shown : Option Nat
  before : Option Nat
  behind : Option Nat
  pic : Nat
  frameAt : Nat
  torn : Bool
  tornAt : Nat
  blank : Bool
  frame : Nat
  resume : Bool
  trainings : Nat
  edid : List Nat
  mvidAt : Nat
deriving DecidableEq, Repr

/-- A domain that is waking (R17, R19, R224): when it is needed, and the register accesses that wait for it. -/
structure Waking where
  need : Nat
  accs : List Access
deriving DecidableEq, Repr

/-- How a host command ends (R380, R381). -/
structure HFin where
  status : Nat
  kind : Nat
  detail : Nat
  r0 : Nat
  r1 : Nat
deriving DecidableEq, Repr

/-- A command that waits in a staging buffer (R376), with the request counter of a management request (R365). -/
structure HStaged where
  words : List Nat
  mgmt : Option MgmtFrom
deriving DecidableEq, Repr

/-- What a started command waits for: nothing, host data of so many bytes (with how it ends once they are there), a Coop
buffer, its stream's frame boundary, or a canvas's commit point. -/
inductive HWait where
  | nothing
  | data (bytes : Nat) (after : HFin)
  | buffer
  | boundary
  | point
deriving DecidableEq, Repr

/-- A fetched command that holds a HOST ledger entry (R376, R390, R393): its place in its queue's order, the timeouts of its
read, LINKs followed and bytes moved, the moves of its stream when it started, what it waits for, the data read so far, how it ended and when, and
whether its completion has been abandoned in advance (R370). -/
structure HCmd where
  q : Nat
  words : List Nat
  mgmt : Option MgmtFrom
  order : Nat
  tries : Nat
  hops : Nat
  moved : Nat
  moves : Nat
  wait : HWait
  got : List Nat
  fin : Option HFin
  since : Nat
  lost : Bool
deriving DecidableEq, Repr

/-- A host queue pair (R374, R375): its doorbells, its phase, its staging buffer, the timeouts of its fetch, and how many
commands it has started. -/
structure HQueue where
  sqTail : Nat
  cqHead : Nat
  phase : Bool
  staged : List HStaged
  tries : Nat
  started : Nat
deriving DecidableEq, Repr

/-- A ready picture that waits for a Lathe (R202): the descriptor of the task that opens it, its picture-end deadline, and since when. -/
structure ReadyPic where
  desc : List Nat
  deadline : Nat
  since : Nat
deriving DecidableEq, Repr

/-- What the Shepherd remembers between ticks (R209 to R216): the last sensor readings, since when the temperature lies below
the fall threshold, the power below the lower edge and the bandwidth level too high, the last rotation and the Lathe
that it unparks, whether parked Lathes are being woken for a fall, and the ready pictures that wait for a Lathe (R202). -/
structure Shp where
  temps : List (Option Int)
  fallSince : Option Nat
  capSince : Option Nat
  bwSince : Option Nat
  rotateAt : Nat
  rotating : Option Nat
  falling : Bool
  ready : List ReadyPic
deriving DecidableEq, Repr

/-- The machine (DESIGN CHOICE, log entry 3). -/
structure State where
  part : Part
  time : Nat
  ptpNs : Nat
  freeCtr : Nat
  flds : Tbl Nat
  cnts : Tbl Nat
  resp : Option Resp
  snaps : Tbl Nat
  restore : Tbl Nat
  flt : Flt
  evm : Evm
  nests : Tbl (List (Nat × Nat))
  vecs : Tbl Vec
  toHost : List HostMsg
  pmeEn : Bool
  pmeStatus : Bool
  ldg : Ldg
  dram : Dram
  lathes : Tbl Lathe
  disps : List Disp
  dispTag : Nat
  progress : Tbl Nat
  blks : Tbl Blk
  manifests : Tbl (Option Manifest)
  streams : Tbl Stream
  canvases : Tbl Canvas
  ovrSets : Tbl OvrSet
  heads : Tbl Head
  coop : Coop
  drvs : Tbl Drv
  bars : Tbl Nat
  perst : Bool
  wakes : Tbl (Option Waking)
  hqs : Tbl HQueue
  cmds : Tbl (Option HCmd)
  toRing : List RingOut
  ring : Ring
  life : Life
  shp : Shp
  heap : Nat
  pending : List Instr
deriving DecidableEq, Repr

/-- The DRAM controller at reset: the map in force is the reset value of DMC_REGION0 (R297) (DESIGN CHOICE, log entry 1). -/
def Dram.reset : Dram :=
  { mem := [], poison := [], errs := [], retry := [], rd := none, map := [⟨0, 1024, 0⟩], rows := [], cands := [],
    above := [], saved := [], lastSoft := [], patrol := [], ceSec := [], ceCount := [], refLast := [], refNext := [],
    coolSince := [], bw := [] }

/-- The ring unit at reset: nothing queued, nothing learnt. -/
def Ring.reset : Ring :=
  { ports := [], nets := [], cuts := [], dups := [], flows := [], arrived := [], lastAt := [], since := 0, retried := false, closed := false,
    ppb := 0, sub := 0, good := 0, everLocked := false, lastSync := [], lastAdj := 0, counter := 0, fails := [], lockUntil := none }

/-- The flash and the life cycle at reset: bank A is confirmed, bank B empty, and settings generation G0 is active with signing
slot 0, as module test leaves it (R451) (DESIGN CHOICE, log entry 9). -/
def Life.reset : Life :=
  { banks := [(0, ⟨1, 2, 0, 1, []⟩)], gens := [(0, some ⟨0, 1, 0, 1, 1, true⟩)], start := 0, factory := false, servedSince := none,
    maintSince := none, maintDay := 0, coolSince := none, withdrawn := false, restart := none, low := [], acc := 0,
    inhibit := false, running := [], marginDay := [] }

/-- The machine right after reset (DEDUCED, log entry 8; DESIGN CHOICE, log entries 9 and 124; PRESUMED, log entry 10). -/
def State.reset : State :=
  { part := .lmx7260, time := 0, ptpNs := 0, freeCtr := 0, flds := [], cnts := [], resp := none, snaps := [], restore := [],
    flt := ⟨[], [], [], [], [], [], 0, [], none⟩, evm := ⟨[], [], [], [], [], []⟩, nests := [], vecs := [], toHost := [], pmeEn := false,
    pmeStatus := false,
    ldg := ⟨[], [], 0⟩, dram := Dram.reset,
    lathes := [], disps := [], dispTag := 0, progress := [], blks := [], manifests := [], streams := [],
    canvases := [], ovrSets := [], heads := [], coop := ⟨[], [], []⟩, drvs := [], bars := [], perst := false, wakes := [], hqs := [],
    cmds := [], toRing := [], ring := Ring.reset, life := Life.reset, shp := ⟨[], none, none, none, 0, none, false, []⟩, heap := 0, pending := [] }

end Sys2Proof.Machine
end

