-- ==== Sys2Proof/Machine/Ops.lean ====
section
/-!
DEFINITION. The named operations over register fields, counters, time and the free values.
-/
namespace Sys2Proof.Machine

/-- The key of a field in the table of fields. -/
def Fld.key (f : Fld) : Nat := f.a * 32 + f.lo

/-- The value of a register field (DEDUCED, log entry 8; DESIGN CHOICE, log entry 12). -/
def State.fld (s : State) (f : Fld) : Nat := tget f.rst s.flds f.key

/-- Sets a register field; a value too wide keeps its low bits (DESIGN CHOICE, log entry 12). -/
def State.setFld (s : State) (f : Fld) (v : Nat) : State :=
  { s with flds := tset f.rst s.flds f.key (v % 2 ^ f.w) }

/-- Whether a field is nonzero. -/
def State.on (s : State) (f : Fld) : Bool := s.fld f != 0

/-- Sets bits of a field. -/
def State.orFld (s : State) (f : Fld) (m : Nat) : State := s.setFld f (s.fld f ||| m)

/-- Clears bits of a field. -/
def State.clrFld (s : State) (f : Fld) (m : Nat) : State := s.setFld f (s.fld f &&& (2 ^ f.w - 1 - m % 2 ^ f.w))

/-- Adds to a field that saturates at its width. -/
def State.satFld (s : State) (f : Fld) (n : Nat) : State := s.setFld f (satAdd (2 ^ f.w - 1) (s.fld f) n)

/-- Raises a field that keeps a maximum. -/
def State.maxFld (s : State) (f : Fld) (v : Nat) : State := if s.fld f < v then s.setFld f v else s

/-- Sets a list of fields in order. -/
def State.setFlds (s : State) : List (Fld × Nat) → State
  | [] => s
  | (f, v) :: r => (s.setFld f v).setFlds r

/-- The bits [lo + w - 1 : lo] of a word. -/
def bitsOf (v : Word) (lo w : Nat) : Nat := v.toNat / 2 ^ lo % 2 ^ w

/-- A field value that "0 behaves as 1". -/
def atLeast1 (n : Nat) : Nat := if n = 0 then 1 else n

/-- A value held between bounds ("behaves as the nearest bound"). -/
def clamp (lo hi n : Nat) : Nat := if n < lo then lo else if hi < n then hi else n

/-- The code of a requester in snapshot keys. -/
def rqIx : Requester → Nat
  | .host => 0 | .cc0 => 1 | .cc1 => 2 | .cc2 => 3 | .cc3 => 4

/-- The requester's own snapshot of the register at `addr` (R10); 0 with none taken. -/
def State.snap (s : State) (rq : Requester) (addr : Nat) : Nat := tget 0 s.snaps (rqIx rq * 2 ^ 28 + addr)

/-- Takes a snapshot for a requester. -/
def State.setSnap (s : State) (rq : Requester) (addr v : Nat) : State :=
  { s with snaps := tset 0 s.snaps (rqIx rq * 2 ^ 28 + addr) v }

/-- Answers a read (DESIGN CHOICE, log entry 13). -/
def State.answer (s : State) (rq : Requester) (addr : Nat) (v : Nat) : State :=
  { s with resp := some ⟨rq, addr, BitVec.ofNat 32 v⟩ }

/-! ## Counters -/

/-- The FREEZE field over the counter whose LO word is at `c` (R105, R226). -/
def freezeOf (c : Nat) : Fld :=
  let w := c / 0x10000
  let base := w * 0x10000
  if 0x10 ≤ w then ⟨base + 0x180, 1, 1, 0⟩
  else if w = 2 then Reg.SHP_CNT_CTRL_FREEZE
  else if w = 3 then Reg.FLT_CNT_CTRL_FREEZE
  else if w = 4 then Reg.BWT_CNT_CTRL_FREEZE
  else if w = 5 then Reg.HIF_CNT_CTRL_FREEZE
  else if w = 6 then Reg.RNG_CNT_CTRL_FREEZE
  else if w = 7 then Reg.COP_CNT_CTRL_FREEZE
  else if w = 9 then Reg.DMC_CNT_CTRL_FREEZE
  else ⟨base + 0x280, 1, 1, 0⟩

/-- The value of a 64-bit counter. -/
def State.cnt (s : State) (c : Nat) : Nat := tget 0 s.cnts c

/-- Counts `n` events, unless the unit's counters are frozen; a counter wraps at 2^64. -/
def State.bump (s : State) (c : Nat) (n : Nat := 1) : State :=
  if s.on (freezeOf c) then s else { s with cnts := tset 0 s.cnts c ((s.cnt c + n) % 2 ^ 64) }

/-- Counts in a counter that FREEZE does not hold (DMC_ACCT, R312). -/
def State.account (s : State) (c : Nat) (n : Nat) : State :=
  { s with cnts := tset 0 s.cnts c ((s.cnt c + n) % 2 ^ 64) }

/-! ## Time -/

/-- PTP time after dt microseconds, in 1e-9 ns, at the clock's rate (R353). -/
def State.ptpAfter (s : State) (dt : Nat) : Nat :=
  s.ptpNs * 1000000000 + s.ring.sub + dt * 1000 * ((1000000000 : Int) + s.ring.ppb).toNat

/-- The event happens at ledger time `now`, or now where that is past; PTP time runs on with it at its own rate (R37, R353)
(DESIGN CHOICE, log entry 2). -/
def State.at (s : State) (now : Nat) : State :=
  if s.time < now then
    let t := s.ptpAfter (now - s.time)
    { s with time := now, ptpNs := t / 1000000000, ring := { s.ring with sub := t % 1000000000 } }
  else s

/-- Microseconds since a stamp. -/
def State.since (s : State) (t : Nat) : Nat := s.time - t

/-! ## Free values -/

/-- The next free value: what the spec leaves open, which nothing in the model constrains (DESIGN CHOICE, log entry 7). -/
def State.freeVal (s : State) : Nat := Config.freeValue s.freeCtr

/-- Uses up a free value (DESIGN CHOICE, log entry 7). -/
def State.freeNext (s : State) : State := { s with freeCtr := s.freeCtr + 1 }

/-! ## Parts and modes -/

/-- How many Lathes, Inlays, heads, ring ports, DRAM channels and granules the part has (00_scope, R292). -/
def partLathes : Part → Nat
  | .lmx7260 => 26 | .lmx7242 => 14 | .lmx7221 => 7
/-- Inlays of the part. -/
def partInlays : Part → Nat
  | .lmx7260 => 2 | .lmx7242 => 1 | .lmx7221 => 1
/-- Display heads of the part. -/
def partHeads : Part → Nat
  | .lmx7260 => 4 | .lmx7242 => 2 | .lmx7221 => 2
/-- DRAM channels of the part. -/
def partChannels : Part → Nat
  | .lmx7260 => 16 | .lmx7242 => 8 | .lmx7221 => 4
/-- Bytes of usable device DRAM (R292). -/
def partUsable : Part → Nat
  | .lmx7260 => 28 * 2 ^ 30 | .lmx7242 => 14 * 2 ^ 30 | .lmx7221 => 7 * 2 ^ 30

/-- Whether Lathe n exists. -/
def State.hasLathe (s : State) (n : Nat) : Bool := n < partLathes s.part
/-- Whether Inlay i exists. -/
def State.hasInlay (s : State) (i : Nat) : Bool := i < partInlays s.part
/-- Whether head d exists. -/
def State.hasHead (s : State) (d : Nat) : Bool := d < partHeads s.part

/-- The mode (R430). -/
def State.mode (s : State) : Nat := s.fld Reg.LCM_MODE_MODE

/-- Changes the mode and records the mode left and the reason (R431). -/
def State.toMode (s : State) (m reason : Nat) : State :=
  ((s.setFld Reg.LCM_MODE_PREV s.mode).setFld Reg.LCM_MODE_MODE m).setFld Reg.LCM_MODE_REASON reason

/-- A mode in which station service runs (R430). -/
def State.inService (s : State) : Bool := s.mode = 5 || s.mode = 6 || s.mode = 7

/-- A mode whose outputs are held (R439). -/
def State.outputsHeld (s : State) : Bool := s.mode = 8 || s.mode = 9

end Sys2Proof.Machine
end

