-- ==== Sys2Proof/Machine/Events.lean ====
section
/-!
DEFINITION. What a unit's event reaches: MSI-X vectors (R389, R391), the Bellwether (R405 to R412), the event matrix
(R395 to R398) and the fault collector (R415 to R422), each as one shared operation.
-/
namespace Sys2Proof.Machine

/-! ## Vectors -/

/-- A vector with nothing counted. -/
def vec0 : Vec := ⟨0, 0, false⟩

/-- Vector v. -/
def State.vec (s : State) (v : Nat) : Vec := tget vec0 s.vecs v

/-- Sets vector v. -/
def State.setVec (s : State) (v : Nat) (x : Vec) : State := { s with vecs := tset vec0 s.vecs v x }

/-- Hands a message to the link, behind everything handed to it before (R388) (DEDUCED, log entry 121). -/
def State.send (s : State) (m : HostMsg) : State := { s with toHost := s.toHost ++ [m] }

/-- Vector v falls due (R389, R391): the count restarts; the message is sent, or the pending bit sets where the vector
is masked or the function is in D3hot, which sends a PME message if PME_En is set (DESIGN CHOICE, log entry 11). -/
def State.vecDue (s : State) (v : Nat) : State :=
  if s.fld Reg.HIF_STATUS_DSTATE = 3 then
    let s := s.setVec v ⟨0, 0, true⟩
    if s.pmeEn then ({ s with pmeStatus := true }.send .pme).bump Cnt.HIF_PME_SENT else s
  else if s.on (Reg.MSIX_CTRL_MASK v) then s.setVec v ⟨0, 0, true⟩
  else ((s.setVec v ⟨0, 0, (s.vec v).pend⟩).send (.msix v)).bump Cnt.HIF_MSIX_SENT

/-- An event counts on vector v (R389); with QUIESCE it is sent without moderation (R392). -/
def State.vecEvent (s : State) (v : Nat) : State :=
  let x := s.vec v
  let x' : Vec := ⟨x.count + 1, if x.count = 0 then s.time else x.since, x.pend⟩
  let s' := s.setVec v x'
  if atLeast1 (s.fld (Reg.HIF_VEC_MOD_COUNT v)) ≤ x'.count ∨ s.fld (Reg.HIF_VEC_MOD_TIME_US v) = 0
      ∨ s.on Reg.HIF_CTRL_QUIESCE then s'.vecDue v else s'

/-! ## Bellwether -/

/-- The state of a source, by the codes of BWT_SRC_CFG.STATE: 0 INACTIVE, 1 PENDING, 2 ACTIVE, 3 ACTIVE_PENDING. -/
def State.bst (s : State) (x : Nat) : Nat := s.fld (Reg.BWT_SRC_CFG_STATE x)

/-- Whether a target is offline (R411) (DEDUCED, log entry 21). -/
def State.offline (s : State) (t : Nat) : Bool := s.on (Reg.BWT_TGT_STATE_OFFLINE t)

/-- The stack of target t: sources claimed with the priority they were claimed at, the top first. -/
def State.stack (s : State) (t : Nat) : List (Nat × Nat) := tget [] s.nests t

/-- Sets the stack of target t. -/
def State.setStack (s : State) (t : Nat) (l : List (Nat × Nat)) : State := { s with nests := tset [] s.nests t l }

/-- A source's vector counts one event, where TH is online and the source is enabled (R412). -/
def State.thEvent (s : State) (x : Nat) : State :=
  if s.offline 4 ∨ ¬ s.on (Reg.BWT_SRC_CFG_ENABLE x) then s
  else (s.bump Cnt.BWT_TH_EVENTS).vecEvent (s.fld (Reg.BWT_SRC_CFG_VECTOR x))

/-- A source enters PENDING (R406, R412). -/
def State.bwtPend (s : State) (x : Nat) : State :=
  let s' := s.setFld (Reg.BWT_SRC_CFG_STATE x) 1
  if s.fld (Reg.BWT_SRC_CFG_TARGET x) = 4 then s'.thEvent x else s'

/-- A pulse reaches Bellwether source x (R406). -/
def State.bwtPulse (s : State) (x : Nat) : State :=
  if s.bst x = 0 then s.bwtPend x
  else if s.bst x = 2 then s.setFld (Reg.BWT_SRC_CFG_STATE x) 3
  else s.bump Cnt.BWT_REFIRE_MERGED

/-- Whether source x is presented to target t at all: its TARGET, or its FALLBACK while TARGET is offline and that
target is online (R407, R411). -/
def State.routed (s : State) (t x : Nat) : Bool :=
  s.fld (Reg.BWT_SRC_CFG_TARGET x) = t
    || (s.fld (Reg.BWT_SRC_CFG_TARGET x) ≤ 4 && s.offline (s.fld (Reg.BWT_SRC_CFG_TARGET x))
      && s.fld (Reg.BWT_SRC_CFG_FALLBACK x) = t && !s.offline t)

/-- Whether source x is claimable by target t (R407). -/
def State.claimable (s : State) (t x : Nat) : Bool :=
  s.bst x = 1 && s.on (Reg.BWT_SRC_CFG_ENABLE x) && s.routed t x
    && (match s.stack t with
        | [] => true
        | (_, rp) :: _ => rp < s.fld (Reg.BWT_SRC_CFG_PRIORITY x))

/-- The best of a list of sources: the highest priority, the lowest number between equals (R407). -/
def State.bestOf (s : State) (ok : Nat → Bool) : List Nat → Option Nat
  | [] => none
  | x :: r =>
    match s.bestOf ok r with
    | none => if ok x then some x else none
    | some y =>
      if ok x && s.fld (Reg.BWT_SRC_CFG_PRIORITY y) ≤ s.fld (Reg.BWT_SRC_CFG_PRIORITY x) then some x else some y

/-- The source that a claim of target t returns. -/
def State.bestClaim (s : State) (t : Nat) (skip : List Nat) : Option Nat :=
  s.bestOf (fun x => s.claimable t x && !skip.contains x) (upTo 0 1024)

/-- Claims source x for target t (R407). -/
def State.claim (s : State) (t x : Nat) : State :=
  let prio := s.fld (Reg.BWT_SRC_CFG_PRIORITY x)
  let fb := s.fld (Reg.BWT_SRC_CFG_TARGET x) != t
  let s := (s.setStack t ((x, prio) :: s.stack t)).setFld (Reg.BWT_SRC_CFG_STATE x) 2
  let s := (s.setFld (Reg.BWT_SRC_CFG_OWNER x) t).bump Cnt.BWT_CLAIMS
  if fb then s.bump Cnt.BWT_FALLBACK_CLAIMS else s

/-! ## The event matrix -/

/-- A stamp never taken. -/
def stamp0 : Stamp := ⟨0, 0, false, false⟩

/-- A timestamp sink latches PTP time (R398). -/
def State.latchStamp (s : State) (j : Nat) : State :=
  let x : Stamp := ⟨s.ptpNs % 1000000000, s.ptpNs / 1000000000 % 2 ^ 32, (tget stamp0 s.evm.stamps j).valid, true⟩
  { s with evm := { s.evm with stamps := tset stamp0 s.evm.stamps j x } }

/-- A pulse leaves sink k for its destination (R396) (DESIGN CHOICE, log entry 19). -/
def State.sinkOut (s : State) (k : Nat) : State :=
  if k < 192 then s.bwtPulse k
  else if k < 208 then
    if (s.fld Reg.EVM_GPIO_DIR_DIR).testBit (k - 192) then
      { s with evm := { s.evm with gpioHigh := tset false s.evm.gpioHigh (k - 192) true } }
    else s
  else if k < 240 then
    { s with evm := { s.evm with coreEvt := tset 0 s.evm.coreEvt (k - 208) (tget 0 s.evm.coreEvt (k - 208) + 1) } }
  else s.latchStamp (k - 240)

/-- A pulse of source x reaches sink k, if the sink selects it: one pulse out of DIV + 1 passes (R397). -/
def State.sinkIn (s : State) (x k : Nat) : State :=
  if s.on (Reg.EVM_SINK_EN k) && s.fld (Reg.EVM_SINK_SOURCE k) = x then
    let c := tget 0 s.evm.div k
    let c' := if c < s.fld (Reg.EVM_SINK_DIV k) then c + 1 else 0
    let s' := { s with evm := { s.evm with div := tset 0 s.evm.div k c' } }
    if c = 0 then s'.sinkOut k else s'
  else s

/-- A pulse of source x reaches each of a list of sinks. -/
def State.sinksIn (s : State) (x : Nat) : List Nat → State
  | [] => s
  | k :: r => (s.sinkIn x k).sinksIn x r

/-- Whether a source of the matrix exists: not reserved, and not of an absent unit (R395). -/
def sourcePresent (p : Part) (x : Nat) : Bool :=
  if x < 130 then x / 5 < partLathes p
  else if x < 136 then (x - 130) / 3 < partInlays p
  else if x < 140 then x - 136 < partHeads p
  else x < 178 || (192 ≤ x && x < 256)

/-- A pulse of source x enters the matrix and leaves every sink that it reaches (R398); it is counted for the tasks that wait for it (R95). -/
def State.pulse (s : State) (x : Nat) : State :=
  if sourcePresent s.part x then
    { s with evm := { s.evm with seen := tset 0 s.evm.seen x (tget 0 s.evm.seen x + 1) } }.sinksIn x (upTo 0 256)
  else s

/-- Pulses of several sources. -/
def State.pulses (s : State) : List Nat → State
  | [] => s
  | x :: r => (s.pulse x).pulses r

/-! ## The fault collector -/

/-- The class of a fault source by the codes of FLT_SRC_CFG.CLASS; none for a reserved source (R418, R459). -/
def faultClass (k : Nat) : Option Nat :=
  if k = 0 ∨ k = 2 ∨ k = 40 ∨ k = 42 then some 0
  else if k = 1 ∨ k = 41 ∨ k = 43 ∨ k = 63 then some 1
  else if k = 3 then some 3
  else if k < 60 then none
  else if k ≤ 64 then some 0
  else if k < 80 then none
  else if k < 96 then some 1
  else if k ≤ 101 then some 0
  else if k < 104 then none
  else if k = 109 then some 3
  else if k ≤ 110 then some 0
  else if k < 112 then none
  else if k ≤ 120 then some 0
  else if k < 128 then none
  else if k < 154 then some 2
  else if k < 180 then some 0
  else if k < 206 then some 1
  else if k < 232 then some 2
  else if k < 236 then some 0
  else if k < 240 then some 3
  else if k < 320 then some 0
  else if k ≤ 321 then some 1
  else if k = 323 ∨ k = 324 then some 3
  else if k = 325 ∨ k = 330 ∨ k = 331 then some 0
  else if k = 326 then some 1
  else if k = 327 then some 2
  else if 341 ≤ k ∧ k ≤ 377 then some 2
  else none

/-- Whether power domain d exists on the part (R16, R18). -/
def domainPresent (p : Part) (d : Nat) : Bool :=
  if d < 6 then true
  else if d < 8 then d - 6 < partInlays p
  else if d < 12 then d - 8 < partChannels p / 4
  else d - 12 < partLathes p

/-- Whether a fault source exists on the part (R418). -/
def faultPresent (p : Part) (k : Nat) : Bool :=
  (faultClass k).isSome &&
    (if k < 80 then true
     else if k < 96 then k - 80 < partChannels p
     else if k < 98 then k - 96 < partInlays p
     else if k < 102 then k - 98 < partHeads p
     else if k < 128 then true
     else if k < 154 then k - 128 < partLathes p
     else if k < 180 then k - 154 < partLathes p
     else if k < 206 then k - 180 < partLathes p
     else if k < 232 then k - 206 < partLathes p
     else if k < 236 then k - 232 < partChannels p / 4
     else if k < 240 then k - 236 < partChannels p / 4
     else if k < 340 then true
     else domainPresent p (k - 340))

/-- Whether a source is one of the Lathe sources that carry RETIRE_UNIT (R421). -/
def retireSource (k : Nat) : Bool :=
  (128 ≤ k && k < 154) || (206 ≤ k && k < 232) || (352 ≤ k && k < 378)

/-- FLT_SRC_CFG.IRQ of source k: reset by class (R421). -/
def fltIrq (k : Nat) : Fld := ⟨0x30800 + 4 * k, 3, 1, if faultClass k = some 0 then 0 else 1⟩
/-- FLT_SRC_CFG.RETIRE_UNIT of source k. -/
def fltRetire (k : Nat) : Fld := ⟨0x30800 + 4 * k, 4, 1, if retireSource k then 1 else 0⟩
/-- FLT_SRC_CFG.HOLD of source k. -/
def fltHold (k : Nat) : Fld := ⟨0x30800 + 4 * k, 5, 1, if faultClass k = some 3 then 1 else 0⟩

/-- The unit bits that drive a source: fields with the mask of their bits (R415). -/
def drivers (k : Nat) : List (Fld × Nat) :=
  if k = 40 then [(Reg.LGR_STATUS_HOLD_LONG, 1)]
  else if k = 41 then [(Reg.LGR_STATUS_LIVE_HELD, 1)]
  else if k = 42 then [(Reg.COP_STATUS_BAD_FREE, 1)]
  else if k = 43 then [(Reg.COP_STATUS_LIVE_WAIT, 1)]
  else if k = 60 then [(Reg.SHP_STATUS_LIVE_OVERCOMMIT, 1)]
  else if k = 61 then [(Reg.SHP_STATUS_CAP_UNMET, 1)]
  else if k = 62 then [(Reg.SHP_STATUS_BAND_CHANGED, 1)]
  else if k = 63 then [(Reg.SHP_STATUS_SENSORS_LOW, 1)]
  else if 80 ≤ k ∧ k < 96 then [(Reg.DMC_FAULT_CE_THRESH, 2 ^ (k - 80))]
  else if k = 96 ∨ k = 97 then
    [(Reg.INL_FAULT_LINEBUF (k - 96), 1), (Reg.INL_FAULT_FENCE_TIMEOUT (k - 96), 1),
     (Reg.INL_FAULT_BAND_LATE (k - 96), 1), (Reg.INL_FAULT_DROPPED (k - 96), 1), (Reg.INL_FAULT_POISON (k - 96), 1)]
  else if 98 ≤ k ∧ k < 102 then [(Reg.DP_STATUS_LINK_FAIL (k - 98), 1)]
  else if k = 104 ∨ k = 105 then [(Reg.RNG_PORT_STATUS_LINK_FAIL (k - 104), 1)]
  else if k = 106 then [(Reg.RNG_STATUS_RING_OPEN, 1)]
  else if k = 107 then [(Reg.RNG_STATUS_PTP_UNLOCK, 1)]
  else if k = 110 then [(Reg.RNG_STATUS_LIVE_DROP, 1)]
  else if k = 112 then [(Reg.HIF_FAULT_HOST_MEM, 1), (Reg.HIF_FAULT_CHAIN, 1)]
  else if k = 113 then [(Reg.HIF_FAULT_CPL_LOST, 1)]
  else if k = 114 then [(Reg.HIF_FAULT_QUEUE_ERR, 1)]
  else if k = 115 then [(Reg.HIF_FAULT_AER_UNCORR, 1)]
  else if 116 ≤ k ∧ k ≤ 120 then [(Reg.BWT_FAULT_EOI_ORDER, 2 ^ (k - 116))]
  else if 128 ≤ k ∧ k < 154 then
    [(Reg.LTH_FAULT_TASK_TIMEOUT (k - 128), 1), (Reg.LTH_FAULT_PIPE_PARITY (k - 128), 1),
     (Reg.LTH_FAULT_DESC_BAD (k - 128), 1), (Reg.LTH_FAULT_VERSION (k - 128), 1),
     (Reg.LTH_FAULT_PUSH_REFUSED (k - 128), 1)]
  else if 154 ≤ k ∧ k < 180 then [(Reg.LTH_BSQ_FAULT_PARITY (k - 154), 1)]
  else if 180 ≤ k ∧ k < 206 then
    [(Reg.SPN_FAULT_CS_CORR (k - 180), 1), (Reg.SPN_FAULT_CS_UNCORR (k - 180), 1),
     (Reg.SPN_FAULT_LOAD_RETRIED (k - 180), 1)]
  else if 206 ≤ k ∧ k < 232 then
    [(Reg.SPN_FAULT_CS_HARD (k - 206), 1), (Reg.SPN_FAULT_LOAD_FAIL (k - 206), 1),
     (Reg.SPN_FAULT_RERUN_EXHAUSTED (k - 206), 1)]
  else if 232 ≤ k ∧ k < 236 then
    [(Reg.DMC_FAULT_UE, 2 ^ (k - 232)), (Reg.DMC_FAULT_PPR_EXHAUSTED, 2 ^ (k - 232)),
     (Reg.DMC_FAULT_DRIFT, 2 ^ (k - 232))]
  else if 236 ≤ k ∧ k < 240 then [(Reg.DMC_FAULT_TRAIN_FAIL, 2 ^ (k - 236))]
  else if 341 ≤ k ∧ k ≤ 377 then [(Reg.LCM_DOMAIN_AT_LIMIT (k - 340), 1)]
  else []

/-- Whether a source is broken (R416). -/
def State.fltBroken (s : State) (k : Nat) : Bool := tget false s.flt.broken k

/-- Whether a source's sticky bit is set. -/
def State.fltSticky (s : State) (k : Nat) : Bool := tget false s.flt.sticky k

/-- Whether the cause of a source is present: some unit bit that drives it reads 1, or its level stands (R415). -/
def State.cause (s : State) (k : Nat) : Bool :=
  tget false s.flt.levels k || (drivers k).any (fun d => s.fld d.1 &&& d.2 != 0)

/-- Whether a source counts as asserted: its cause is present, or it is broken (R416) (DEDUCED, log entry 23). -/
def State.asserted (s : State) (k : Nat) : Bool := s.cause k || s.fltBroken k

/-- Whether a source has HOLD among its reactions; always so for class DEVICE (R421). -/
def State.holdSet (s : State) (k : Nat) : Bool := faultClass k = some 3 || s.on (fltHold k)

/-- FLT_STATUS.HOLD_REQ: some sticky source with HOLD set remains (R421) (DEDUCED, log entry 25; DEDUCED, log entry 111). -/
def State.holdReq (s : State) : Bool := s.flt.sticky.any (fun e => e.2 && s.holdSet e.1)

/-- A log slot that holds no record. -/
def logEnt0 : LogEnt := ⟨0, 0, false, false, 0, false, false⟩

/-- Writes a log entry, here and to the flash log (R422) (DEDUCED, log entry 26). -/
def State.logFault (s : State) (k : Nat) (injected : Bool) : State :=
  let e : LogEnt := ⟨k, (faultClass k).getD 0, s.fltBroken k, injected, s.time % 2 ^ 32, true, true⟩
  let s' := if (tget logEnt0 s.flt.log s.flt.logWr).unread then s.setFld Reg.FLT_STATUS_LOG_WRAPPED 1 else s
  { s' with flt := { s'.flt with log := tset logEnt0 s'.flt.log s'.flt.logWr e, logWr := (s'.flt.logWr + 1) % 64,
                                 flash := s'.flt.flash ++ [.fault e] } }

/-- HOLD is entered from a service, held or test mode (R431, R439). -/
def State.enterHold (s : State) (k : Nat) : State :=
  if 5 ≤ s.mode ∧ s.mode ≤ 10 ∧ s.mode ≠ 9 then s.toMode 9 (if k = 323 then 3 else 2) else s

/-- The sticky bit of source k goes from 0 to 1: a log entry, and the source's reactions (R419, R421). -/
def State.react (s : State) (k : Nat) (injected : Bool) : State :=
  let s := (s.bump Cnt.FLT_SETS).logFault k injected
  let s := { s with flt := { s.flt with sticky := tset false s.flt.sticky k true } }
  let s := if s.on (fltIrq k) then s.bwtPulse (256 + k) else s
  if s.holdSet k then s.enterHold k else s

/-- A rising edge of source k's cause at the collector (R419): it reacts, or merges while the bit is 1. -/
def State.faultEdge (s : State) (k : Nat) (injected : Bool := false) : State :=
  if faultPresent s.part k then
    if s.fltSticky k then
      { s with flt := { s.flt with count := tset 0 s.flt.count k (satAdd 255 (tget 0 s.flt.count k) 1) } }.bump
        Cnt.FLT_MERGED
    else s.react k injected
  else s

/-- A unit sets bits of its fault register that drive source k: an edge only where the source was quiet (R415). -/
def State.raise (s : State) (k : Nat) (f : Fld) (m : Nat := 1) (injected : Bool := false) : State :=
  if s.asserted k then s.orFld f m else (s.orFld f m).faultEdge k injected

/-- A unit reports a fault that it does not hold: a cause that is gone after its edge. -/
def State.note (s : State) (k : Nat) : State := if s.asserted k then s else s.faultEdge k

/-- The level of a source that no W1C bit holds rises or falls. -/
def State.level (s : State) (k : Nat) (b : Bool) : State :=
  let s' := { s with flt := { s.flt with levels := tset false s.flt.levels k b } }
  if b && !s.asserted k then s'.faultEdge k else s'

/-- A status field that drives source k takes a value: an edge where the source becomes asserted. -/
def State.status (s : State) (k : Nat) (f : Fld) (v : Nat) : State :=
  let s' := s.setFld f v
  if !s.asserted k && s'.asserted k then s'.faultEdge k else s'

end Sys2Proof.Machine
end

