-- ==== Sys2Proof/Machine/RegWrite.lean ====
section
/-!
DEFINITION. A write to the fields of a register by their access codes (R7 to R9), and the word that a register's fields
make up.
-/
namespace Sys2Proof.Machine

/-- The rows of the window that holds a BAR0 address, with the window's base (R24). -/
def winRows (a : Nat) : List RegRow × Nat :=
  let w := a / 0x10000
  if w = 0 then (idRows, 0)
  else if w = 1 then (lcmRows, 0x10000)
  else if w = 2 then (shpRows, 0x20000)
  else if w = 3 then (fltRows, 0x30000)
  else if w = 4 then (evmRows, 0x40000)
  else if w = 5 then (hifRows, 0x50000)
  else if w = 6 then (rngRows, 0x60000)
  else if w = 7 then (copRows, 0x70000)
  else if w = 8 then (drvRows, 0x80000)
  else if w = 9 then (dmcRows, 0x90000)
  else if w = 10 then (inlRows ++ in0Rows, 0xA0000)
  else if w = 11 then (inlRows, 0xB0000)
  else if 16 ≤ w ∧ w < 42 then (lthRows, w * 0x10000)
  else if w = 64 then (lgrRows, 0x400000)
  else ([], w * 0x10000)

/-- Whether a row of a window holds the register at offset o. -/
def rowHas (r : RegRow) (o : Nat) : Bool :=
  r.off ≤ o &&
    (if r.count ≤ 1 then (o - r.off) / 4 < r.words
     else (o - r.off) / r.stride < r.count && (o - r.off) % r.stride / 4 < r.words)

/-- The fields of the register at offset o of a window. -/
def rowFields (o : Nat) : List RegRow → List RegField
  | [] => []
  | r :: rest => if rowHas r o then r.fields else rowFields o rest

/-- The fields of the register at a BAR0 address; none where no register with fields is listed. -/
def regFields (a : Nat) : List RegField := rowFields (a - (winRows a).2) (winRows a).1

/-- Reset values that differ from unit to unit of one table row. -/
def rstAt (a lo rst : Nat) : Nat :=
  if a / 0x10000 = 64 then
    if 0x400010 ≤ a ∧ a < 0x400024 then (Reg.LGR_MIN_MIN ((a - 0x400010) / 4)).rst
    else if 0x400030 ≤ a ∧ a < 0x400044 then (Reg.LGR_LIVE_LIVE ((a - 0x400030) / 4)).rst
    else rst
  else if a / 0x10000 = 9 then
    if a = 0x90010 ∧ lo = 10 then 1024
    else if 0x90030 ≤ a ∧ a < 0x9003C then (Reg.DMC_AGE_LIMIT_NS ((a - 0x90030) / 4)).rst
    else rst
  else if 0x100000 ≤ a ∧ a < 0x2A0000 ∧ a % 0x10000 = 0 ∧ lo = 0 then a / 0x10000 - 16
  else if a = 0xB0000 ∧ lo = 0 then 1
  else if 0x30800 ≤ a ∧ a < 0x31000 then
    if lo = 3 then (fltIrq ((a - 0x30800) / 4)).rst
    else if lo = 4 then (fltRetire ((a - 0x30800) / 4)).rst
    else if lo = 5 then (fltHold ((a - 0x30800) / 4)).rst
    else rst
  else rst

/-- The field of a table row at an address. -/
def fieldAt (a : Nat) (f : RegField) : Fld := ⟨a, f.lo, f.w, rstAt a f.lo f.rst⟩

/-- The lock bit over the RWL fields at an address (R7). -/
def lockOf (a : Nat) : Option Fld :=
  let w := a / 0x10000
  if w = 1 then some Reg.LCM_CTRL_LOCK
  else if w = 2 then some Reg.SHP_CTRL_LOCK
  else if w = 3 then some Reg.FLT_CTRL_LOCK
  else if w = 4 then some Reg.EVM_CTRL_LOCK
  else if w = 5 then some Reg.HIF_CTRL_LOCK
  else if w = 6 then some Reg.RNG_CTRL_LOCK
  else if w = 7 then some Reg.COP_CTRL_LOCK
  else if w = 9 then some Reg.DMC_CTRL_LOCK
  else if w = 10 ∨ w = 11 then some (Reg.INL_CTRL_LOCK (w - 10))
  else if 16 ≤ w ∧ w < 42 then
    if a % 0x10000 < 0x8000 then some (Reg.LTH_CTRL_LOCK (w - 16)) else some (Reg.SPN_CTRL_LOCK (w - 16))
  else if w = 64 then some Reg.LGR_CTRL_LOCK
  else none

/-- Whether the RWL fields at an address are read-only now. -/
def State.locked (s : State) (a : Nat) : Bool :=
  match lockOf a with
  | some f => s.on f
  | none => false

/-- The power domain of the unit whose window holds an address, where that domain is restored by R21 or may sleep
(DEDUCED, log entry 15). -/
def domainOf (a : Nat) : Option Nat :=
  let w := a / 0x10000
  if w = 5 then some 3
  else if w = 10 then if 0x8000 ≤ a % 0x10000 ∧ a % 0x10000 < 0x9000 then some 5 else some 6
  else if w = 11 then some 7
  else if 16 ≤ w ∧ w < 42 then some (w - 4)
  else none

/-- Whether PD02 keeps a restore copy of the fields at an address (R21). -/
def restored (a : Nat) : Bool :=
  match domainOf a with
  | some d => d != 3
  | none => false

/-- Sets a field by software and keeps the restore copy up to date (R21). -/
def State.swSet (s : State) (f : Fld) (v : Nat) : State :=
  let s' := s.setFld f v
  if restored f.a then { s' with restore := tset 0 s'.restore f.key (v % 2 ^ f.w + 1) } else s'

/-- A field takes its part of a written word by its access code; `hw` are the W1C bits that hardware sets in the same
cycle (R7, R8). W1S and WO fields, and those named in `skip`, have rows of their own (DEDUCED, log entry 17). -/
def State.writeField (s : State) (a : Nat) (v hw : Word) (lock : Bool) (f : RegField) : State :=
  let x := bitsOf v f.lo f.w
  let g := fieldAt a f
  match f.acc with
  | .rw => s.swSet g x
  | .rwl => if lock then s else s.swSet g x
  | .w1c => (s.clrFld g x).orFld g (bitsOf hw f.lo f.w)
  | .ro | .w1s | .wo => s

/-- Each field of a list takes its part. -/
def State.writeFields (s : State) (a : Nat) (v hw : Word) (lock : Bool) : List RegField → State
  | [] => s
  | f :: r => (s.writeField a v hw lock f).writeFields a v hw lock r

/-- The fields of a register take a written word by their access codes, but for the fields whose lowest bits `skip`
lists: those are written by the rows of the table that name them. -/
def State.plainWrite (s : State) (a : Nat) (v hw : Word) (skip : List Nat := []) : State :=
  s.writeFields a v hw (s.locked a) ((regFields a).filter (fun f => !skip.contains f.lo))

/-- Several writes in order (the writes that fall in the cycle of a lock, R9). -/
def State.plainWrites (s : State) : List (Nat × Word) → State
  | [] => s
  | (a, v) :: r => (s.plainWrite a v 0).plainWrites r

/-- The word that the fields of a register make up; WO fields read 0 (R7). -/
def State.wordOf (s : State) (a : Nat) : List RegField → Nat
  | [] => 0
  | f :: r => (if f.acc = .wo then 0 else s.fld (fieldAt a f) * 2 ^ f.lo) + s.wordOf a r

end Sys2Proof.Machine
end

