-- ==== Sys2Proof/Machine/EventCmds.lean ====
section
/-!
DEFINITION. The commands of the event matrix and of the Bellwether (R395 to R412, R478).
-/
namespace Sys2Proof.Machine

/-! ## The event matrix -/

/-- SW_FENCE_PULSE: a write to EVM_SW_PULSE_LO or _HI (R395, R413): every set bit pulses its SW_FENCE source. -/
def execSwFencePulse (hi : Bool) (v : Word) (s : State) : Host.Outcome State Fault Refusal :=
  let base := 192 + (if hi then 32 else 0)
  .next (s.pulses (((upTo 0 32).filter (fun b => v.toNat.testBit b)).map (fun b => base + b)))

/-- SINK_WRITE of EVM_SINK k (R397): the fields are RWL; the divide counter restarts, and a GPIO output whose sink has EN = 0
drives low (R478) (DEDUCED, log entry 20). -/
def execSinkWrite (k : Nat) (v : Word) (s : State) : Host.Outcome State Fault Refusal :=
  if 256 ≤ k ∨ s.on Reg.EVM_CTRL_LOCK then .next s
  else
    let s := s.plainWrite (0x40400 + 4 * k) v 0
    let high := if 192 ≤ k ∧ k < 208 ∧ ¬ s.on (Reg.EVM_SINK_EN k) then tset false s.evm.gpioHigh (k - 192) false
      else s.evm.gpioHigh
    .next { s with evm := { s.evm with div := tset 0 s.evm.div k 0, gpioHigh := high } }

/-- The source half of an asynchronous crossing takes a pulse of source x (R401); in RESET, where the matrix is in reset, it is
dropped and counted (R404), and in ABSENT nothing counts (DESIGN CHOICE, log entry 18). -/
def State.xingPulse (s : State) (x : Nat) : State :=
  if s.mode = 0 then s
  else if s.mode = 1 then s.satFld (Reg.EVM_SRC_STAT_DROPPED x) 1
  else match tget .idle s.evm.xing x with
  | .idle => { s with evm := { s.evm with xing := tset .idle s.evm.xing x .busy } }
  | .busy => { s with evm := { s.evm with xing := tset .idle s.evm.xing x .busyPending } }
  | .busyPending => s.satFld (Reg.EVM_SRC_STAT_MERGED x) 1

/-- CROSSING_DELIVERY of source x (R401): the destination half delivers one pulse, and the acknowledge frees the source half
or sends the pulse that it held (DESIGN CHOICE, log entry 18). -/
def execCrossingDelivery (src : Nat) (s : State) : Host.Outcome State Fault Refusal :=
  match tget .idle s.evm.xing src with
  | .idle => .next s
  | .busy => .next ({ s with evm := { s.evm with xing := tset .idle s.evm.xing src .idle } }.pulse src)
  | .busyPending => .next ({ s with evm := { s.evm with xing := tset .idle s.evm.xing src .busy } }.pulse src)

/-- Word 0 of a stamp. -/
def stampWord (x : Stamp) : Nat := x.ns + (if x.above then 2 ^ 30 else 0) + (if x.valid then 2 ^ 31 else 0)

/-- STAMP_READ of EVM_STAMP j, word 0 (R398, R413): a snapshot of word 1, and VALID and OVERWRITTEN clear. -/
def execStampRead (rq : Requester) (j : Nat) (s : State) : Host.Outcome State Fault Refusal :=
  if 16 ≤ j then .next s
  else
    let a := 0x40C00 + 8 * j
    let x := tget stamp0 s.evm.stamps j
    let s := (s.setSnap rq (a + 4) x.secs).answer rq a (stampWord x)
    .next { s with evm := { s.evm with stamps := tset stamp0 s.evm.stamps j { x with above := false, valid := false } } }

/-- The outputs that stay high: those of pins that are outputs. -/
def keepHigh (dir : Nat) (t : Tbl Bool) : Tbl Bool := tclear (fun g => !dir.testBit g) t

/-- GPIO_DIR_WRITE (R478): an output that becomes an input drives nothing any more. -/
def execGpioDirWrite (v : Word) (s : State) : Host.Outcome State Fault Refusal :=
  let s := s.plainWrite 0x40030 v 0
  .next { s with evm := { s.evm with gpioHigh := keepHigh (s.fld Reg.EVM_GPIO_DIR_DIR) s.evm.gpioHigh } }

/-- GPIO_INPUT_EDGE (R395, R478): a debounced rising edge of an input pin enters the crossing of its source; an output pin
drives no source. -/
def execGpioInputEdge (g : Nat) (s : State) : Host.Outcome State Fault Refusal :=
  .next (if g < 16 ∧ ¬ (s.fld Reg.EVM_GPIO_DIR_DIR).testBit g then s.xingPulse (161 + g) else s)

/-- GPIO_PULSE_END (R396): the pulse of 1 µs of an output ends. -/
def execGpioPulseEnd (g : Nat) (s : State) : Host.Outcome State Fault Refusal :=
  .next { s with evm := { s.evm with gpioHigh := tset false s.evm.gpioHigh g false } }

/-! ## The Bellwether -/

/-- BWT_SOURCE_PULSE (R406). -/
def execBwtSourcePulse (x : Nat) (s : State) : Host.Outcome State Fault Refusal :=
  .next (if x < 1024 then s.bwtPulse x else s)

/-- Pulses reach several Bellwether sources. -/
def State.bwtPulses (s : State) : List Nat → State
  | [] => s
  | x :: r => (if x < 1024 then s.bwtPulse x else s).bwtPulses r

/-- Whether a requester owns target t (R408): T0 to T3 belong to CC0 to CC3, TH to the host. -/
def owns (rq : Requester) (t : Nat) : Bool :=
  match rq with
  | .cc0 => t = 0
  | .cc1 => t = 1
  | .cc2 => t = 2
  | .cc3 => t = 3
  | .host => t = 4

/-- The source that goes to a target claiming in the same cycle, where that target is the one its TARGET names (R409). -/
def State.rivalTakes (s : State) (t : Nat) : Option Nat → List Nat
  | none => []
  | some r =>
    match s.bestClaim r [] with
    | some x => if s.fld (Reg.BWT_SRC_CFG_TARGET x) = r ∧ r ≠ t then [x] else []
    | none => []

/-- BWT_CLAIM: a read of BWT_CLAIM(t) (R407, R409). A claim sees no pulse of its own cycle that an INACTIVE source takes; of
two targets claiming one source in a cycle, the one its TARGET names has it. -/
def execBwtClaim (rq : Requester) (t : Nat) (pulsed : List Nat) (rival : Option Nat) (s : State) :
    Host.Outcome State Fault Refusal :=
  let a := 0x44040 + 4 * t
  if owns rq t then
    let late := pulsed.filter (fun x => s.bst x = 0)
    let s := s.bwtPulses (pulsed.filter (fun x => s.bst x != 0))
    match s.bestClaim t (s.rivalTakes t rival) with
    | some x =>
      let p := s.fld (Reg.BWT_SRC_CFG_PRIORITY x)
      .next (((s.claim t x).answer rq a (x + p * 2 ^ 10 + 2 ^ 31)).bwtPulses late)
    | none => .next ((s.answer rq a 0).bwtPulses late)
  else .next (((s.setFld Reg.BWT_FAULT_FOREIGN 1).answer rq a 0).bwtPulses pulsed)

/-- The top of target t's stack ends (R408): it is popped and its source changes state. -/
def State.endTop (s : State) (t x : Nat) : State :=
  let s := s.setStack t ((s.stack t).drop 1)
  if s.bst x = 3 then s.bwtPend x else s.setFld (Reg.BWT_SRC_CFG_STATE x) 0

/-- BWT_EOI: a write of BWT_EOI(t) (R408, R409): only the top of the stack can be ended; a pulse of the cycle applies as
well. -/
def execBwtEoi (rq : Requester) (t : Nat) (v : Word) (pulsed : Bool) (s : State) : Host.Outcome State Fault Refusal :=
  let x := bitsOf v 0 10
  let s := if pulsed then s.bwtPulse x else s
  if owns rq t then
    if (s.stack t).head?.map (fun e => e.1) = some x then .next (s.endTop t x)
    else .next ((s.bump Cnt.BWT_EOI_REFUSED).raise (116 + t) Reg.BWT_FAULT_EOI_ORDER (2 ^ t))
  else .next (s.setFld Reg.BWT_FAULT_FOREIGN 1)

/-- Whether a requester may pulse a source through BWT_SET (R405). -/
def maySet (rq : Requester) (x : Nat) : Bool :=
  (192 ≤ x && x < 256) || (768 ≤ x && x < 1024 && rq != .host)

/-- BWT_SET (R405, R414). -/
def execBwtSet (rq : Requester) (v : Word) (s : State) : Host.Outcome State Fault Refusal :=
  let x := bitsOf v 0 10
  .next (if maySet rq x then s.bwtPulse x else s.setFld Reg.BWT_FAULT_FOREIGN 1)

/-- BWT_CLEAR (R406, R409): a pulse of the cycle wins. -/
def execBwtClear (v : Word) (pulsed : Bool) (s : State) : Host.Outcome State Fault Refusal :=
  let x := bitsOf v 0 10
  .next (if pulsed then s.bwtPulse x
    else if s.bst x = 1 then s.setFld (Reg.BWT_SRC_CFG_STATE x) 0
    else if s.bst x = 3 then s.setFld (Reg.BWT_SRC_CFG_STATE x) 2
    else s)

/-- BWT_SRC_CFG_WRITE (R410, R412): a PENDING source that is retargeted to TH, or enabled for it, counts one event. -/
def execBwtSrcCfgWrite (x : Nat) (v : Word) (s : State) : Host.Outcome State Fault Refusal :=
  if 1024 ≤ x then .next s
  else
    let was := s.on (Reg.BWT_SRC_CFG_ENABLE x) && s.fld (Reg.BWT_SRC_CFG_TARGET x) = 4
    let s := s.plainWrite (0x48000 + 4 * x) v 0
    .next (if s.bst x = 1 ∧ s.fld (Reg.BWT_SRC_CFG_TARGET x) = 4 ∧ ¬ was then s.thEvent x else s)

/-- Each source of a stack returns to PENDING (R411). -/
def State.requeue (s : State) : List (Nat × Nat) → State
  | [] => s
  | (x, _) :: r => ((s.bwtPend x).bump Cnt.BWT_REQUEUED).requeue r

/-- Each of a list of sources counts one event on its vector, where TH is online and it is enabled (R412). -/
def State.thEvents (s : State) : List Nat → State
  | [] => s
  | x :: r => (s.thEvent x).thEvents r

/-- Target t goes offline (R411, R412) (DEDUCED, log entry 21). -/
def State.goOffline (s : State) (t : Nat) : State :=
  if s.offline t then s
  else
    let st := s.stack t
    let s := (s.setFld (Reg.BWT_TGT_STATE_OFFLINE t) 1).setStack t []
    let s := s.requeue st
    s.thEvents ((upTo 0 1024).filter (fun x =>
      s.bst x = 1 && s.fld (Reg.BWT_SRC_CFG_FALLBACK x) = 4 && t != 4
        && (s.fld (Reg.BWT_SRC_CFG_TARGET x) = t
            || (st.any (fun e => e.1 = x) && s.fld (Reg.BWT_SRC_CFG_TARGET x) != 4 && s.routed 4 x))))

/-- TARGET_OFFLINE (R411). -/
def execTargetOffline (t : Nat) (s : State) : Host.Outcome State Fault Refusal :=
  .next (if t < 5 then s.goOffline t else s)

/-- TARGET_ONLINE (R411): the sources that are PENDING for TH count one event each when TH comes back. -/
def execTargetOnline (t : Nat) (s : State) : Host.Outcome State Fault Refusal :=
  if t < 5 ∧ s.offline t then
    let s := s.setFld (Reg.BWT_TGT_STATE_OFFLINE t) 0
    .next (if t = 4 then s.thEvents ((upTo 0 1024).filter (fun x => s.bst x = 1 && s.routed 4 x)) else s)
  else .next s

end Sys2Proof.Machine
end

