-- ==== Sys2Proof/Machine/Ledger.lean ====
section
/-!
DEFINITION. The operation ledger (R27 to R38): buckets, requests in their order, grants and releases.
-/
namespace Sys2Proof.Machine

/-- The number of a class (R36, R38). -/
def clsIx : LClass → Nat
  | .host => 0 | .task => 1 | .comp => 2 | .net => 3 | .dma => 4

/-- The five classes. -/
def allCls : List LClass := [.host, .task, .comp, .net, .dma]

/-- Entry n, if it is held. -/
def State.lent (s : State) (n : Nat) : Option LEnt := tget none s.ldg.entries n

/-- Entries of a class charged to a bucket, in a table. -/
def ldgCount (c : LClass) (b : Bucket) : Tbl (Option LEnt) → Nat
  | [] => 0
  | (_, some e) :: r => (if e.cls = c ∧ e.bucket = b then 1 else 0) + ldgCount c b r
  | (_, none) :: r => ldgCount c b r

/-- LGR_HELD: entries held by a class, all buckets. -/
def State.ldgHeld (s : State) (c : LClass) : Nat :=
  ldgCount c .live s.ldg.entries + ldgCount c .general s.ldg.entries + ldgCount c .shared s.ldg.entries

/-- MIN_c (R29). -/
def State.lgrMin (s : State) (c : LClass) : Nat := s.fld (Reg.LGR_MIN_MIN (clsIx c))

/-- LIVE_c (R29). -/
def State.lgrLive (s : State) (c : LClass) : Nat := s.fld (Reg.LGR_LIVE_LIVE (clsIx c))

/-- The sum of the MIN_c. -/
def State.lgrMinSum (s : State) : Nat :=
  s.lgrMin .host + s.lgrMin .task + s.lgrMin .comp + s.lgrMin .net + s.lgrMin .dma

/-- Shared entries held by all classes. -/
def State.sharedHeld (s : State) : Nat :=
  ldgCount .host .shared s.ldg.entries + ldgCount .task .shared s.ldg.entries + ldgCount .comp .shared s.ldg.entries
    + ldgCount .net .shared s.ldg.entries + ldgCount .dma .shared s.ldg.entries

/-- Free entries of a bucket of class c (R29, R35: a bucket over its size has none). -/
def State.bucketFree (s : State) (c : LClass) : Bucket → Nat
  | .live => s.lgrLive c - ldgCount c .live s.ldg.entries
  | .general => (s.lgrMin c - s.lgrLive c) - ldgCount c .general s.ldg.entries
  | .shared => (131072 - s.lgrMinSum) - s.sharedHeld

/-- Entries that requests ahead take from a bucket: a bucket of a class, or the one shared pool. -/
def takenBy (c : LClass) (b : Bucket) : List (LClass × Bucket) → Nat
  | [] => 0
  | (c', b') :: r => (if b' = b ∧ (b = .shared ∨ c' = c) then 1 else 0) + takenBy c b r

/-- How many entries are held (R28). -/
def State.ldgAll (s : State) : Nat := s.ldgHeld .host + s.ldgHeld .task + s.ldgHeld .comp + s.ldgHeld .net + s.ldgHeld .dma

/-- The first bucket, in R30's order, that has a free entry which the request may use, after those taken ahead; none once every entry
is held, whatever the buckets' sizes (R28). -/
def State.bucketFor (s : State) (c : LClass) (live : Bool) (ahead : List (LClass × Bucket)) : Option Bucket :=
  if 131072 ≤ s.ldgAll + ahead.length then none
  else if live && takenBy c .live ahead < s.bucketFree c .live then some .live
  else if takenBy c .general ahead < s.bucketFree c .general then some .general
  else if takenBy c .shared ahead < s.bucketFree c .shared then some .shared
  else none

/-- Whether request a is granted ahead of request b, where they differ (R32); equal ones keep the order made. Age counts in microseconds:
requests of one microsecond are of equal age (DESIGN CHOICE, log entry 119). -/
def reqBefore (a b : LReq) : Bool :=
  if a.live != b.live then a.live
  else if a.time ≠ b.time then a.time < b.time
  else if a.cls ≠ b.cls then clsIx a.cls < clsIx b.cls
  else a.origin < b.origin

/-- Puts a request at its place, ahead of its equals that were made later. -/
def reqInsert (x : LReq) : List LReq → List LReq
  | [] => [x]
  | y :: r => if reqBefore y x then y :: reqInsert x r else x :: y :: r

/-- The requests in the order of R32. -/
def reqSort : List LReq → List LReq
  | [] => []
  | x :: r => reqInsert x (reqSort r)

/-- The sorted requests, each with the bucket that can serve it after the requests granted ahead of it in the cycle, of which there are at
most two; none where it is held (R32). -/
def State.reqPlan (s : State) : List LReq → List (LClass × Bucket) → List (LReq × Option Bucket)
  | [], _ => []
  | x :: r, ahead =>
    match s.bucketFor x.cls x.live ahead with
    | some b => (x, some b) :: s.reqPlan r (if ahead.length < 2 then (x.cls, b) :: ahead else ahead)
    | none => (x, none) :: s.reqPlan r ahead

/-- The plan of all waiting requests. -/
def State.plan (s : State) : List (LReq × Option Bucket) := s.reqPlan (reqSort s.ldg.reqs) []

/-- Whether a request is held in a plan. -/
def planHeld (x : LReq) : List (LReq × Option Bucket) → Bool
  | [] => false
  | (y, b) :: r => if y.cls = x.cls ∧ y.tag = x.tag then b.isNone else planHeld x r

/-- Judges the waiting requests (R31, R32): one that no permitted bucket can serve is held from now on, a live one sets
LIVE_HELD and raises FS041, and one of class HOST counts in LEDGER_HOLDS. -/
def State.judge (s : State) : State :=
  let p := s.plan
  let newly := s.ldg.reqs.filter (fun x => x.held.isNone && planHeld x p)
  let reqs := s.ldg.reqs.map (fun x => if x.held.isNone && planHeld x p then { x with held := some s.time } else x)
  let s := { s with ldg := { s.ldg with reqs := reqs } }
  let s := if newly.any (fun x => x.live) then s.raise 41 Reg.LGR_STATUS_LIVE_HELD else s
  s.bump Cnt.HIF_LEDGER_HOLDS (newly.filter (fun x => x.cls = .host)).length

/-- A producer asks for an entry (R27, R32); `tag` names its operation within the class. -/
def State.ask (s : State) (c : LClass) (live : Bool) (origin tag : Nat) : State :=
  let x : LReq := ⟨c, live, origin, tag, s.time, none⟩
  { s with ldg := { s.ldg with reqs := s.ldg.reqs ++ [x] } }.judge

/-- The waiting request of a producer's operation. -/
def State.reqOf (s : State) (c : LClass) (tag : Nat) : Option LReq :=
  s.ldg.reqs.find? (fun x => x.cls = c && x.tag = tag)

/-- Withdraws a waiting request. -/
def State.withdraw (s : State) (c : LClass) (tag : Nat) : State :=
  { s with ldg := { s.ldg with reqs := s.ldg.reqs.filter (fun x => ¬ (x.cls = c ∧ x.tag = tag)) } }

/-- The bucket that can serve the operation's waiting request; none where that is held (R31). -/
def State.servable (s : State) (c : LClass) (tag : Nat) : Option Bucket :=
  (s.plan.find? (fun x => x.1.cls = c && x.1.tag = tag)).bind (fun x => x.2)

/-- The bucket from which the operation's request is granted now: that of the first request in the order of R32 that a bucket can serve,
where it is the operation's. The grants of a cycle are commands of their own, each at its place in the order (DESIGN CHOICE, log entry 119). -/
def State.grantBucket (s : State) (c : LClass) (tag : Nat) : Option Bucket :=
  match s.plan.find? (fun x => x.2.isSome) with
  | some x => if x.1.cls = c ∧ x.1.tag = tag then x.2 else none
  | none => none

/-- The least number from `k` on that is not held, looking at `fuel` numbers. -/
def leastFree (t : Tbl (Option LEnt)) (k : Nat) : Nat → Nat
  | 0 => k
  | fuel + 1 => if (tget none t k).isNone then k else leastFree t (k + 1) fuel

/-- The entry number that the next grant takes: any entry that is not held (R32), by a free value (DESIGN CHOICE, log entry 6). -/
def State.nextEntry (s : State) : Nat :=
  let n := Config.freeEntry s.ldg.free % 131072
  if (s.lent n).isNone then n else leastFree s.ldg.entries 0 s.ldg.entries.length

/-- Grants the operation's request from bucket b (R30, R32): the entry is charged to b and holds STATE and words 2 to
15; the class's PEAK follows. The entry's number is `nextEntry`. -/
def State.grant (s : State) (c : LClass) (tag : Nat) (b : Bucket) (state : Nat) (words : List Nat) : State :=
  let r := (s.reqOf c tag).getD ⟨c, false, 0, tag, s.time, none⟩
  let e : LEnt := ⟨c, b, r.live, state, r.origin, s.time % 2 ^ 32, words⟩
  let n := s.nextEntry
  let s := s.withdraw c tag
  let s := { s with ldg := { s.ldg with entries := tset none s.ldg.entries n (some e), free := s.ldg.free + 1 } }
  (s.maxFld (Reg.LGR_PEAK_PEAK (clsIx c)) (s.ldgHeld c)).judge

/-- Releases entry n to the bucket it was charged to (R30, R32). -/
def State.release (s : State) (n : Nat) : State :=
  { s with ldg := { s.ldg with entries := tset none s.ldg.entries n none } }

/-- Sets the STATE of a held entry. -/
def State.setLState (s : State) (n state : Nat) : State :=
  match s.lent n with
  | some e => { s with ldg := { s.ldg with entries := tset none s.ldg.entries n (some { e with state := state }) } }
  | none => s

/-- Sets words 2 to 15 of a held entry. -/
def State.setLWords (s : State) (n : Nat) (words : List Nat) : State :=
  match s.lent n with
  | some e => { s with ldg := { s.ldg with entries := tset none s.ldg.entries n (some { e with words := words }) } }
  | none => s

/-- LGR_WAIT: requests of a class currently held. -/
def State.ldgWait (s : State) (c : LClass) : Nat :=
  (s.ldg.reqs.filter (fun x => x.cls = c && x.held.isSome)).length

/-- The code of a bucket in word 0 (R38). -/
def bucketIx : Bucket → Nat
  | .live => 0 | .general => 1 | .shared => 2

/-- Word w of entry image n (R38). -/
def State.lgrWord (s : State) (n w : Nat) : Nat :=
  match s.lent n with
  | none => 0
  | some e =>
    if w = 0 then
      1 + clsIx e.cls * 2 + bucketIx e.bucket * 16 + (if e.live then 64 else 0) + e.state % 256 * 256
        + e.origin % 65536 * 65536
    else if w = 1 then e.time
    else nth 0 e.words (w - 2) % 2 ^ 32

end Sys2Proof.Machine
end

