-- ==== Sys2Proof/Machine/Lathes.lean ====
section
/-!
DEFINITION. What a Lathe holds: its parts by name, the fields of a descriptor (R96), its control store and dispatch
(R265 to R281) and its trace (R289).
-/
namespace Sys2Proof.Machine

/-- An empty bitstream queue. -/
def bsq0 : Bsq := ⟨[], 0, none, false, false, false, false, false, false, false⟩

/-- A Lathe as its domain's reset leaves it. -/
def lathe0 : Lathe :=
  { queue := [], retry := [], run := none, curDesc := [], lastRes := [], lastPic := none, push := [], bsq := bsq0,
    cs := [], disp := [], loads := 0, patrol := 0, trace := [], strikes := [], ladderSince := none, spare := none, woke := 0 }

/-- Lathe n. -/
def State.lth (s : State) (n : Nat) : Lathe := tget lathe0 s.lathes n

/-- Sets Lathe n. -/
def State.setLth (s : State) (n : Nat) (l : Lathe) : State := { s with lathes := tset lathe0 s.lathes n l }

/-- The power state of domain d (R17): 0 ON, 1 IDLE, 2 RET, 3 OFF. -/
def pdStateF (d : Nat) : Fld := ⟨0x20080 + 4 * (d / 16), 2 * (d % 16), 2, 0⟩

/-- The power state of a domain. -/
def State.pd (s : State) (d : Nat) : Nat := s.fld (pdStateF d)

/-- Bit n of a mask of Lathes. -/
def State.inMask (s : State) (f : Fld) (n : Nat) : Bool := (s.fld f).testBit n

/-- The role of a Lathe, by the SHP_LT masks (R225): 0 SERVICE, 1 SPARE, 2 MAINTENANCE, 3 RETIRED. -/
def State.role (s : State) (n : Nat) : Nat :=
  if s.inMask Reg.SHP_LT_RETIRED_MASK n then 3
  else if s.inMask Reg.SHP_LT_MAINT_MASK n then 2
  else if s.inMask Reg.SHP_LT_SPARE_MASK n then 1
  else 0

/-! ## Descriptors -/

/-- Bits of a 32-bit number. -/
def nbits (v lo w : Nat) : Nat := v / 2 ^ lo % 2 ^ w

/-- Word k of a descriptor. -/
def dw (d : List Nat) (k : Nat) : Nat := nth 0 d k

/-- The fields of a task descriptor (R96). -/
def dOpcode (d : List Nat) : Nat := nbits (dw d 0) 0 8
def dSid (d : List Nat) : Nat := nbits (dw d 0) 8 9
def dLive (d : List Nat) : Bool := nbits (dw d 0) 17 1 = 1
def dSpanM1 (d : List Nat) : Nat := nbits (dw d 0) 18 3
def dLane (d : List Nat) : Nat := nbits (dw d 0) 21 3
def dRend (d : List Nat) : Nat := nbits (dw d 0) 24 2
def dSliceLast (d : List Nat) : Bool := nbits (dw d 0) 26 1 = 1
def dPicLast (d : List Nat) : Bool := nbits (dw d 0) 27 1 = 1
def dPicSeq (d : List Nat) : Nat := nbits (dw d 1) 0 16
def dRow (d : List Nat) : Nat := nbits (dw d 1) 16 9
def dVersion (d : List Nat) : Nat := nbits (dw d 2) 0 8
def dEffort (d : List Nat) : Nat := nbits (dw d 2) 8 2
def dStd (d : List Nat) : Nat := nbits (dw d 2) 10 2
def dLag (d : List Nat) : Nat := nbits (dw d 2) 16 8
def dDeadline (d : List Nat) : Nat := dw d 3
def dCtx (d : List Nat) : Nat := dw d 6 + 2 ^ 32 * nbits (dw d 7) 0 3
def dSrc (d : List Nat) : Nat := dw d 8 + 2 ^ 32 * nbits (dw d 9) 0 3
def dDst (d : List Nat) : Nat := dw d 10 + 2 ^ 32 * nbits (dw d 11) 0 3
def dAux (d : List Nat) : Nat := dw d 12 + 2 ^ 32 * nbits (dw d 13) 0 3
def dTag (d : List Nat) : Nat := nbits (dw d 14) 0 16
def dCheck (d : List Nat) : Nat := nbits (dw d 15) 0 16

/-- One bit of the CRC-16 of R96: polynomial 0x1021, most significant bit first. -/
def crc16Bit (c : Nat) : Nat := if c < 0x8000 then c * 2 else Nat.xor (c * 2 % 0x10000) 0x1021

/-- One byte of the CRC-16. -/
def crc16Byte (c b : Nat) : Nat :=
  crc16Bit (crc16Bit (crc16Bit (crc16Bit (crc16Bit (crc16Bit (crc16Bit (crc16Bit (Nat.xor c (b % 256 * 256)))))))))

/-- The CRC-16 of R96 over bytes. -/
def crc16 : Nat → List Nat → Nat
  | c, [] => c
  | c, b :: r => crc16 (crc16Byte c b) r

/-- Bytes 0 to 59 of a descriptor. -/
def descBytes (d : List Nat) : List Nat := (upTo 0 60).map (fun k => dw d (k / 4) / 256 ^ (k % 4) % 256)

/-- Whether an opcode lies in the encode and analysis range (R268). -/
def encOpcode (op : Nat) : Bool := 0x30 ≤ op && op < 0x60

/-- Whether an opcode's task carries a picture (R75): decode, encode or context. -/
def carriesPicture (op : Nat) : Bool := 0x10 ≤ op && op < 0x80

/-- Whether a reserved field of a descriptor is nonzero (R96). -/
def descReserved (d : List Nat) : Bool :=
  nbits (dw d 0) 28 4 != 0 || nbits (dw d 1) 25 7 != 0 || nbits (dw d 2) 12 4 != 0 || nbits (dw d 2) 24 8 != 0
    || nbits (dw d 7) 3 29 != 0 || nbits (dw d 9) 3 29 != 0 || nbits (dw d 11) 3 29 != 0 || nbits (dw d 13) 3 29 != 0
    || nbits (dw d 14) 16 16 != 0 || nbits (dw d 15) 16 16 != 0

/-- Whether an address is outside device DRAM or not aligned. -/
def badAddr (p : Part) (a align : Nat) : Bool := partUsable p ≤ a || a % align != 0

/-- Whether an address of the descriptor fails R97; an address that R96 sets to 0 for the opcode is not checked. -/
def descBadAddr (p : Part) (d : List Nat) : Bool :=
  let op := dOpcode d
  badAddr p (dCtx d) 4096 || badAddr p (dDst d) 256
    || ((encOpcode op || op = 0x13 || op = 0x14) && badAddr p (dSrc d) 256)
    || (encOpcode op && badAddr p (dAux d) 32)

/-- Whether the part can encode a standard (R5, R97): 0 HEVC, 1 VVC, 2 AV1, 3 H.264. -/
def canEncode (p : Part) (std : Nat) : Bool := std = 0 || std = 2 || (std = 1 && p = .lmx7260)

/-- The version slot that holds a decision version (R270). -/
def State.slotOf (s : State) (n v : Nat) : Option Nat :=
  firstWith (fun k => s.on (Reg.SPN_VSLOT_VALID n k) && s.fld (Reg.SPN_VSLOT_VERSION n k) = v) (upTo 0 4)

/-- The checks of R97 in their order: the status of the first that fails, or OK (DEDUCED, log entry 34). -/
def State.descCheck (s : State) (n : Nat) (d : List Nat) : Nat :=
  if crc16 0xFFFF (descBytes d) ≠ dCheck d then 2
  else if descReserved d ∨ dEffort d = 3 ∨ dSpanM1 d < dLane d ∨ descBadAddr s.part d then 2
  else if encOpcode (dOpcode d) ∧ ¬ canEncode s.part (dStd d) then 1
  else if encOpcode (dOpcode d) ∧ (s.slotOf n (dVersion d)).isNone then 11
  else 0

/-- The index of the dispatch entry of a task (R269, R270). -/
def State.dispIx (s : State) (n : Nat) (d : List Nat) : Nat :=
  if encOpcode (dOpcode d) then 256 + 64 * (s.slotOf n (dVersion d)).getD 0 + (dOpcode d - 0x30) else dOpcode d

/-- The dispatch entry of a task. -/
def State.dispEntry (s : State) (n : Nat) (d : List Nat) : Nat := tget 0 (s.lth n).disp (s.dispIx n d)

/-- The control-store word at which the task's routine starts. -/
def State.entryPc (s : State) (n : Nat) (d : List Nat) : Nat := nbits (s.dispEntry n d) 0 12

/-! ## Trace -/

/-- Writes a trace record (R289) (DESIGN CHOICE, log entry 36). -/
def State.traceRec (s : State) (n event : Nat) (d : List Nat) (pc step : Nat) : State :=
  if s.on (Reg.SPN_TRACE_CTRL_EN n) then
    let k := s.fld (Reg.SPN_TRACE_CTRL_WR_PTR n)
    let w0 := pc % 4096 + dOpcode d * 4096 + event * 2 ^ 20 + (if encOpcode (dOpcode d) then 2 ^ 23 else 0)
      + step % 256 * 2 ^ 24
    let l := s.lth n
    let s := s.freeNext.setLth n { l with trace := tset (0, 0) l.trace k (w0, s.freeVal % 2 ^ 32) }
    let s := s.setFld (Reg.SPN_TRACE_CTRL_WR_PTR n) (k + 1)
    if k = 255 then s.setFld (Reg.SPN_TRACE_CTRL_WRAPPED n) 1 else s
  else s

/-- With FREEZE_ON_FAULT the first hard fault stops recording and clears EN (R289), in the restore copy too: the field held 0 when the
domain went down (R21). -/
def State.traceFreeze (s : State) (n : Nat) : State :=
  if s.on (Reg.SPN_TRACE_CTRL_FREEZE_ON_FAULT n) then s.swSet (Reg.SPN_TRACE_CTRL_EN n) 0 else s

/-! ## The control store -/

/-- A correctable read of location loc is corrected in flight and written back (R266). -/
def State.csCorrect (s : State) (n loc : Nat) (d : List Nat) (pc : Nat) (injected : Bool) : State :=
  let s := (s.setFlds [(Reg.SPN_ERR_ADDR_ADDR n, loc), (Reg.SPN_ERR_ADDR_UNCORR n, 0)]).bump (Cnt.SPN_CS_CORRECTED n)
  (s.traceRec n 6 d pc 0).raise (180 + n) (Reg.SPN_FAULT_CS_CORR n) 1 injected

/-- Device address of a Lathe's master copy m (R277). -/
def State.mcBase (s : State) (n m : Nat) : Nat :=
  if m = 0 then s.fld (Reg.SPN_MC0_LO_ADDR n) + 2 ^ 32 * s.fld (Reg.SPN_MC0_HI_ADDR n)
  else s.fld (Reg.SPN_MC1_LO_ADDR n) + 2 ^ 32 * s.fld (Reg.SPN_MC1_HI_ADDR n)

end Sys2Proof.Machine
end

