-- ==== Sys2Proof/Machine/Sleep.lean ====
section
/-!
DEFINITION. Accesses to domains that sleep (R17 to R21): the wake that an access begins, and a register's write that waits for it.
-/
namespace Sys2Proof.Machine

/-- Whether a part has a domain (R18). -/
def hasDomain (p : Part) (d : Nat) : Bool :=
  d ≤ 6 || (d = 7 && partInlays p = 2) || (8 ≤ d && d < 12 && d - 8 < partChannels p / 4)
    || (12 ≤ d && d < 38 && d - 12 < partLathes p)

/-- A need of a domain at time `need` (R19, R224): from IDLE it is ON at once; from RET or OFF its wake begins (DEDUCED, log entry 65). -/
def State.wakeFor (s : State) (d need : Nat) (accs : List Access) : State :=
  if ¬ hasDomain s.part d then s
  else if s.pd d = 1 then s.setFld (pdStateF d) 0
  else if s.pd d = 0 then s
  else
    let w := match tget none s.wakes d with
      | some w => some ⟨min w.need need, w.accs ++ accs⟩
      | none => some ⟨need, accs⟩
    { s with wakes := tset none s.wakes d w }

/-- The domain that an access reaches, where that is in RET or OFF (R19) (DEDUCED, log entry 15). -/
def State.asleepAt (s : State) (a : Nat) : Option Nat :=
  match domainOf a with
  | some d => if hasDomain s.part d ∧ 2 ≤ s.pd d then some d else none
  | none => none

/-- The value that a field takes when its domain is ON again: that of the restore copy where the domain is OFF (R21). -/
def State.keptFld (s : State) (f : Fld) : Nat :=
  match domainOf f.a with
  | some d => if s.pd d = 3 then (match tget 0 s.restore f.key with
      | 0 => f.rst
      | k + 1 => k) else s.fld f
  | none => s.fld f

/-- A write of `v` to the register at `a`, whose effect is `f`, of a row named after that write: it waits for a domain in RET or OFF and
wakes it, wakes one from IDLE, and else acts at once (R19) (DESIGN CHOICE, log entry 14). -/
def State.onWrite (s : State) (rq : Requester) (a : Nat) (v : Word) (f : State → State) : State :=
  match s.asleepAt a, domainOf a with
  | some d, _ => s.wakeFor d s.time [⟨rq, a, some v⟩]
  | none, some d => f (s.wakeFor d s.time [])
  | none, none => f s

end Sys2Proof.Machine
end

