-- ==== Sys2Proof/Machine/Dram.lean ====
section
/-!
DEFINITION. The memory subsystem: device DRAM, its address map, poison, scrub, repair, refresh and accounting
(R291 to R313).
-/
namespace Sys2Proof.Machine

/-! ## The bytes -/

/-- What a byte of device DRAM holds: a byte that nothing has written reads as 0 (DESIGN CHOICE, log entry 1). -/
def State.byte (s : State) (a : Nat) : BitVec 8 := tget 0 s.dram.mem a

/-- Stores one byte; an address at or above the usable size holds nothing (R292). -/
def State.setByte (s : State) (a : Nat) (b : BitVec 8) : State :=
  if a < partUsable s.part then { s with dram := { s.dram with mem := tset 0 s.dram.mem a b } } else s

/-- Stores bytes from address a on. -/
def State.setBytes (s : State) (a : Nat) : List Nat → State
  | [] => s
  | b :: r => (s.setByte a (BitVec.ofNat 8 b)).setBytes (a + 1) r

/-- `n` bytes from address a on (DESIGN CHOICE, log entry 67). -/
def State.getBytes (s : State) (a : Nat) : Nat → List Nat
  | 0 => []
  | n + 1 => (s.byte a).toNat :: s.getBytes (a + 1) n

/-- A little-endian number of bytes. -/
def leNat : List Nat → Nat
  | [] => 0
  | b :: r => b % 256 + 256 * leNat r

/-- The `n` bytes of a number, little-endian. -/
def leBytes (v : Nat) : Nat → List Nat
  | 0 => []
  | n + 1 => v % 256 :: leBytes (v / 256) n

/-- A 32-bit word of DRAM. -/
def State.word32 (s : State) (a : Nat) : Nat := leNat (s.getBytes a 4)

/-- Whether a line carries a poison mark (R294) (DESIGN CHOICE, log entry 1). -/
def State.poisoned (s : State) (line : Nat) : Bool := tget false s.dram.poison line

/-- Sets or clears a line's poison mark. -/
def State.setPoison (s : State) (line : Nat) (b : Bool) : State :=
  { s with dram := { s.dram with poison := tset false s.dram.poison line b } }

/-- The lines that a range touches. -/
def linesOf (a len : Nat) : List Nat := if len = 0 then [] else upTo (a / 64) ((a + len - 1) / 64 - a / 64 + 1)

/-- Whether a range touches a poisoned line. -/
def State.rangePoison (s : State) (a len : Nat) : Bool := (linesOf a len).any s.poisoned

/-! ## The address map -/

/-- Where a line lies: channel, bank, row and line slot. -/
structure Place where
  ch : Nat
  bank : Nat
  row : Nat
  slot : Nat
deriving DecidableEq, Repr

/-- Bytes of a granule with C channels (R292). -/
def granuleSize (c : Nat) : Nat := c * 16 * 64 * 1792

/-- The place of line L of a region by its order (R296). -/
def placeIn (c : Nat) (r : Region) (l : Nat) : Place :=
  if r.order = 0 then
    let g := l / 4
    let h := g / c
    let u := h / 7
    ⟨Nat.xor (g % c) (u % 16 % c), u % 16, 64 * r.base + u / 16, h % 7 * 4 + l % 4⟩
  else if r.order = 1 then
    let g := l / 4
    let h := g / c
    let v := h / 16
    ⟨Nat.xor (g % c) (h % 16 % c), h % 16, 64 * r.base + v / 7, v % 7 * 4 + l % 4⟩
  else if r.order = 2 then
    let h := l / c
    let u := h / 28
    ⟨Nat.xor (l % c) (u % 16 % c), u % 16, 64 * r.base + u / 16, h % 28⟩
  else
    let u := l / 28
    let v := u / 16
    ⟨v / (64 * r.count), u % 16, 64 * r.base + v % (64 * r.count), l % 28⟩

/-- The line of a region at a place: the inverse of `placeIn`. -/
def lineAt (c : Nat) (r : Region) (p : Place) : Nat :=
  let row := p.row - 64 * r.base
  let c0 := Nat.xor p.ch (p.bank % c)
  if r.order = 0 then
    4 * ((7 * (row * 16 + p.bank) + p.slot / 4) * c + c0) + p.slot % 4
  else if r.order = 1 then
    4 * (((row * 7 + p.slot / 4) * 16 + p.bank) * c + c0) + p.slot % 4
  else if r.order = 2 then
    (28 * (row * 16 + p.bank) + p.slot) * c + c0
  else
    28 * ((p.ch * (64 * r.count) + row) * 16 + p.bank) + p.slot

/-- The region of the map in force that holds granule g. -/
def regionOf (g : Nat) : List Region → Option Region
  | [] => none
  | r :: rest => if r.base ≤ g ∧ g < r.base + r.count then some r else regionOf g rest

/-- The place of the line that holds a device address (R296). -/
def State.placeOf (s : State) (a : Nat) : Place :=
  let c := partChannels s.part
  match regionOf (a / granuleSize c) s.dram.map with
  | some r => placeIn c r ((a - r.base * granuleSize c) / 64)
  | none => ⟨0, 0, 0, 0⟩

/-- The line number of the data line at a place; none for a check slot or a row that no region maps. -/
def State.lineOfPlace (s : State) (p : Place) : Option Nat :=
  let c := partChannels s.part
  if 28 ≤ p.slot then none
  else match regionOf (p.row / 64) s.dram.map with
    | some r => some (r.base * granuleSize c / 64 + lineAt c r p)
    | none => none

/-- The quadrant of a line. -/
def State.quadOf (s : State) (a : Nat) : Nat := (s.placeOf a).ch / 4

/-- Whether the used regions cover granules 0 to 1,023 exactly once (R297). -/
def mapCovers (m : List Region) : Bool :=
  (upTo 0 1024).all (fun g => (m.filter (fun r => r.base ≤ g && g < r.base + r.count)).length = 1)
    && m.all (fun r => r.base + r.count ≤ 1024)

/-- The regions as the registers describe them; COUNT = 0 is unused. -/
def State.regions (s : State) : List Region :=
  ((upTo 0 8).map (fun r => Region.mk (s.fld (Reg.DMC_REGION_BASE r)) (s.fld (Reg.DMC_REGION_COUNT r))
    (s.fld (Reg.DMC_REGION_ORDER r)))).filter (fun r => r.count ≠ 0)

/-! ## Errors, rows and repair -/

/-- Records an error (DMC_ERR_LOG). -/
def State.dramErr (s : State) (p : Place) (type port tag : Nat) : State :=
  s.setFlds [(Reg.DMC_ERR_LOG0_CHANNEL, p.ch), (Reg.DMC_ERR_LOG0_BANK, p.bank), (Reg.DMC_ERR_LOG0_ROW, p.row),
    (Reg.DMC_ERR_LOG0_SLOT, p.slot), (Reg.DMC_ERR_LOG0_TYPE, type), (Reg.DMC_ERR_LOG1_PORT, port),
    (Reg.DMC_ERR_LOG1_TAG, tag), (Reg.DMC_ERR_LOG1_TIME_MS, s.time / 1000)]

/-- The tracked row, if it is tracked. -/
def rowFind (p : Place) (l : List RowRec) : Option RowRec := l.find? (fun r => r.bank = p.bank && r.row = p.row)

/-- Takes a row out of a list. -/
def rowDrop (p : Place) (l : List RowRec) : List RowRec := l.filter (fun r => ¬ (r.bank = p.bank ∧ r.row = p.row))

/-- Takes the first element that satisfies `ok` out of a list. -/
def dropFirst (ok : RowRec → Bool) : List RowRec → List RowRec
  | [] => []
  | r :: rest => if ok r then rest else r :: dropFirst ok rest

/-- Tracks a row (R308): a full table gives up its oldest row with exactly one corrected read, if it has one (DEDUCED, log entry 70). -/
def trackRow (r : RowRec) (l : List RowRec) : List RowRec :=
  if l.length < 256 then l ++ [r]
  else if l.any (fun x => x.corrected = 1 && !x.uncorr) then dropFirst (fun x => x.corrected = 1 && !x.uncorr) l ++ [r]
  else l

/-- A row becomes a repair candidate of its channel (R308): saved to flash, and listed, in place of the oldest entry
with SOFT_DONE where the list of 16 is full; else OVERFLOW counts. -/
def State.addCand (s : State) (ch : Nat) (r : RowRec) : State :=
  let l := tget [] s.dram.cands ch
  let old := rowFind ⟨ch, r.bank, r.row, 0⟩ l
  let savedL := tget [] s.dram.saved ch
  let d := { s.dram with saved := tset [] s.dram.saved ch (rowDrop ⟨ch, r.bank, r.row, 0⟩ savedL ++ [r]) }
  match old with
  | some o =>
    let l' := l.map (fun x => if x = o then { x with corrected := r.corrected, uncorr := r.uncorr || x.uncorr } else x)
    { s with dram := { d with cands := tset [] d.cands ch l' } }
  | none =>
    if l.length < 16 then { s with dram := { d with cands := tset [] d.cands ch (l ++ [r]) } }
    else if l.any (fun x => x.softDone) then
      { s with dram := { d with cands := tset [] d.cands ch (dropFirst (fun x => x.softDone) l ++ [r]) } }
    else { s with dram := { d with above := tset 0 d.above ch (satAdd 255 (tget 0 d.above ch) 1) } }

/-- A corrected or uncorrectable read of a row is tracked (R308). -/
def State.touchRow (s : State) (p : Place) (uncorr : Bool) : State :=
  let l := tget [] s.dram.rows p.ch
  let old := (rowFind p l).getD ⟨p.bank, p.row, 0, false, false, false⟩
  let r := { old with corrected := satAdd 255 old.corrected (if uncorr then 0 else 1), uncorr := old.uncorr || uncorr }
  let l' := match rowFind p l with
    | some o => l.map (fun x => if x = o then r else x)
    | none => trackRow r l
  let s := { s with dram := { s.dram with rows := tset [] s.dram.rows p.ch l' } }
  let thr := atLeast1 (s.fld Reg.DMC_ECC_CTRL_PPR_THRESH)
  if (rowFind p l').isSome && (uncorr || (r.corrected = thr)) then s.addCand p.ch r else s

/-- A read of a channel was corrected (R294 step 1): counted, and CE_THRESH of the channel sets when the corrected reads
of one second reach the threshold (R313). -/
def State.corrected (s : State) (p : Place) (port tag : Nat) (injected : Bool) : State :=
  let sec := s.time / 1000000
  let n := (if tget 0 s.dram.ceSec p.ch = sec then tget 0 s.dram.ceCount p.ch else 0) + 1
  let d := { s.dram with ceSec := tset 0 s.dram.ceSec p.ch sec, ceCount := tset 0 s.dram.ceCount p.ch n }
  let s := (({ s with dram := d }.bump Cnt.DMC_CE).dramErr p 0 port tag).touchRow p false
  if n = atLeast1 (s.fld Reg.DMC_ECC_CTRL_CE_THRESH) then s.raise (80 + p.ch) Reg.DMC_FAULT_CE_THRESH (2 ^ p.ch) injected
  else s

/-- Rung 0 is spent on a line (R294 step 4): it is written back with a poison mark, and FS232 + q records it; its bytes are shown as they
were last written (DESIGN CHOICE, log entry 67). -/
def State.poisonLine (s : State) (line : Nat) (p : Place) (port tag : Nat) : State :=
  let injected : Bool := tget 0 s.dram.errs line != 0
  let s := { s with dram := { s.dram with errs := tset 0 s.dram.errs line 0 } }
  let s := (((s.setPoison line true).bump Cnt.DMC_UE).dramErr p 2 port tag).touchRow p true
  s.raise (232 + p.ch / 4) Reg.DMC_FAULT_UE (2 ^ (p.ch / 4)) injected

/-! ## Reads and writes -/

/-- No HDR metadata. -/
def noHdr : Hdr := ⟨none, none⟩

/-- A decode stream that has decoded nothing (R133). -/
def decSt0 : DecSt := ⟨none, 1, false, false, [], none, none, none, noHdr, [], 0, 0⟩

/-- An encode stream without history (R162). -/
def encSt0 : EncSt := ⟨0, 0, [], none, none, none, false, false, [], [], [], [], [], none, []⟩

/-- A rendition without parameters or history. -/
def rend0 : Rend := ⟨[], [], none, 0, [], false, none, 0, 0, none, [], [], [], [], [], 0, [], [], 0, 0, 0, 0, noHdr⟩

/-- A stream that is closed and has never been opened. -/
def stream0 : Stream :=
  { dir := 0, std := 0, cls := 0, wMax := 1, rends := 1, state := 0, version := 0, target := 0, canvas := 0, period := 0,
    equivKpx := 0, staticFloor := 0, skipFrac := 0, bwEst := 0, params := [], lanes := [], shed := 0,
    migratePending := false, overrun := false, lastEnd := 0, migrations := 0, picsShed := 0, maxWait := 0, minW := 1,
    calm := 0, pics := 0, closeBy := none, hot := 0, acct := 0, bwMax := 0, spans := [], sent := [], ctx := [], dec := decSt0, enc := encSt0, rend := [] }

/-- The stream of a SID. -/
def State.stream (s : State) (sid : Nat) : Stream := tget stream0 s.streams sid

/-- Sets a stream. -/
def State.setStream (s : State) (sid : Nat) (x : Stream) : State := { s with streams := tset stream0 s.streams sid x }

/-- Whether a stream is open. -/
def State.isOpen (s : State) (sid : Nat) : Bool := (s.stream sid).state != 0

/-- Whether a stream is live: open, and of class LIVE-A or LIVE-B (R30, R195). -/
def State.liveSid (s : State) (sid : Nat) : Bool := s.isOpen sid && (s.stream sid).cls ≤ 1

/-- The DRAM service class of a stream's class (R195): SC0 for the live ones, SC1 TIMED, SC2 BULK. -/
def State.taskClass (s : State) (sid : Nat) : Nat := (s.stream sid).cls - 1

/-- Whether a canvas is the input of a live encode stream. -/
def State.canvasFeedsLive (s : State) (cv : Nat) : Bool :=
  s.streams.any (fun e => e.2.state != 0 && e.2.dir = 1 && e.2.canvas = cv && e.2.cls ≤ 1)

/-- The DRAM service class of an Inlay's request (R298): SC0 for a canvas that drives an enabled head, feeds a live stream
or shows an override. -/
def State.canvasClass (s : State) (cv : Nat) : Nat :=
  if (cv < 4 && s.on (Reg.DP_CTRL_ENABLE cv)) || s.canvasFeedsLive cv
      || s.canvases.any (fun e => e.1 = cv && e.2.ovr.isSome) then 0 else 1

/-- The service class of a port's request (R298); for the ring, whose packets may be live or not, a free value
(DESIGN CHOICE, log entry 60). -/
def State.portClass (s : State) (port tag : Nat) : Nat :=
  if port = 0 ∨ port = 1 then 0
  else if port = 2 then s.taskClass tag
  else if port = 3 then s.canvasClass (tag - 512)
  else if port = 4 then s.freeVal % 2
  else if port = 5 then 1
  else if port = 6 then s.fld (Reg.DRV_CFG_CLASS (tag - 579))
  else if port = 7 then 2
  else 3

/-- A request's line bytes count against its tag, and in its quadrant and class for the window (R312) (DESIGN CHOICE, log entry 67). -/
def State.accountLines (s : State) (port tag a len : Nat) : State :=
  let n := 64 * (linesOf a len).length
  let k := s.quadOf a * 4 + s.portClass port tag
  let s := s.account (Cnt.DMC_ACCT tag) n
  { s with dram := { s.dram with bw := tset 0 s.dram.bw k (tget 0 s.dram.bw k + n) } }

/-- An access wakes the quadrant that it reaches (R306). -/
def State.wakeQuad (s : State) (a : Nat) : State := s.setFld (pdStateF (8 + s.quadOf a)) 0

/-- What the read returns. -/
def State.dramReturn (s : State) (port tag a len : Nat) (poison : Bool) : State :=
  { s with dram := { s.dram with rd := some ⟨port, tag, a, s.getBytes a len, poison⟩ } }

/-- The line at `a` decodes with `bad` erroneous bytes (R294): data with 0 to 3 corrected, POISON where it is marked and
at most 1 byte is wrong; else the read is retried, or rung 0 is spent at once where no retry is configured. -/
def State.dramDecode (s : State) (port tag a len bad : Nat) : State :=
  let line := a / 64
  let p := s.placeOf a
  let n := bad + tget 0 s.dram.errs line
  if s.poisoned line ∧ n ≤ 1 then
    ((s.bump Cnt.DMC_POISON_READS).dramErr p 3 port tag).dramReturn port tag a len true
  else if ¬ s.poisoned line ∧ n ≤ 3 then
    let s := if n = 0 then s
      else { s with dram := { s.dram with errs := tset 0 s.dram.errs line 0 } }.corrected p port tag
        (tget 0 s.dram.errs line != 0)
    s.dramReturn port tag a len (s.rangePoison a len)
  else if s.fld Reg.DMC_ECC_CTRL_RETRIES = 0 then (s.poisonLine line p port tag).dramReturn port tag a len true
  else { s with dram := { s.dram with retry := s.dram.retry ++ [⟨port, tag, a, len, 0⟩] } }

/-- DRAM_READ (R292, R294): a request at or above the usable size returns 0 and records a NOTE
(DESIGN CHOICE, log entry 67; DESIGN CHOICE, log entry 68). -/
def State.dramRead (s : State) (port tag a len bad : Nat) : State :=
  if partUsable s.part < a + len then
    ({ s with dram := { s.dram with rd := some ⟨port, tag, a, List.replicate len 0, false⟩ } }).note 0
  else ((s.wakeQuad a).accountLines port tag a len).dramDecode port tag a len bad

/-- One retry of the line at `a` (R294 steps 3 and 4). -/
def State.dramRetry (s : State) (port tag a bad : Nat) : State :=
  match s.dram.retry.find? (fun r => r.port = port && r.tag = tag && r.addr / 64 = a / 64) with
  | none => s
  | some r =>
    let line := a / 64
    let p := s.placeOf a
    let rest := s.dram.retry.erase r
    let s := { s with dram := { s.dram with retry := rest } }
    if s.poisoned line ∧ bad ≤ 1 then
      ((s.bump Cnt.DMC_POISON_READS).dramErr p 3 port tag).dramReturn port tag r.addr r.len true
    else if ¬ s.poisoned line ∧ bad ≤ 3 then
      let s := { s with dram := { s.dram with errs := tset 0 s.dram.errs line 0 } }
      ((s.bump Cnt.DMC_RETRY_OK).dramErr p 1 port tag).dramReturn port tag r.addr r.len (s.rangePoison r.addr r.len)
    else if s.fld Reg.DMC_ECC_CTRL_RETRIES ≤ r.tries + 1 then
      (s.poisonLine line p port tag).dramReturn port tag r.addr r.len true
    else { s with dram := { s.dram with retry := { r with tries := r.tries + 1 } :: rest } }

/-- An armed DRAM_CE or DRAM_UE acts on a write to its line (R428): it flips one byte, or four. -/
def State.injectWrite (s : State) (line : Nat) : State :=
  match s.flt.inject with
  | some j =>
    if (j.kind = 3 ∨ j.kind = 4) ∧ j.addr / 64 = line then
      let s := { s with dram := { s.dram with errs := tset 0 s.dram.errs line (if j.kind = 3 then 1 else 4) } }
      { s with flt := { s.flt with inject := none } }.setFld Reg.FLT_INJECT_CTRL_ARM 0
    else s
  | none => s

/-- The checks of the lines that a write of [a, a + len) covers (R295): a whole line clears its poison; a part of a
line keeps it, and finds poison where its read-modify-write met more than three erroneous bytes. -/
def State.writeLines (s : State) (a len bad : Nat) : List Nat → State
  | [] => s
  | l :: r =>
    let n := bad + tget 0 s.dram.errs l
    let s := { s with dram := { s.dram with errs := tset 0 s.dram.errs l 0 } }
    let s := if a ≤ l * 64 ∧ l * 64 + 64 ≤ a + len then s.setPoison l false
      else if 3 < n ∧ ¬ s.poisoned l then s.poisonLine l (s.placeOf (l * 64)) 0 0
      else s
    (s.injectWrite l).writeLines a len 0 r

/-- A unit of the block stores bytes from address a on, with the checks of their lines (R295); past the usable size nothing is
stored (R292) (DESIGN CHOICE, log entry 67). -/
def State.putBytes (s : State) (a : Nat) (bytes : List Nat) : State :=
  (s.setBytes a bytes).writeLines a bytes.length 0 ((linesOf a bytes.length).filter (fun l => 64 * l < partUsable s.part))

/-- Stores a 32-bit word. -/
def State.putWord (s : State) (a v : Nat) : State := s.putBytes a (leBytes v 4)

/-- DRAM_WRITE (R292, R295): a request past the usable size is ignored there and records a NOTE (DESIGN CHOICE, log entry 68). -/
def State.dramWrite (s : State) (port tag a : Nat) (bytes : List Nat) (bad : Nat) : State :=
  if bytes = [] then s
  else if partUsable s.part < a + bytes.length then s.note 0
  else
    (((s.wakeQuad a).accountLines port tag a bytes.length).setBytes a bytes).writeLines a bytes.length bad
      (linesOf a bytes.length)

/-! ## Refresh, patrol and repair -/

/-- The refresh interval of a multiplier in ns (R302). -/
def refInterval (m : Nat) : Nat :=
  if m = 0 then 3906 else if m = 1 then 1953 else if m = 2 then 977 else 651

/-- The least point above `t` of channel ch's shifted grid of interval T (R302) (DEDUCED, log entry 69). -/
def gridAfter (t T ch c : Nat) : Nat :=
  let off := ch * T / c
  if t < off then off else off + ((t - off) / T + 1) * T

/-- The multiplier that a temperature asks for (R302). -/
def multFor (t : Int) : Nat := if t ≤ 85 then 0 else if t ≤ 105 then 1 else if t ≤ 125 then 2 else 3

/-- The lower edge of a multiplier. -/
def multEdge (m : Nat) : Int := if m = 1 then 85 else if m = 2 then 105 else 125

/-- A temperature as a 9-bit two's complement field. -/
def temp9 (t : Int) : Nat := (t % 512).toNat

/-- The temperature that a 9-bit field holds. -/
def ofTemp9 (v : Nat) : Int := if v < 256 then v else (v : Int) - 512

/-- REFRESH_SLOT (R302, R304): the slot is counted and the channel's next one fixed on its grid (DEDUCED, log entry 69). -/
def State.refreshSlot (s : State) (ch : Nat) : State :=
  let t := s.time * 1000
  let T := refInterval (s.fld (Reg.DMC_CH_STATE_MULT ch))
  let nx := gridAfter t T ch (partChannels s.part)
  { s with dram := { s.dram with refLast := tset 0 s.dram.refLast ch t,
                                 refNext := tset 0 s.dram.refNext ch nx } }.bump Cnt.DMC_REFRESHES

/-- Whether a present channel of quadrant q reads above 140 degrees (R305). -/
def State.quadHot (s : State) (q : Nat) : Bool :=
  (upTo (4 * q) 4).any (fun ch => ch < partChannels s.part && 140 < ofTemp9 (s.fld (Reg.DMC_CH_STATE_TEMP ch)))

/-- A channel's multiplier follows a reading (R303) (DEDUCED, log entry 69). -/
def State.multFollow (s : State) (ch : Nat) (t : Int) : State :=
  let m := s.fld (Reg.DMC_CH_STATE_MULT ch)
  let d := s.dram
  if m < multFor t then
    let T := refInterval (multFor t)
    let due := min (tget 0 d.refNext ch) (tget 0 d.refLast ch + T)
    let d' := { d with refNext := tset 0 d.refNext ch (max due (s.time * 1000)), coolSince := tset 0 d.coolSince ch 0 }
    { s with dram := d' }.setFld (Reg.DMC_CH_STATE_MULT ch) (multFor t)
  else if m ≠ 0 ∧ t ≤ multEdge m - 2 then
    let c := tget 0 d.coolSince ch
    if c = 0 then { s with dram := { d with coolSince := tset 0 d.coolSince ch (s.time + 1) } }
    else if 10000 ≤ s.time + 1 - c then
      { s with dram := { d with coolSince := tset 0 d.coolSince ch 0 } }.setFld (Reg.DMC_CH_STATE_MULT ch) (m - 1)
    else s
  else { s with dram := { d with coolSince := tset 0 d.coolSince ch 0 } }

/-- DRAM_TEMP_READ (R303, R305). -/
def State.dramTemp (s : State) (ch : Nat) (t : Int) : State :=
  let s := (s.multFollow ch t).setFld (Reg.DMC_CH_STATE_TEMP ch) (temp9 t)
  let hot := (upTo 0 4).any s.quadHot
  (s.setFld Reg.DMC_STATUS_OVERTEMP (if hot then 1 else 0)).level (236 + ch / 4) (s.quadHot (ch / 4))

/-- Physical lines of a channel: 16 banks of 65,536 rows of 32 slots (R291, R293). -/
def chLines : Nat := 16 * 65536 * 32

/-- The place of physical line i of a channel. -/
def placeAt (ch i : Nat) : Place := ⟨ch, i / 32 / 65536, i / 32 % 65536, i % 32⟩

/-- A patrol pass ends when every present channel has been read through (R307): PASSES counts, and the corrected reads
within a pass start again (R308). -/
def State.passEnd (s : State) : State :=
  if (upTo 0 (partChannels s.part)).all (fun ch => chLines ≤ tget 0 s.dram.patrol ch) then
    let s := { s with dram := { s.dram with patrol := [], rows := [] } }
    (s.satFld Reg.DMC_SCRUB_STATUS_PASSES 1).setFld Reg.DMC_SCRUB_STATUS_PERCENT 0
  else
    let n := tsum (fun _ v => v) s.dram.patrol
    s.setFld Reg.DMC_SCRUB_STATUS_PERCENT (n * 100 / (chLines * partChannels s.part))

/-- SCRUB_LINE (R307): the patrol reads the channel's next line; a correctable one is written back, one that stays
uncorrectable after rung 0 is marked poisoned. -/
def State.scrubLine (s : State) (ch bad : Nat) : State :=
  let i := tget 0 s.dram.patrol ch
  let p := placeAt ch i
  let line := s.lineOfPlace p
  let flips : Nat := match line with
    | some l => tget 0 s.dram.errs l
    | none => 0
  let n := bad + flips
  let s := { s with dram := { s.dram with patrol := tset 0 s.dram.patrol ch (i + 1) } }.bump Cnt.DMC_PATROL_LINES
  let mark : Bool := match line with
    | some l => s.poisoned l
    | none => false
  let s :=
    if mark ∧ n ≤ 1 then (s.bump Cnt.DMC_POISON_READS).dramErr p 3 8 596
    else if n = 0 then s
    else if ¬ mark ∧ n ≤ 3 then
      let s := match line with
        | some l => { s with dram := { s.dram with errs := tset 0 s.dram.errs l 0 } }
        | none => s
      s.corrected p 8 596 (flips != 0)
    else match line with
      | some l => s.poisonLine l p 8 596
      | none => s.touchRow p true
  s.passEnd

/-- The oldest listed candidate of a channel that a soft repair can take (DEDUCED, log entry 70). -/
def State.softCand (s : State) (ch : Nat) : Option RowRec :=
  (tget [] s.dram.cands ch).find? (fun r => !r.softDone && !r.exhausted)

/-- SOFT_REPAIR (R308): applied to the oldest open candidate, or, with no spare row left, the candidate is EXHAUSTED and
FS232 + q records it. -/
def State.softRepair (s : State) (ch : Nat) (spare : Bool) : State :=
  match s.softCand ch with
  | none => s
  | some c =>
    let c' := if spare then { c with softDone := true } else { c with exhausted := true }
    let l := (tget [] s.dram.cands ch).map (fun x => if x = c then c' else x)
    let s := { s with dram := { s.dram with cands := tset [] s.dram.cands ch l,
                                            lastSoft := tset 0 s.dram.lastSoft ch (s.time + 1) } }
    if spare then s.bump Cnt.DMC_SOFT_REPAIRS
    else s.raise (232 + ch / 4) Reg.DMC_FAULT_PPR_EXHAUSTED (2 ^ (ch / 4))

/-- The candidates that a hard repair leaves: those whose bank has no spare row left (`spent`), marked EXHAUSTED. -/
def leftCands (spent : List (Nat × Nat)) (ch : Nat) (l : List RowRec) : List RowRec :=
  (l.filter (fun r => r.exhausted || spent.contains (ch, r.bank))).map (fun r => { r with exhausted := true })

/-- The hard repairs of a channel's saved candidates are applied (R308, R441): the listed ones leave the list, but for those whose bank
has no spare row left, which FS232 + q records (DEDUCED, log entry 70). -/
def State.hardRepair (s : State) (spent : List (Nat × Nat)) (ch : Nat) : State :=
  let all := tget [] s.dram.saved ch
  let s := { s with dram := { s.dram with cands := tset [] s.dram.cands ch (leftCands spent ch (tget [] s.dram.cands ch)),
                                          saved := tset [] s.dram.saved ch (leftCands spent ch all) } }
  if all.any (fun r => !r.exhausted && spent.contains (ch, r.bank)) then
    s.raise (232 + ch / 4) Reg.DMC_FAULT_PPR_EXHAUSTED (2 ^ (ch / 4))
  else s

/-- A channel is retrained (R310, R311); one that fails three times stays untrained with TRAIN_FAIL. -/
def State.retrain (s : State) (failed : List Nat) (ch : Nat) : State :=
  let s := if failed.contains ch then
      (s.setFlds [(Reg.DMC_CH_STATE_TRAINED ch, 0), (Reg.DMC_STATUS_TRAINED, 0)]).raise (236 + ch / 4) Reg.DMC_FAULT_TRAIN_FAIL
        (2 ^ (ch / 4))
    else s.setFlds [(Reg.DMC_CH_STATE_RETRAIN_DUE ch, 0), (Reg.DMC_CH_STATE_DRIFT ch, 0), (Reg.DMC_CH_STATE_TRAINED ch, 1)]
  let due : Bool := (upTo 0 (partChannels s.part)).any (fun c => s.on (Reg.DMC_CH_STATE_RETRAIN_DUE c))
  s.setFld Reg.DMC_STATUS_RETRAIN_DUE (if due then 1 else 0)

/-- BW_WINDOW (R312): per quadrant and class the bytes of the last window, in units of 0.1 GB/s over 1 ms; the check
traffic that they include depends on the check-line caches, and is a free value, as is the number of requests promoted (R299)
(DESIGN CHOICE, log entry 60). -/
def State.bwWindow (s : State) : List Nat → State
  | [] => { s.freeNext.bump Cnt.DMC_PROMOTIONS s.freeVal with dram := { s.dram with bw := [] } }
  | k :: r =>
    let n := tget 0 s.dram.bw k
    if n = 0 then (s.setFld (Reg.DMC_BW_DGB k) 0).bwWindow r
    else (s.freeNext.setFld (Reg.DMC_BW_DGB k) ((n + s.freeVal) / 100000)).bwWindow r

end Sys2Proof.Machine
end

