-- ==== Sys2Proof/Machine/Veneer.lean ====
section
/-!
DEFINITION. Sample words and surfaces: the 14-bit sample word (R55 to R57), the Veneer format (R234 to R238), and the
reads and writes of a surface's samples.
-/
namespace Sys2Proof.Machine

/-! ## Sample words -/

/-- The 14-bit word of a coded value of depth D (R55). -/
def toWord14 (depth v : Nat) : Nat := v * 2 ^ (14 - depth)

/-- The 16-bit container of a word: its two low bits are 0 (R55, R56). -/
def container (w : Nat) : Nat := w % 2 ^ 14 * 4

/-- The word of a container: readers ignore the two low bits (R56). -/
def ofContainer (c : Nat) : Nat := c % 2 ^ 16 / 4

/-- The coded value of depth D of a word: round half up, and the top code clipped (R57). -/
def toDepth (depth w : Nat) : Nat :=
  let s := 14 - depth
  min ((w + 2 ^ s / 2) / 2 ^ s) (2 ^ depth - 1)

/-! ## The predictive code -/

/-- The bits of a number, most significant first. -/
def msbBits (v : Nat) : Nat → List Bool
  | 0 => []
  | n + 1 => v.testBit n :: msbBits v n

/-- The number that bits spell, most significant first. -/
def ofBits : List Bool → Nat → Nat
  | [], acc => acc
  | b :: r, acc => ofBits r (acc * 2 + if b then 1 else 0)

/-- The prediction of sample i from those before it (R236). -/
def venPred (x : List Nat) (i : Nat) : Nat :=
  let r := i / 32
  let col := i % 32
  if r = 0 then nth 0 x (i - 1)
  else if col = 0 then nth 0 x (i - 32)
  else
    let a := nth 0 x (i - 1)
    let b := nth 0 x (i - 32)
    let d := nth 0 x (i - 33)
    if max a b ≤ d then min a b else if d ≤ min a b then max a b else a + b - d

/-- The folded residual u of sample i (R236). -/
def venU (x : List Nat) (i : Nat) : Nat :=
  let e := (nth 0 x i + 16384 - venPred x i) % 16384
  if 8192 ≤ e then 2 * (16384 - e) - 1 else 2 * e

/-- The sample whose folded residual is u. -/
def venSample (p u : Nat) : Nat :=
  if u % 2 = 0 then (p + u / 2) % 16384 else (p + 16384 - (u + 1) / 2) % 16384

/-- The bits of one residual at k. -/
def venCode (k u : Nat) : List Bool :=
  let q := u / 2 ^ k
  if q < 16 then List.replicate q true ++ false :: msbBits u k else List.replicate 16 true ++ msbBits u 14

/-- The length of one residual at k. -/
def venLen (k u : Nat) : Nat := if u / 2 ^ k < 16 then u / 2 ^ k + 1 + k else 30

/-- The samples of group g: 1 to 15, 16 to 31, and so on. -/
def venGroup (g : Nat) : List Nat := if g = 0 then upTo 1 15 else upTo (16 * g) 16

/-- The length of a group at k. -/
def venGroupLen (x : List Nat) (k : Nat) : List Nat → Nat
  | [] => 4
  | i :: r => venLen k (venU x i) + venGroupLen x k r

/-- The k of fewest bits among 0 to n, the lower on a tie (R237). -/
def venBestK (x : List Nat) (g : List Nat) : Nat → Nat
  | 0 => 0
  | n + 1 => let b := venBestK x g n; if venGroupLen x (n + 1) g < venGroupLen x b g then n + 1 else b

/-- The bits of a group: its k, then its residuals. -/
def venGroupBits (x : List Nat) (g : List Nat) : List Bool :=
  let k := venBestK x g 13
  msbBits k 4 ++ (g.map (fun i => venCode k (venU x i))).flatten

/-- The bitstream of 128 samples (R236). -/
def venBits (x : List Nat) : List Bool :=
  msbBits (nth 0 x 0) 14 ++ ((upTo 0 8).map (fun g => venGroupBits x (venGroup g))).flatten

/-- Bits packed into bytes, most significant first. -/
def packBits : Nat → List Bool → List Nat
  | 0, _ => []
  | n + 1, l => ofBits ((l ++ List.replicate 8 false).take 8) 0 :: packBits n (l.drop 8)

/-- The bits of bytes, most significant first. -/
def unpackBits : List Nat → List Bool
  | [] => []
  | b :: r => msbBits b 8 ++ unpackBits r

/-- The leading ones of a bit string, at most n. -/
def leadOnes : Nat → List Bool → Nat
  | 0, _ => 0
  | _, [] => 0
  | n + 1, b :: r => if b then leadOnes n r + 1 else 0

/-- Reads the rest of the samples: those read, the k in force, the samples still to read and the bits left. None where k
is 14 or 15 or the bits run out (R238). -/
def venRead : Nat → List Nat → Nat → List Bool → Option (List Nat)
  | 0, x, _, _ => some x
  | n + 1, x, k0, bits =>
    let i := 128 - (n + 1)
    let newGroup := i = 1 ∨ i % 16 = 0
    if newGroup ∧ bits.length < 4 then none
    else
      let k := if newGroup then ofBits (bits.take 4) 0 else k0
      let bits := if newGroup then bits.drop 4 else bits
      if 13 < k then none
      else
        let q := leadOnes 16 bits
        let len := if q < 16 then q + 1 + k else 30
        if bits.length < len then none
        else
          let u := if q < 16 then q * 2 ^ k + ofBits ((bits.drop (q + 1)).take k) 0 else ofBits ((bits.drop 16).take 14) 0
          venRead n (x ++ [venSample (venPred x i) u]) k (bits.drop len)

/-! ## Tiles -/

/-- A tile as stored: its header and the bytes of its sectors (R235, R237); none is a lost tile, POISON. -/
def tileCode : Option (List Nat) → Nat × List Nat
  | none => (3, [])
  | some x =>
    if x.all (fun v => v = nth 0 x 0) then (nth 0 x 0 % 2 ^ 14 * 4, [])
    else
      let b := venBits x
      if b.length ≤ 1792 then
        let n := (b.length + 255) / 256
        (1 + (n - 1) * 4, packBits (32 * n) b)
      else (2, (x.map (fun v => leBytes (container v) 2)).flatten)

/-- How many sectors a header names; none for a header that R238 makes POISON. -/
def tileSectors (h : Nat) : Option Nat :=
  if h % 4 = 0 then if h < 2 ^ 16 then some 0 else none
  else if h % 4 = 1 then if h < 32 ∧ h / 4 ≠ 7 then some (h / 4 + 1) else none
  else if h % 4 = 2 then if h < 4 then some 8 else none
  else none

/-- The samples of a tile; none where the tile is POISON (R235, R238). -/
def tileDecode (h : Nat) (bytes : List Nat) : Option (List Nat) :=
  match tileSectors h with
  | none => none
  | some _ =>
    if h % 4 = 0 then some (List.replicate 128 (h / 4 % 2 ^ 14))
    else if h % 4 = 2 then some ((upTo 0 128).map (fun i => ofContainer (leNat ((bytes.drop (2 * i)).take 2))))
    else
      let b := unpackBits bytes
      venRead 127 [ofBits (b.take 14) 0] 0 (b.drop 14)

/-! ## Surfaces -/

/-- The subsampling of a chroma format code (0 4:2:0, 1 4:2:2, 2 4:4:4): across and down. -/
def subX (chroma : Nat) : Nat := if chroma ≤ 1 then 2 else 1
/-- Down. -/
def subY (chroma : Nat) : Nat := if chroma = 0 then 2 else 1

/-- The number of planes of a surface format (R232). -/
def planesOf (f : Nat) : Nat := if f ≤ 2 then 3 else if f = 3 then 1 else 4

/-- Whether plane p of a format is subsampled. -/
def planeSub (f p : Nat) : Bool := f ≤ 1 && (p = 1 || p = 2)

/-- Width of plane p. -/
def planeW (u : Surf) (p : Nat) : Nat := if planeSub u.format p then (u.w + subX u.format - 1) / subX u.format else u.w
/-- Height of plane p. -/
def planeH (u : Surf) (p : Nat) : Nat := if planeSub u.format p then (u.h + subY u.format - 1) / subY u.format else u.h

/-- The next 256-byte boundary. -/
def align256 (a : Nat) : Nat := (a + 255) / 256 * 256

/-- Tiles of a plane (R234). -/
def tilesOf (u : Surf) (p : Nat) : Nat := (planeW u p + 31) / 32 * ((planeH u p + 3) / 4)

/-- The address of plane p's header array: the planes in order, each header array followed by its payload array, each on
a 256-byte boundary (R234, R479). -/
def hdrAddr (u : Surf) : Nat → Nat
  | 0 => u.addr
  | p + 1 => align256 (hdrAddr u p + 4 * tilesOf u p) + 256 * tilesOf u p

/-- The address of plane p's payload array. -/
def payAddr (u : Surf) (p : Nat) : Nat := align256 (hdrAddr u p + 4 * tilesOf u p)

/-- The bytes of a Veneer surface. -/
def surfBytes (u : Surf) : Nat := hdrAddr u (planesOf u.format) - u.addr

/-- The index of the tile that holds sample (x, y) of plane p. -/
def tileIx (u : Surf) (p x y : Nat) : Nat := y / 4 * ((planeW u p + 31) / 32) + x / 32

/-- The samples of a tile; none where it is POISON or its bytes carry a poison mark (R238). -/
def State.tile (s : State) (u : Surf) (p t : Nat) : Option (List Nat) :=
  let h := s.word32 (hdrAddr u p + 4 * t)
  let a := payAddr u p + 256 * t
  let n := (tileSectors h).getD 0
  if s.rangePoison (hdrAddr u p + 4 * t) 4 ∨ s.rangePoison a (32 * n) then none
  else tileDecode h (s.getBytes a (32 * n))

/-- Stores a tile. -/
def State.setTile (s : State) (u : Surf) (p t : Nat) (x : Option (List Nat)) : State :=
  let c := tileCode x
  (s.putWord (hdrAddr u p + 4 * t) c.1).putBytes (payAddr u p + 256 * t) c.2

/-- The word of a sample of a linear surface (R232). -/
def State.linSample (s : State) (u : Surf) (p x y : Nat) : Nat :=
  if u.format = 10 then ofContainer (leNat (s.getBytes (u.addr + y * u.pitch + 8 * x + 2 * p) 2))
  else
    let w := s.word32 (u.addr + y * u.pitch + 4 * x)
    if u.format = 8 then let v := w / 256 ^ p % 256; v * 64 + v / 4
    else if p = 3 then w / 2 ^ 30 * 5461
    else let v := w / 2 ^ (10 * p) % 1024; v * 16 + v / 64

/-- The word of sample (x, y) of plane p; none where it is lost: its tile is POISON, or, on a linear surface, of which R238 says nothing, its
own granule of 64 bytes carries a poison mark (DESIGN CHOICE, log entry 140). -/
def State.sample (s : State) (u : Surf) (p x y : Nat) : Option Nat :=
  if 8 ≤ u.format then
    let a := u.addr + y * u.pitch + (if u.format = 10 then 8 else 4) * x
    if s.poisoned (a / 64) then none else some (s.linSample u p x y)
  else match s.tile u p (tileIx u p x y) with
    | some l => some (nth 0 l (y % 4 * 32 + x % 32))
    | none => none

/-- Writes one sample of a Veneer surface; the samples of an edge tile that lie outside the plane repeat the last column,
then the last row, as they are rewritten with it (R234). A lost tile is first taken as zeros. -/
def State.putSample (s : State) (u : Surf) (p x y v : Nat) : State :=
  if planeW u p ≤ x ∨ planeH u p ≤ y then s
  else
    let t := tileIx u p x y
    let old := (s.tile u p t).getD (List.replicate 128 0)
    let put (l : List Nat) (i : Nat) : List Nat :=
      let cx := i % 32
      let cy := i / 32
      let mx := min (x / 32 * 32 + cx) (planeW u p - 1)
      let my := min (y / 4 * 4 + cy) (planeH u p - 1)
      if mx = x ∧ my = y then setNth v l i else l
    s.setTile u p t (some ((upTo 0 128).foldl put old))

/-- Writes the coded samples that a standard's process gives, as 14-bit words (R55). -/
def State.putPx (s : State) (u : Surf) (depthY depthC : Nat) : List Px → State
  | [] => s
  | q :: r =>
    (s.putSample u q.plane q.x q.y (toWord14 (if q.plane = 0 then depthY else depthC) q.v)).putPx u depthY depthC r

end Sys2Proof.Machine
end

