-- ==== Sys2Proof/Machine/Streams.lean ====
section
/-!
DEFINITION. Stream contexts (R194 to R198): the words of a context's records, its parameters by their items (R447) with
their defaults, and its bytes in device DRAM.
-/
namespace Sys2Proof.Machine

/-! ## The words of a context -/

/-- The 32-bit word at a byte offset of a stream's records. -/
def Stream.word (x : Stream) (off : Nat) : Nat := tget 0 x.ctx (off / 4)

/-- Sets a word. -/
def Stream.setWord (x : Stream) (off v : Nat) : Stream := { x with ctx := tset 0 x.ctx (off / 4) (v % 2 ^ 32) }

/-- A field of a word. -/
def Stream.bits (x : Stream) (off lo w : Nat) : Nat := x.word off / 2 ^ lo % 2 ^ w

/-- Sets a field of a word. -/
def Stream.setBits (x : Stream) (off lo w v : Nat) : Stream :=
  x.setWord off (x.word off - x.bits off lo w * 2 ^ lo + v % 2 ^ w * 2 ^ lo)

/-- A 64-bit counter of a block. -/
def Stream.cnt64 (x : Stream) (off : Nat) : Nat := x.word off + 2 ^ 32 * x.word (off + 4)

/-- Adds to a 64-bit counter, which wraps. -/
def Stream.add64 (x : Stream) (off n : Nat) : Stream :=
  let v := (x.cnt64 off + n) % 2 ^ 64
  (x.setWord off v).setWord (off + 4) (v / 2 ^ 32)

/-- Adds the counts of a table, by counter number, to a block at `base`. -/
def Stream.addAll (x : Stream) (base : Nat) : Tbl Nat → Stream
  | [] => x
  | (k, n) :: r => (x.add64 (base + 8 * k) n).addAll base r

/-- Adds to a table of counts. -/
def tadd (t : Tbl Nat) (k n : Nat) : Tbl Nat := tset 0 t k (tget 0 t k + n)

/-- Adds one table of counts to another. -/
def taddAll (t : Tbl Nat) : Tbl Nat → Tbl Nat
  | [] => t
  | (k, n) :: r => taddAll (tadd t k n) r

/-- The base of rendition r's records (R196). -/
def rendBase (r : Nat) : Nat := 0x200 + 0x180 * r

/-- Whether a level suspends a decode stream of a class (R214). -/
def decSuspended (cls level : Nat) : Bool := (cls = 3 && 2 ≤ level) || (cls = 2 && 4 ≤ level)

/-- Whether a level holds an encode stream of a class (R214). -/
def encHeld (cls level : Nat) : Bool := (cls = 3 && 2 ≤ level) || (cls = 2 && 5 ≤ level)

/-- STATE of the context header: a stream between pictures whose applied level holds or suspends it reads HELD (R197, R214)
(DEDUCED, log entry 135). -/
def Stream.headState (x : Stream) : Nat :=
  if x.state = 1 ∧ (if x.dir = 0 then decSuspended x.cls x.shed else encHeld x.cls x.shed) then 4 else x.state

/-- Words 0 to 5 of the context header (R197). -/
def Stream.header (x : Stream) (sid : Nat) : List Nat :=
  [sid % 512 + x.dir % 2 * 2 ^ 9 + x.std % 4 * 2 ^ 10 + x.cls % 4 * 2 ^ 12 + (x.wMax - 1) % 8 * 2 ^ 14
     + (x.rends - 1) % 4 * 2 ^ 17 + x.headState % 16 * 2 ^ 19,
   x.version % 256 + x.target % 256 * 2 ^ 8 + x.canvas % 64 * 2 ^ 16,
   x.period % 2 ^ 32, x.equivKpx % 2 ^ 32, x.staticFloor % 256 + x.skipFrac % 256 * 2 ^ 8, x.bwEst % 2 ^ 32]

/-- Words 0 to 5 of the scheduling record (R198). -/
def Stream.sched (x : Stream) : List Nat :=
  [x.lanes.foldl (fun m n => m ||| 2 ^ n) 0 + (x.lanes.length - 1) % 8 * 2 ^ 26,
   x.shed % 8 + (if x.migratePending then 8 else 0) + (if x.overrun then 16 else 0),
   x.lastEnd % 2 ^ 32, min x.migrations (2 ^ 32 - 1), min x.picsShed (2 ^ 32 - 1), min x.maxWait (2 ^ 32 - 1)]

/-- The word of a context at word index k (R196): unused words read 0. -/
def Stream.image (x : Stream) (sid k : Nat) : Nat :=
  if k < 16 then nth 0 (x.header sid) k
  else if k < 32 then nth 0 x.sched (k - 16)
  else tget 0 x.ctx k

/-- The device address of a stream's context (R194). -/
def State.ctxAddr (s : State) (sid : Nat) : Nat :=
  s.fld Reg.SHP_CTX_BASE_LO_ADDR_LO + 2 ^ 32 * s.fld Reg.SHP_CTX_BASE_HI_ADDR_HI + sid * 4096

/-- Bytes 0x000 to 0x7FF of a context. -/
def Stream.bytes (x : Stream) (sid : Nat) : List Nat := ((upTo 0 512).map (fun k => leBytes (x.image sid k) 4)).flatten

/-- A stream's records reach device DRAM (R198, R218). -/
def State.saveCtx (s : State) (sid : Nat) : State := s.putBytes (s.ctxAddr sid) ((s.stream sid).bytes sid)

/-- A stream changes, and its records in DRAM with it (R197). -/
def State.putStream (s : State) (sid : Nat) (x : Stream) : State := (s.setStream sid x).saveCtx sid

/-- The status records and counters of a stream as the context at an address holds them, words k on (R77, R95, R196): n of them. -/
def State.loadWords (s : State) (x : Stream) (a k : Nat) : Nat → Stream
  | 0 => x
  | n + 1 => s.loadWords (x.setWord (4 * k) (s.word32 (a + 4 * k))) a (k + 1) n

/-- CTX_LOAD: the status records and counters from 0x100 to 0x7FF, and of the header VERSION and TARGET_VERSION, are read from the context; the
private state at 0x800 has no format in the spec, and is the stream's own (R95, R196) (DESIGN CHOICE, log entry 135). -/
def State.loadCtx (s : State) (sid a : Nat) : State :=
  let x := s.loadWords (s.stream sid) a 64 448
  let w := s.word32 (a + 4)
  s.setStream sid { x with version := nbits w 0 8, target := nbits w 8 8 }

/-! ## Parameters -/

/-- The value of a parameter in a table of items: stored as value + 1, so that 0 is an absent one. -/
def param (t : Tbl Nat) (g r v d : Nat) : Nat :=
  match tget 0 t (g * 65536 + r * 256 + v) with
  | 0 => d
  | n + 1 => n

/-- Whether a parameter is present. -/
def hasParam (t : Tbl Nat) (g r v : Nat) : Bool := tget 0 t (g * 65536 + r * 256 + v) != 0

/-- A 32-bit value read as two's complement. -/
def signed32 (v : Nat) : Int := if v % 2 ^ 32 < 2 ^ 31 then ((v % 2 ^ 32 : Nat) : Int) else ((v % 2 ^ 32 : Nat) : Int) - 2 ^ 32

/-- Stores the values of an item. -/
def putVals (t : Tbl Nat) (g r : Nat) : Nat → List Nat → Tbl Nat
  | _, [] => t
  | v, x :: rest => putVals (tset 0 t (g * 65536 + r * 256 + v) (x % 2 ^ 32 + 1)) g r (v + 1) rest

/-- Rendition r of a stream. -/
def Stream.rendition (x : Stream) (r : Nat) : Rend := tget rend0 x.rend r

/-- Sets rendition r. -/
def Stream.setRend (x : Stream) (r : Nat) (y : Rend) : Stream := { x with rend := tset rend0 x.rend r y }

/-- The decode options of group 0x05, with their defaults (R123, R129, R134 to R136, R68). -/
def Stream.policy (x : Stream) : Nat := param x.params 5 0 0 0
def Stream.hashCheck (x : Stream) : Bool := param x.params 5 2 0 0 = 1
def Stream.startAny (x : Stream) : Bool := param x.params 5 3 0 0 = 1
def Stream.showUnrecovered (x : Stream) : Bool := param x.params 5 4 0 1 = 1
def Stream.annexB (x : Stream) : Bool := param x.params 5 5 0 0 = 1
def Stream.maxW (x : Stream) : Nat := param x.params 5 6 0 0
def Stream.maxH (x : Stream) : Nat := param x.params 5 6 1 0
def Stream.maxDepth (x : Stream) : Nat := param x.params 5 6 2 0
def Stream.maxChroma (x : Stream) : Nat := param x.params 5 6 3 0

/-- The FILL colour of plane p: the configured one, or the default for the signalled range (R136). -/
def Stream.fill (x : Stream) (p : Nat) : Nat :=
  let full := (x.dec.seq.map (fun h => h.fullRange)).getD false
  param x.params 5 1 p (if p = 0 then (if full then 0 else 0x400) else 0x2000) % 2 ^ 14

/-- The encode options of group 0x04 (R151, R152, R159, R161, R166). -/
def Stream.hints (x : Stream) : Bool := param x.params 4 0 0 1 = 1
def Stream.settlePics (x : Stream) : Nat := param x.params 4 1 0 1
def Stream.settleDqp (x : Stream) : Int := signed32 (param x.params 4 2 0 (2 ^ 32 - 6))
def Stream.staticDqp (x : Stream) : Int := signed32 (param x.params 4 3 0 (2 ^ 32 - 2))
def Stream.irapPeriod (x : Stream) : Nat := param x.params 4 4 0 120
def Stream.irapMinGap (x : Stream) : Nat := param x.params 4 5 0 30
def Stream.rp (x : Stream) : Nat := param x.params 4 6 0 60
def Stream.repinWait (x : Stream) : Nat := param x.params 4 7 0 2000

/-- The parameters of a rendition, group 0x02 (R141). -/
def Rend.std (y : Rend) : Nat := param y.params 2 0 0 0
def Rend.profile (y : Rend) : Nat := param y.params 2 0 1 0
/-- LEVEL: the level in tenths (0 AUTO, 255 unconstrained), and beside it the tier (R70) (DEDUCED, log entry 52). -/
def Rend.level (y : Rend) : Nat := param y.params 2 0 2 0 % 256
def Rend.tier (y : Rend) : Nat := param y.params 2 0 2 0 / 256 % 2
/-- The scale s as numerator and denominator. -/
def Rend.scale (y : Rend) : Nat × Nat := nth (1, 1) [(1, 1), (3, 4), (2, 3), (1, 2), (1, 3), (1, 4)] (param y.params 2 1 0 0)
def Rend.rateDiv (y : Rend) : Nat := nth 1 [1, 2, 4] (param y.params 2 2 0 0)
def Rend.effort (y : Rend) : Nat := param y.params 2 3 0 1
def Rend.depth (y : Rend) : Nat := param y.params 2 4 0 8
def Rend.chroma (y : Rend) : Nat := param y.params 2 4 1 0
/-- The block size. -/
def Rend.block (y : Rend) : Nat := if param y.params 2 5 0 0 = 1 then 128 else 64
/-- TC: the uniform tile columns that an HEVC or VVC stream is asked for, beside BLOCK (R84) (DEDUCED, log entry 52). -/
def Rend.tileCols (y : Rend) : Nat := param y.params 2 5 1 1
def Rend.sliceRows (y : Rend) : Nat := param y.params 2 6 0 1
/-- The structure: 0 LD_SINGLE, 1 LD_MULTI, 2 LD_LAYERED, 3 REORDER_8 (R155). -/
def Rend.structure_ (y : Rend) : Nat := param y.params 2 7 0 0
/-- NREF: default 1 at Fast, 2 at Standard, 4 at High. -/
def Rend.nref (y : Rend) : Nat := param y.params 2 8 0 (nth 2 [1, 2, 4] y.effort)
def Rend.rolling (y : Rend) : Bool := param y.params 2 9 0 0 = 1

/-- The rate parameters of a rendition, group 0x03 (R170). -/
def Rend.mode (y : Rend) : Nat := param y.params 3 0 0 0
def Rend.bitrate (y : Rend) : Nat := param y.params 3 1 0 0
def Rend.maxBitrate (y : Rend) : Nat := param y.params 3 2 0 y.bitrate
/-- R_a: BITRATE in CBR, MAX_BITRATE in VBR and CQ. -/
def Rend.ra (y : Rend) : Nat := if y.mode = 0 then y.bitrate else y.maxBitrate
/-- MODEL: 0 PICTURE, 1 SLICE. -/
def Rend.model (y : Rend) : Nat := param y.params 3 5 0 0
def Rend.targetQp (y : Rend) : Nat := param y.params 3 6 0 30
def Rend.qpMin (y : Rend) : Nat := param y.params 3 7 0 10
def Rend.qpMax (y : Rend) : Nat := param y.params 3 7 1 51
def Rend.aq (y : Rend) : Bool := param y.params 3 8 0 1 = 1
def Rend.vbrWindow (y : Rend) : Nat := param y.params 3 9 0 4
def Rend.lateSlack (y : Rend) : Nat := param y.params 3 10 0 2000

/-- K: the largest k of the stream's renditions (R143). -/
def Stream.bigK (x : Stream) : Nat := (upTo 0 x.rends).foldl (fun m r => max m (x.rendition r).rateDiv) 1

/-- Rendition r's picture period in crystal ticks (R174). -/
def Stream.rendPeriod (x : Stream) (r : Nat) : Nat := x.period * (x.rendition r).rateDiv

/-! ## Canvases, as the encoder sees them -/

/-- A canvas that has no configuration. -/
def canvas0 : Canvas :=
  { cfg := [], inlay := none, layers := [], queue := [], ovr := none, switch := none, c := 0, startAt := 0, picSeq := 0, asked := none,
    judged := false, cur := none, delivering := [], surfs := [], copies := [], surfC := [], surfHdr := [], last := none, lastPic := none,
    taken := [], shows := [], rects := [], all := false, poison := [], stale := false }

/-- The canvas picture whose surface is the input of decided picture c of a kind. -/
def Canvas.inputOf (v : Canvas) (c kind : Nat) : Nat :=
  if kind = 0 then c else v.surfC.foldl (fun a e => if e.2 ≤ c ∧ a < e.2 then e.2 else a) 0 - 1

/-- Canvas n. -/
def State.cv (s : State) (n : Nat) : Canvas := tget canvas0 s.canvases n

/-- Sets canvas n. -/
def State.setCv (s : State) (n : Nat) (x : Canvas) : State := { s with canvases := tset canvas0 s.canvases n x }

/-- A canvas's parameters (R228). -/
def Canvas.width (x : Canvas) : Nat := param x.cfg 6 0 0 0
def Canvas.height (x : Canvas) : Nat := param x.cfg 6 0 1 0
def Canvas.chroma (x : Canvas) : Nat := param x.cfg 6 1 0 0
def Canvas.period (x : Canvas) : Nat := param x.cfg 6 2 0 0
/-- TOTAL_LINES: by default the larger of HEIGHT + 8 and ⌈HEIGHT × 25 / 24⌉. -/
def Canvas.lines (x : Canvas) : Nat := param x.cfg 6 3 0 (max (x.height + 8) ((x.height * 25 + 23) / 24))
def Canvas.offset (x : Canvas) : Nat := param x.cfg 6 4 0 0
def Canvas.background (x : Canvas) (p : Nat) : Nat := param x.cfg 6 5 p (if p = 0 then 0x400 else 0x2000) % 2 ^ 14
def Canvas.colour (x : Canvas) (k : Nat) : Nat := param x.cfg 6 6 k (if k < 3 then 1 else 0)
def Canvas.tableOrder (x : Canvas) : Bool := param x.cfg 6 7 0 0 = 1

/-- A dimension coded by a rendition: the canvas's × s, rounded up to a multiple of 8 (R142, R53). -/
def scaled8 (d : Nat) (sc : Nat × Nat) : Nat := ((d * sc.1 + sc.2 - 1) / sc.2 + 7) / 8 * 8

/-- The coded width of rendition r of a stream. -/
def State.rendW (s : State) (x : Stream) (r : Nat) : Nat := scaled8 (s.cv x.canvas).width (x.rendition r).scale
/-- The coded height. -/
def State.rendH (s : State) (x : Stream) (r : Nat) : Nat := scaled8 (s.cv x.canvas).height (x.rendition r).scale
/-- Block rows of rendition r. -/
def State.rendRows (s : State) (x : Stream) (r : Nat) : Nat :=
  (s.rendH x r + (x.rendition r).block - 1) / (x.rendition r).block
/-- 64x64 regions across rendition r. -/
def State.rendRegs (s : State) (x : Stream) (r : Nat) : Nat := (s.rendW x r + 63) / 64

/-- What the rows of a rendition are cut from: its coded size, its block rows and 64x64 regions across, its canvas, its scale, and its tile
columns (R84). -/
structure RendGeo where
  w : Nat
  h : Nat
  block : Nat
  rows : Nat
  regs : Nat
  cvW : Nat
  cvH : Nat
  lines : Nat
  sc : Nat × Nat
  tileCols : Nat
deriving DecidableEq, Repr

/-- The geometry of rendition r of a stream; AV1's tile columns follow from its width (R84). -/
def State.geo (s : State) (x : Stream) (r : Nat) : RendGeo :=
  let y := x.rendition r
  let c := s.cv x.canvas
  ⟨s.rendW x r, s.rendH x r, y.block, s.rendRows x r, s.rendRegs x r, c.width, c.height, c.lines, y.scale,
    if y.std = 2 then (s.rendW x r + 4095) / 4096 else y.tileCols⟩

/-! ## Unit intervals and the buffer (R170, R174, R182) -/

/-- Ready time of block row j of a rendition in ticks after T_c, the canvas's picture period being `period` (R182). -/
def RendGeo.ready (g : RendGeo) (period j : Nat) : Nat :=
  min (((j + 1) * g.block * g.sc.2 + g.sc.1 - 1) / g.sc.1) g.cvH * period / atLeast1 g.lines

/-- The last row of slice u of a picture. -/
def RendGeo.sliceEnd (g : RendGeo) (S u : Nat) : Nat := min (g.rows - 1) ((u + 1) * atLeast1 S - 1)

/-- The shortest interval between successive unit removals of a rendition in crystal ticks (R170, R171, R174): the picture period in the
picture model; in the slice model the least gap between slices, the last one of a picture and the first of the next among them. -/
def Stream.unitTicks (x : Stream) (r : Nat) (g : RendGeo) : Nat :=
  let y := x.rendition r
  if y.model = 0 then x.rendPeriod r
  else
    let at_ (u : Nat) : Nat := g.ready x.period (g.sliceEnd y.sliceRows u)
    let n := (g.rows + atLeast1 y.sliceRows - 1) / atLeast1 y.sliceRows
    (upTo 1 (n - 1)).foldl (fun m u => min m (at_ u - at_ (u - 1))) (x.rendPeriod r + at_ 0 - at_ (n - 1))

/-- B: the decoder-model buffer in bits; by default 2 × R_a × the shortest unit interval (R170). -/
def Stream.bufferSize (x : Stream) (r : Nat) (g : RendGeo) : Nat :=
  param (x.rendition r).params 3 3 0 (2 * (x.rendition r).ra * x.unitTicks r g / 27000000)

/-- INITIAL_DELAY in microseconds; by default 0.9 × B / R_a (R170). -/
def Stream.initialDelay (x : Stream) (r : Nat) (g : RendGeo) : Nat :=
  param (x.rendition r).params 3 4 0 (9 * x.bufferSize r g * 100000 / atLeast1 (x.rendition r).ra)

/-- The parameters of a rendition with the default of MAX_BITRATE, once VBR takes it, fixed: it is BITRATE as it stands then, and does not follow
it (R170, R189) (DEDUCED, log entry 52). -/
def fixMax (t : Tbl Nat) : Tbl Nat :=
  if param t 3 0 0 0 = 1 ∧ ¬ hasParam t 3 2 0 then putVals t 3 2 0 [param t 3 1 0 0] else t

end Sys2Proof.Machine
end

