-- ==== Sys2Proof/Machine/Bsq.lean ====
section
/-!
DEFINITION. The bitstream queue of a Lathe (R106 to R115): pushes, pops, release and flush.
-/
namespace Sys2Proof.Machine

/-- Lathe n's bitstream queue. -/
def State.bsq (s : State) (n : Nat) : Bsq := (s.lth n).bsq

/-- Sets a Lathe's bitstream queue. -/
def State.setBsq (s : State) (n : Nat) (q : Bsq) : State := s.setLth n { s.lth n with bsq := q }

/-- The unread count U (R108). -/
def Bsq.unread (q : Bsq) : Nat := q.words.length - q.rd

/-- The occupied count O (R108). -/
def Bsq.occupied (q : Bsq) : Nat := q.words.length

/-- Bits [70:0] of a word (R106). -/
def wordLow (w : BsqWord) : Nat :=
  w.data % 2 ^ 64 + (if w.start then 2 ^ 64 else 0) + (if w.last then 2 ^ 65 else 0) + w.kind % 4 * 2 ^ 66
    + w.nbytesM1 % 8 * 2 ^ 68

/-- Whether the number of ones among the low n bits is odd. -/
def oddOnes (v : Nat) : Nat → Bool
  | 0 => false
  | n + 1 => xor (v.testBit n) (oddOnes v n)

/-- Whether a word's parity matches: even over [70:0] (R106). -/
def parityOk (w : BsqWord) : Bool := oddOnes (wordLow w) 71 = w.parity

/-- A word with its parity made to match. -/
def sealWord (w : BsqWord) : BsqWord := { w with parity := oddOnes (wordLow w) 71 }

/-- A GAP word (R107). -/
def gapWord (source count : Nat) (start last : Bool) : BsqWord :=
  sealWord ⟨source + min count (2 ^ 32 - 1) * 2 ^ 32, start, last, 1, 7, false⟩

/-- What the consumer receives of a word: its KIND, POISON where its parity fails (R117). -/
def seenKind (w : BsqWord) : Nat := if parityOk w then w.kind else 2

/-- Whether a word is an OVERFLOW GAP. -/
def isOverflow (w : BsqWord) : Bool := w.kind = 1 && w.data % 4 = 1

/-! ## Push -/

/-- Stores a word in the next slot: with its parity inverted where an injection waits for it (R428). -/
def State.bsqStore (s : State) (n : Nat) (w : BsqWord) : State :=
  let q := s.bsq n
  let flip : Bool := match s.flt.inject with
    | some j => j.kind = 7 && j.target = n
    | none => false
  let s := if flip then { s with flt := { s.flt with inject := none } }.setFld Reg.FLT_INJECT_CTRL_ARM 0 else s
  let w' := if flip then { w with parity := !w.parity } else w
  let q' := { q with words := q.words ++ [w'], inj := q.inj || flip, discarding := false,
                     gapWritten := q.gapWritten || isOverflow w, item := !w.last }
  let s := (s.setBsq n q').bump (Cnt.BSQ_WORDS_IN n)
  if w.kind = 1 then s.bump (if isOverflow w then Cnt.BSQ_GAPS_OVERFLOW n else Cnt.BSQ_GAPS_LOSS n) else s

/-- A word is offered (R110): dropped where a flush covers it (R115), and in the discarding state unless it starts an item; accepted
while O < 16,383; else held by the feeder. -/
def State.bsqOffer (s : State) (n : Nat) (w : BsqWord) : State :=
  let q := s.bsq n
  if q.flushed then s.bump (Cnt.BSQ_WORDS_FLUSHED n)
  else if q.discarding ∧ ¬ w.start then s.bump (Cnt.BSQ_WORDS_DROPPED n)
  else if q.occupied < 16383 then s.bsqStore n w
  else s.setBsq n { q with held := some w, stalled := true, discarding := false }

/-- The held word passes the stall limit (R110): it is dropped, an OVERFLOW GAP takes the kept slot unless one lies last
already, and the feeder discards until the next word that starts an item. -/
def State.bsqOverflow (s : State) (n : Nat) : State :=
  let q := s.bsq n
  let gap := q.words.length < 16384
  let words := if gap then q.words ++ [gapWord 1 0 false true] else q.words
  let s := s.setBsq n { q with words := words, held := none, stalled := false, discarding := true,
                               gapWritten := q.gapWritten || gap, item := false }
  let s := s.bump (Cnt.BSQ_WORDS_DROPPED n)
  if gap then (s.bump (Cnt.BSQ_WORDS_IN n)).bump (Cnt.BSQ_GAPS_OVERFLOW n) else s

/-- Space has appeared: the held word is accepted; for how many cycles it was held is a free value within the stall limit
(DESIGN CHOICE, log entry 32). -/
def State.bsqTakeHeld (s : State) (n : Nat) : State :=
  let q := s.bsq n
  match q.held with
  | some w => if q.occupied < 16383 then
      let cyc := s.freeVal % atLeast1 (s.fld (Reg.LTH_BSQ_STALL_LIMIT_LIMIT_CYC n)) + 1
      ((s.freeNext.setBsq n { q with held := none, stalled := false }).bsqStore n w).bump (Cnt.BSQ_CYC_FULL n) cyc
    else s
  | none => s

/-! ## Pop and release -/

/-- POP (R109, R112, R117): the next word is taken, or IDLE counts where there is none. -/
def State.bsqPop (s : State) (n : Nat) : State :=
  let q := s.bsq n
  match (q.words.drop q.rd).head? with
  | none => s.bump (Cnt.BSQ_CYC_IDLE n)
  | some w =>
    let s := s.setBsq n { q with rd := q.rd + 1, gapWritten := q.gapWritten && !isOverflow w }
    let s := if seenKind w = 2 then s.bump (Cnt.BSQ_POISON_POPPED n) else s
    if parityOk w then s
    else
      let s := s.setBsq n { s.bsq n with inj := false }
      (s.bump (Cnt.BSQ_PARITY_ERR n)).raise (154 + n) (Reg.LTH_BSQ_FAULT_PARITY n) 1 q.inj

/-- Pops until k words lie between MARK and RD. -/
def State.bsqPopTo (s : State) (n k : Nat) : Nat → State
  | 0 => s
  | fuel + 1 => if (s.bsq n).rd < k ∧ (s.bsq n).rd < (s.bsq n).words.length then (s.bsqPop n).bsqPopTo n k fuel else s

/-- The entropy stage finds no word and pops in every cycle until one comes (R112): how many cycles that is is a free value, at least one
(DESIGN CHOICE, log entry 32). -/
def State.bsqIdle (s : State) (n : Nat) : State := s.freeNext.bump (Cnt.BSQ_CYC_IDLE n) (s.freeVal + 1)

/-- RELEASE of the first k words after MARK (R109); a held word then finds space. -/
def State.bsqRelease (s : State) (n k : Nat) : State :=
  let q := s.bsq n
  (s.setBsq n { q with words := q.words.drop k, rd := q.rd - k }).bsqTakeHeld n

/-! ## Flush -/

/-- The flush takes effect (R114, R115): the queue, any held word, the words of the item in flight and a word pushed in
its cycle are discarded, and a pop returns IDLE; in the middle of an item the feeder discards the rest of it. What the feeder still
offers of the item or for the running task is flushed too, until a task begins. -/
def State.bsqFlush (s : State) (n inFlight : Nat) (c : CycleIn) : State :=
  let q := s.bsq n
  let k := q.words.length + (if q.held.isSome then 1 else 0) + inFlight + (if c.push then 1 else 0)
  let mid := (match q.held with
      | some w => !w.last
      | none => q.item) || 0 < inFlight || c.push || q.discarding
  let s := s.setBsq n { bsq0 with discarding := mid, flushed := mid || (s.lth n).run.isSome }
  let s := if c.pop then s.bump (Cnt.BSQ_CYC_IDLE n) else s
  ((s.setFld (Reg.LTH_BSQ_CTRL_FLUSH n) 0).bump (Cnt.BSQ_FLUSHES n)).bump (Cnt.BSQ_WORDS_FLUSHED n) k

/-- A flush is requested (R114): pending while a routine holds words between MARK and RD. -/
def State.bsqRequest (s : State) (n : Nat) : State :=
  (s.setFld (Reg.LTH_BSQ_CTRL_FLUSH n) 1).setBsq n { s.bsq n with flushPending := true }

/-- A stream leaves a Lathe (R114): a flush is requested, unless the Lathe runs a task of another stream, whose words the queue then holds
(DEDUCED, log entry 126). -/
def State.bsqLeave (s : State) (sid n : Nat) : State :=
  match (s.lth n).run with
  | some r => if dSid r.task.desc = sid then s.bsqRequest n else s
  | none => s.bsqRequest n

end Sys2Proof.Machine
end

