-- ==== Sys2Proof/Machine/Coop.lean ====
section
/-!
DEFINITION. The Coop's buffer pools (R314 to R325): the buffers, the choice that serves a request, grants and frees.
-/
namespace Sys2Proof.Machine

/-- The buffer size of a pool (R314). -/
def poolSize (p : Nat) : Nat := nth 0 [256, 2048, 16384, 131072, 1048576, 8388608] p

/-- A buffer that has never been granted. -/
def coopBuf0 : CoopBuf := ⟨false, false, 0, 0, false⟩

/-- The key of a buffer. -/
def bufKey (p i : Nat) : Nat := p * 2 ^ 18 + i

/-- The record of buffer i of pool p. -/
def State.cbuf (s : State) (p i : Nat) : CoopBuf := tget coopBuf0 s.coop.bufs (bufKey p i)

/-- Sets the record of a buffer. -/
def State.setCbuf (s : State) (p i : Nat) (b : CoopBuf) : State :=
  { s with coop := { s.coop with bufs := tset coopBuf0 s.coop.bufs (bufKey p i) b } }

/-- How many buffers of pool p satisfy `ok`. -/
def bufCount (p : Nat) (ok : CoopBuf → Bool) : Tbl CoopBuf → Nat
  | [] => 0
  | (k, b) :: r => (if k / 2 ^ 18 = p && ok b then 1 else 0) + bufCount p ok r

/-- Buffers of pool p held. -/
def State.coopHeld (s : State) (p : Nat) : Nat := bufCount p (fun b => b.held) s.coop.bufs

/-- Buffers of pool p that an owner holds, from any bucket. -/
def State.ownerHeld (s : State) (o p : Nat) : Nat := bufCount p (fun b => b.held && b.owner = o) s.coop.bufs

/-- Buffers of pool p that an owner holds from its reserve. -/
def State.reserveHeld (s : State) (o p : Nat) : Nat :=
  bufCount p (fun b => b.held && b.reserve && b.owner = o) s.coop.bufs

/-- Buffers of pool p held from the shared part. -/
def State.coopSharedHeld (s : State) (p : Nat) : Nat := bufCount p (fun b => b.held && !b.reserve) s.coop.bufs

/-- MIN of an owner in a pool. -/
def State.coopMin (s : State) (o p : Nat) : Nat := s.fld (Reg.COP_OWNER_LIMIT_MIN o p)

/-- COUNT of a pool. -/
def State.coopCount (s : State) (p : Nat) : Nat := s.fld (Reg.COP_POOL2_COUNT p)

/-- The sum of the reserves of a pool. -/
def State.coopMinSum (s : State) (p : Nat) : Nat := (upTo 0 1024).foldl (fun n o => n + s.coopMin o p) 0

/-- Free buffers of a pool, all buckets. -/
def State.coopFree (s : State) (p : Nat) : Nat := s.coopCount p - s.coopHeld p

/-- Free buffers of a pool's shared part (R317). -/
def State.coopSharedFree (s : State) (p : Nat) : Nat := (s.coopCount p - s.coopMinSum p) - s.coopSharedHeld p

/-- Whether an owner holds fewer than its ceiling; 0xFFFF is no ceiling (R317, R325). -/
def State.underMax (s : State) (o p : Nat) : Bool :=
  s.fld (Reg.COP_OWNER_LIMIT_MAX o p) = 0xFFFF || s.ownerHeld o p < s.fld (Reg.COP_OWNER_LIMIT_MAX o p)

/-- The base address of a pool's region. -/
def State.poolBase (s : State) (p : Nat) : Nat :=
  s.fld (Reg.COP_POOL0_BASE_LO p) * 4096 + s.fld (Reg.COP_POOL1_BASE_HI p) * 2 ^ 32

/-- The pool and bucket (true: the reserve) that serve a request, trying the pools of a list in order (R318). -/
def State.coopPick (s : State) (o : Nat) : List Nat → Option (Nat × Bool)
  | [] => none
  | p :: r =>
    if s.underMax o p && s.reserveHeld o p < s.coopMin o p && 0 < s.coopFree p then some (p, true)
    else if s.underMax o p && 0 < s.coopSharedFree p then some (p, false)
    else s.coopPick o r

/-- The smallest pool whose buffers hold `size` bytes. -/
def fitPool (size : Nat) : Nat :=
  (firstWith (fun p => size ≤ poolSize p) (upTo 0 6)).getD 6

/-- The choice for a request of `size` bytes of owner o. -/
def State.coopChoice (s : State) (o size : Nat) : Option (Nat × Bool) :=
  s.coopPick o (upTo (fitPool size) (6 - fitPool size))

/-- The least index from k on of a buffer never granted, looking at `fuel` of them (DESIGN CHOICE, log entry 71). -/
def State.freshFrom (s : State) (p k : Nat) : Nat → Nat
  | 0 => k
  | fuel + 1 => if (s.cbuf p k).used then s.freshFrom p (k + 1) fuel else k

/-- The buffer that pool p gives next: the one freed last (R315), or, with none freed since the lists were built, one
never granted, by a free value, for the spec does not say in what order the lists are built (DESIGN CHOICE, log entry 71). -/
def State.nextBuf (s : State) (p : Nat) : Nat :=
  match tget [] s.coop.freed p with
  | i :: _ => i
  | [] =>
    let i := s.freeVal % s.coopCount p
    if (s.cbuf p i).used then s.freshFrom p 0 (bufCount p (fun _ => true) s.coop.bufs) else i

/-- The handle of a buffer (R315). -/
def handleOf (p i gen : Nat) : Nat := p + i * 8 + gen % 16 * 2 ^ 21

/-- Grants a buffer of pool p to owner o (R315, R318): its GEN advances, the grant counts, and in a pool larger than the
smallest fit as a fallback. Answers the handle. -/
def State.coopGrant (s : State) (o size p : Nat) (reserve : Bool) : State × Nat :=
  let i := s.nextBuf p
  let g := ((s.cbuf p i).gen + 1) % 16
  let s := { s with coop := { s.coop with freed := tset [] s.coop.freed p ((tget [] s.coop.freed p).drop 1) } }
  let s := (s.freeNext.setCbuf p i ⟨true, reserve, g, o, true⟩).bump Cnt.COP_ALLOCS
  let s := if p = fitPool size then s else s.bump Cnt.COP_FALLBACKS
  (s.maxFld (Reg.COP_POOL6_PEAK_HELD p) (s.coopHeld p), handleOf p i g)

/-- Whether an owner is live (R317). -/
def State.ownerLive (s : State) (o : Nat) : Bool := s.on (Reg.COP_OWNER_HELD3_LIVE o)

/-- Whether waiting request a goes ahead of b where they differ (R321). -/
def State.coopBefore (s : State) (a b : CoopReq) : Bool :=
  if s.ownerLive a.owner != s.ownerLive b.owner then s.ownerLive a.owner
  else if a.time ≠ b.time then a.time < b.time
  else a.owner < b.owner

/-- Puts a waiting request at its place. -/
def State.coopInsert (s : State) (x : CoopReq) : List CoopReq → List CoopReq
  | [] => [x]
  | y :: r => if s.coopBefore y x then y :: s.coopInsert x r else x :: y :: r

/-- The waiting requests in the order of R321. -/
def State.coopSort (s : State) : List CoopReq → List CoopReq
  | [] => []
  | x :: r => s.coopInsert x (s.coopSort r)

/-- The state in which each waiting request of a list that can be served has its buffer: what a new request is judged against, with
those that go ahead of it (R319, R321). -/
def State.coopServed (s : State) : List CoopReq → State
  | [] => s
  | x :: r =>
    match s.coopChoice x.owner x.size with
    | some (p, b) => (s.coopGrant x.owner x.size p b).1.coopServed r
    | none => s.coopServed r

/-- Whether a request fails at once where it cannot be served (R320). -/
def isTry : CoopFor → Bool
  | .slice _ => false
  | .ring _ _ => true
  | .host _ => true

/-- A request joins those that wait (R320, R321). -/
def State.coopWait (s : State) (x : CoopReq) : State :=
  let s := { s with coop := { s.coop with waits := s.coop.waits ++ [x] } }
  let s := if isTry x.whom then s else s.bump Cnt.COP_WAITS
  if s.ownerLive x.owner then s.raise 43 Reg.COP_STATUS_LIVE_WAIT else s

/-- The Coop's answers. -/
inductive CoopAns where
  | granted (handle : Nat)
  | failed (status : Nat)
  | waits
deriving DecidableEq, Repr

/-- A request of `size` bytes for an owner (R316, R318, R320): BAD_PARAM (2) for a size outside 1 byte to 8 MiB; it waits
before READY; served, it has its handle; not served, TRY fails with POOL_EXHAUSTED (8) and WAIT waits. -/
def State.coopRequest (s : State) (whom : CoopFor) (o size : Nat) : State × CoopAns :=
  if size = 0 ∨ 8388608 < size then (s, .failed 2)
  else if ¬ s.on Reg.COP_STATUS_READY then (s.coopWait ⟨whom, o, size, s.time⟩, .waits)
  else match (s.coopServed ((s.coopSort s.coop.waits).filter (fun w => s.ownerLive w.owner || !s.ownerLive o))).coopChoice o size with
    | some (p, b) => let r := s.coopGrant o size p b; (r.1, .granted r.2)
    | none =>
      if isTry whom then (s.bump Cnt.COP_TRY_FAILS, .failed 8)
      else (s.coopWait ⟨whom, o, size, s.time⟩, .waits)

/-- A free of a handle (R324): credited to its record; or ignored, recorded and reported, where the buffer is not held or
the generation is not its current one. A handle with set bits above its fields names no buffer (DEDUCED, log entry 73). -/
def State.coopFreeHandle (s : State) (h : Nat) : State :=
  let p := h % 8
  let i := h / 8 % 2 ^ 18
  let b := s.cbuf p i
  if b.held && b.gen = h / 2 ^ 21 % 16 && p < 6 && h < 2 ^ 25 then
    let s := s.setCbuf p i { b with held := false }
    { s with coop := { s.coop with freed := tset [] s.coop.freed p (i :: tget [] s.coop.freed p) } }.bump Cnt.COP_FREES
  else (s.bump Cnt.COP_BAD_FREES).raise 42 Reg.COP_STATUS_BAD_FREE

/-- The device address of a handle's buffer. -/
def State.handleAddr (s : State) (h : Nat) : Nat := s.poolBase (h % 8) + h / 8 % 2 ^ 18 * poolSize (h % 8)

/-! ## The lock -/

/-- Whether two pool regions overlap. -/
def State.poolsOverlap (s : State) (p q : Nat) : Bool :=
  0 < s.coopCount p && 0 < s.coopCount q
    && s.poolBase p < s.poolBase q + s.coopCount q * poolSize q
    && s.poolBase q < s.poolBase p + s.coopCount p * poolSize p

/-- The checks of R316. -/
def State.coopCfgOk (s : State) : Bool :=
  let ps := upTo 0 6
  decide ((ps.foldl (fun n p => n + s.coopCount p) 0) ≤ 262144)
    && ps.all (fun p => s.poolBase p + s.coopCount p * poolSize p ≤ partUsable s.part)
    && ps.all (fun p => ps.all (fun q => q ≤ p || !s.poolsOverlap p q))
    && ps.all (fun p => s.coopMinSum p ≤ s.coopCount p)
    && ps.all (fun p => (upTo 0 1024).all (fun o => s.coopMin o p ≤ s.fld (Reg.COP_OWNER_LIMIT_MAX o p)))

/-- COOP_LOCK (R316): the writes of the same cycle come first (R9); a failed check leaves LOCK 0 and sets CFG_ERR. -/
def execCoopLock (also : List (Nat × Word)) (s : State) : Host.Outcome State Fault Refusal :=
  let s := s.plainWrites (also.filter (fun w => w.1 / 0x10000 = 7))
  if s.on Reg.COP_CTRL_LOCK then .next s
  else if s.coopCfgOk then .next (s.setFlds [(Reg.COP_CTRL_LOCK, 1), (Reg.COP_STATUS_CFG_ERR, 0)])
  else .next (s.setFld Reg.COP_STATUS_CFG_ERR 1)

/-- COOP_FREE (R319, R324). -/
def execCoopFree (handle : Nat) (s : State) : Host.Outcome State Fault Refusal := .next (s.coopFreeHandle handle)

end Sys2Proof.Machine
end

