-- ==== Sys2Proof/Machine/Spindle.lean ====
section
/-!
DEFINITION. The Spindle's commands: the patrol, loads and their verification, reruns of a step and the trace
(R265 to R290).
-/
namespace Sys2Proof.Machine

/-- Whether the life-cycle state is FACTORY or RETURNED (R453). -/
def State.testLife (s : State) : Bool := s.fld Reg.LCM_LC_STATE = 1 || s.fld Reg.LCM_LC_STATE = 3

/-- LTH_STATUS.DRAINED: DRAIN is set and no task is held. -/
def State.drained (s : State) (n : Nat) : Bool :=
  s.on (Reg.LTH_CTRL_DRAIN n) && (s.lth n).queue.isEmpty && (s.lth n).run.isNone

/-- The location is reloaded from the master copy it came from (R266). -/
def State.csReload (s : State) (n loc : Nat) : State :=
  let base := s.mcBase n (s.fld (Reg.SPN_STATUS_LOADED_FROM n))
  let l := s.lth n
  if loc < 4096 then s.setLth n { l with cs := tset 0 l.cs loc (leNat (s.getBytes (base + 16 * loc) 16)) }
  else s.setLth n { l with disp := tset 0 l.disp (loc - 4096)
                                     (leNat (s.getBytes (base + 65536 + 4 * (loc - 4096)) 4)) }

/-- An uncorrectable read of a location is recorded and the location reloaded (R266). -/
def State.csUncorr (s : State) (n loc : Nat) (d : List Nat) (pc : Nat) (injected : Bool := false) (step : Nat := 0) : State :=
  let s := (s.setFlds [(Reg.SPN_ERR_ADDR_ADDR n, loc), (Reg.SPN_ERR_ADDR_UNCORR n, 1)]).bump (Cnt.SPN_CS_UNCORRECTED n)
  ((s.traceRec n 7 d pc step).csReload n loc).raise (180 + n) (Reg.SPN_FAULT_CS_UNCORR n) 1 injected

/-- What an armed CS_FLIP or CS_FLIP2 does to a read of location loc of Lathe n (R428): 1 correctable, 2 not. -/
def State.csFlip (s : State) (n loc : Nat) : Nat :=
  match s.flt.inject with
  | some j => if loc = 0 ∧ j.target = n then (if j.kind = 5 then 1 else if j.kind = 6 then 2 else 0) else 0
  | none => 0

/-- An injection has acted: it is disarmed (R428). -/
def State.disarm (s : State) : State :=
  { s with flt := { s.flt with inject := none } }.setFld Reg.FLT_INJECT_CTRL_ARM 0

/-! ## CRC-64 (R278) -/

/-- One bit of the CRC-64, most significant bit first. -/
def crc64Bit (c : Nat) : Nat := if c < 2 ^ 63 then c * 2 else Nat.xor (c * 2 % 2 ^ 64) 0x42F0E1EBA9EA3693

/-- One byte of the CRC-64. -/
def crc64Byte (c b : Nat) : Nat :=
  crc64Bit (crc64Bit (crc64Bit (crc64Bit (crc64Bit (crc64Bit (crc64Bit (crc64Bit (Nat.xor c (b % 256 * 2 ^ 56)))))))))

/-- The CRC-64 over bytes, before its final XOR. -/
def crc64Run : Nat → List Nat → Nat
  | c, [] => c
  | c, b :: r => crc64Run (crc64Byte c b) r

/-- The CRC-64 over control-store words and dispatch entries: initial value and final XOR all ones. -/
def storeCrc (cs disp : Tbl Nat) : Nat :=
  let run (c n : Nat) (t : Tbl Nat) (k : Nat) : Nat := (upTo 0 n).foldl (fun c i => crc64Run c (leBytes (tget 0 t i) k)) c
  2 ^ 64 - 1 - run (run (2 ^ 64 - 1) 4096 cs 16) 512 disp 4

/-- CS_PATROL (R267): the patrol reads its next location; what it finds is handled under R266 and causes no rerun. -/
def execCsPatrol (n outcome : Nat) (s : State) : Host.Outcome State Fault Refusal :=
  let st := s.fld (Reg.SPN_STATUS_STATE n)
  if s.hasLathe n ∧ s.pd (12 + n) ≤ 1 ∧ 3 ≤ st then
    let l := s.lth n
    let loc := l.patrol
    let flip := s.csFlip n loc
    let bad := max outcome flip
    let s := (if flip = 0 then s else s.disarm).setLth n { l with patrol := (loc + 1) % 4608 }
    .next (if bad = 0 then s
      else if bad = 1 then s.csCorrect n loc (s.lth n).curDesc 0 (flip != 0)
      else s.csUncorr n loc (s.lth n).curDesc 0 (flip != 0))
  else .next s

/-- The pass over every location that a Lathe makes on leaving RET, and the read-back of a load (R267, R279): an armed flip of word 0 is
met; answers whether it was uncorrectable. -/
def State.csPass (s : State) (n : Nat) : State × Bool :=
  let flip := s.csFlip n 0
  if flip = 0 then (s, false)
  else if flip = 1 then (s.disarm.csCorrect n 0 (s.lth n).curDesc 0 true, false)
  else (s.disarm.csUncorr n 0 (s.lth n).curDesc 0 true, true)

/-- The load engine fills the control store and the dispatch RAM from the master copy that SEL names (R279). -/
def State.loadStore (s : State) (n : Nat) (m : Nat) : State :=
  let base := s.mcBase n m
  let l := s.lth n
  let cs := (upTo 0 4096).foldl (fun t i => tset 0 t i (leNat (s.getBytes (base + 16 * i) 16))) []
  let disp := (upTo 0 512).foldl (fun t i => tset 0 t i (leNat (s.getBytes (base + 65536 + 4 * i) 4))) []
  (s.setLth n { l with cs := cs, disp := disp }).account (Cnt.DMC_ACCT 595) 67584

/-- A load begins (R279): STATE reads LOADING and SEL is sampled (DEDUCED, log entry 38). -/
def State.beginLoad (s : State) (n m k : Nat) : State :=
  let s := s.setFlds [(Reg.SPN_STATUS_STATE n, 1), (Reg.SPN_STATUS_LOADED_FROM n, m)]
  let s := (s.bump (Cnt.SPN_LOADS n)).loadStore n m
  s.setLth n { s.lth n with loads := k }

/-- SPINDLE_LOAD (R279): the domain has left reset or OFF, and the Spindle loads itself (DEDUCED, log entry 38). -/
def execSpindleLoad (n : Nat) (s : State) : Host.Outcome State Fault Refusal :=
  if s.hasLathe n ∧ s.pd (12 + n) = 0 ∧ s.fld (Reg.SPN_STATUS_STATE n) = 0 then
    .next ((s.setFld (Reg.SPN_STATUS_RETRIED n) 0).beginLoad n (s.fld (Reg.SPN_SRC_SEL n)) 1)
  else .next s

/-- SPN_CTRL takes a written word. -/
def State.spnCtrl (s : State) (n : Nat) (v : Word) : State :=
  let s := if v.getLsbD 0 then s.swSet (Reg.SPN_CTRL_LOCK n) 1 else s
  if v.getLsbD 1 ∧ (s.drained n ∨ s.fld (Reg.SPN_STATUS_STATE n) = 5) then
    let s := s.setFlds [(Reg.SPN_CTRL_RELOAD n, 1), (Reg.SPN_STATUS_RETRIED n, 0)]
    let s := s.setLth n { s.lth n with lastPic := none }
    s.beginLoad n (s.fld (Reg.SPN_SRC_SEL n)) 1
  else s

/-- SPN_RELOAD: a write of SPN_CTRL with RELOAD (R279), which has effect only while drained or FAILED. The first
picture after it pays the cost of another SID (R75). -/
def execSpnReload (n : Nat) (v : Word) (s : State) : Host.Outcome State Fault Refusal :=
  .next (if s.hasLathe n then s.onWrite .host (0x108004 + 0x10000 * n) v (fun s => s.spnCtrl n v) else s)

/-- The load has passed its verification: STATE reads READY, and the registers show the image that the manifest names
(R279, R287) (DEDUCED, log entry 38). -/
def State.loadReady (s : State) (n : Nat) (m : Manifest) : State :=
  let valid := (upTo 0 4).foldl (fun v k => v + (if nth 0 m.versions k = 0 then 0 else 2 ^ k)) 0
  let slot (k : Nat) : List (Fld × Nat) :=
    [(Reg.SPN_VSLOT_VERSION n k, nth 0 m.versions k), (Reg.SPN_VSLOT_VALID n k, if nth 0 m.versions k = 0 then 0 else 1),
     (Reg.SPN_VSLOT_WORDS n k, nth 0 m.closures k)]
  let s := s.setFlds (slot 0 ++ slot 1 ++ slot 2 ++ slot 3)
  s.setFlds [(Reg.SPN_STATUS_STATE n, 3), (Reg.SPN_STATUS_SLOTS_VALID n, valid), (Reg.SPN_BUILD_BUILD n, m.build),
    (Reg.SPN_SECVER_SECVER n, m.secver), (Reg.SPN_BASE_ID_BASE_ID n, m.baseId), (Reg.SPN_CTRL_RELOAD n, 0)]

/-- SPN_TRACE_CTRL takes a written word (R289): EN from 0 to 1 clears WRAPPED and keeps WR_PTR; the breakpoint fields are writable in
FACTORY and RETURNED only. -/
def State.traceCtrl (s : State) (n : Nat) (v : Word) : State :=
  let was := s.on (Reg.SPN_TRACE_CTRL_EN n)
  let s := (s.swSet (Reg.SPN_TRACE_CTRL_EN n) (bitsOf v 0 1)).swSet (Reg.SPN_TRACE_CTRL_FREEZE_ON_FAULT n) (bitsOf v 1 1)
  let s := if s.testLife then
      (s.swSet (Reg.SPN_TRACE_CTRL_BREAK_EN n) (bitsOf v 11 1)).swSet (Reg.SPN_TRACE_CTRL_BREAK_PC n) (bitsOf v 12 12)
    else s
  if v.getLsbD 0 ∧ ¬ was then s.setFld (Reg.SPN_TRACE_CTRL_WRAPPED n) 0 else s

/-- TRACE_ENABLE: a write of SPN_TRACE_CTRL (R289). -/
def execTraceEnable (n : Nat) (v : Word) (s : State) : Host.Outcome State Fault Refusal :=
  .next (if s.hasLathe n then s.onWrite .host (0x108044 + 0x10000 * n) v (fun s => s.traceCtrl n v) else s)

/-! ## Reruns -/

/-- The code of a rerun cause (R273). -/
def causeCode : RerunCause → Nat
  | .csUncorr => 1 | .pipeParity => 2 | .margin => 3 | .brk => 4

/-- The causes that can act now: BREAK only at BREAK_PC with BREAK_EN, in FACTORY and RETURNED (R273, R289). -/
def State.liveCauses (s : State) (n pc : Nat) (l : List RerunCause) : List RerunCause :=
  l.filter (fun c => c ≠ .brk || (s.testLife && s.on (Reg.SPN_TRACE_CTRL_BREAK_EN n) && s.fld (Reg.SPN_TRACE_CTRL_BREAK_PC n) = pc))

/-- The highest-priority cause of several that arrive together (R273). -/
def topCause : List RerunCause → Option RerunCause
  | [] => none
  | c :: r =>
    match topCause r with
    | some d => if causeCode d < causeCode c then some d else some c
    | none => some c

/-- The counter of a cause. -/
def causeCnt (n : Nat) : RerunCause → Nat
  | .csUncorr => Cnt.SPN_RERUN_CS n
  | .pipeParity => Cnt.SPN_RERUN_PARITY n
  | .margin => Cnt.SPN_RERUN_MARGIN n
  | .brk => Cnt.SPN_RERUN_BREAK n

/-- The trace event of a rerun: BREAK has its own. -/
def causeEvent : RerunCause → Nat
  | .brk => 5
  | _ => 2

/-- A step stops at its entry for good (R276): rung 1 is spent. -/
def State.rerunExhausted (s : State) (n : Nat) (r : Run) : State :=
  let s := s.setLth n { s.lth n with run := some { r with exhausted := true } }
  ((s.traceFreeze n).setLState r.task.entry 4).raise (206 + n) (Reg.SPN_FAULT_RERUN_EXHAUSTED n)

/-- The actions that start a rerun (R274): RD returns to MARK, in encode WR to where the routine entered (R111), the entry's STATE reads RERUN and
the rerun counts (DEDUCED, log entry 39). -/
def State.rerun (s : State) (n : Nat) (r : Run) (c : RerunCause) (loc pc : Nat) : State :=
  let l := s.lth n
  let enc := encOpcode (dOpcode r.task.desc)
  let q := if enc then { l.bsq with words := l.bsq.words.take r.entered } else { l.bsq with rd := 0 }
  let out := match r.out with
    | ws :: rest => if enc then (l.bsq.words.drop r.entered ++ ws) :: rest else r.out
    | [] => []
  let r' := { r with out := out, reruns := r.reruns + 1, stepReruns := r.stepReruns + 1,
                     uncorr := if c = .csUncorr then loc :: r.uncorr else r.uncorr }
  let s := s.setLth n { l with run := some r', bsq := q }
  let s := (s.bump (causeCnt n c)).bump (Cnt.CNT_RERUN n)
  let s := if enc then s else s.bump (Cnt.BSQ_REWINDS n)
  let s := (s.setLState r.task.entry 4).maxFld (Reg.FLT_LT_LADDER_RUNG n) 1
  s.traceRec n (causeEvent c) r.task.desc pc r.steps

/-- STEP_RERUN (R273 to R276): one rerun takes place for all the causes of a cycle, and the highest is recorded; an
abandon in the same cycle wins; past SPN_RERUN_LIMIT, or at a location uncorrectable twice in the task, rung 1 is
spent (DEDUCED, log entry 39). -/
def execStepRerun (n : Nat) (causes : List RerunCause) (loc pc : Nat) (abandon : Bool) (now : Nat) (s : State) :
    Host.Outcome State Fault Refusal :=
  let s := s.at now
  match (s.lth n).run, topCause (s.liveCauses n pc causes) with
  | some r, some c =>
    if abandon ∨ r.exhausted ∨ ¬ s.hasLathe n then .next s
    else
      let s := s.setFlds [(Reg.SPN_LAST_RERUN_CAUSE n, causeCode c), (Reg.SPN_LAST_RERUN_OPCODE n, dOpcode r.task.desc),
        (Reg.SPN_LAST_RERUN_PC n, pc)]
      let flip : Bool := causes.contains .csUncorr && s.csFlip n loc = 2
      let s := if flip then s.disarm else s
      let s := if causes.contains .csUncorr then s.csUncorr n loc r.task.desc pc flip r.steps else s
      let s := if causes.contains .pipeParity then s.raise (128 + n) (Reg.LTH_FAULT_PIPE_PARITY n) else s
      if causes.contains .csUncorr ∧ r.uncorr.contains loc then
        .next ((s.raise (206 + n) (Reg.SPN_FAULT_CS_HARD n)).rerunExhausted n r)
      else if atLeast1 (s.fld (Reg.SPN_RERUN_LIMIT_LIMIT n)) ≤ r.stepReruns then .next (s.rerunExhausted n r)
      else .next (s.rerun n r c loc pc)
  | _, _ => .next s

end Sys2Proof.Machine
end

