-- ==== Sys2Proof/Machine/Tasks.lean ====
section
/-!
DEFINITION. Tasks (R95 to R103, R268 to R272): their dispatch to a Lathe's queue, their start, what refuses them, and the
progress table (R87, R88).
-/
namespace Sys2Proof.Machine

/-! ## Dispatch to a Lathe (R207, R208) -/

/-- The most tasks of a queue (R99). -/
def tqSize : Nat := 64

/-- Whether a task is a live one (R30, R195): its stream's class says so; of an SID that is not open, the task itself. -/
def State.liveTask (s : State) (d : List Nat) : Bool :=
  if (s.stream (dSid d)).state ≠ 0 then decide ((s.stream (dSid d)).cls ≤ 1) else dLive d

/-- The Shepherd makes a task dispatchable (R207): it asks for a TASK entry for it, the stream's SID being the ORIGIN. -/
def State.dispatch (s : State) (n : Nat) (desc : List Nat) : State :=
  let d : Disp := ⟨n, desc, s.dispTag⟩
  let s' := { s with disps := s.disps ++ [d], dispTag := s.dispTag + 1 }
  s'.ask .task (s.liveTask desc) (dSid desc) s.dispTag

/-- The first dispatch for Lathe n whose stream has no earlier one waiting (R207). -/
def nextDisp (n : Nat) : List Disp → List Nat → Option Disp
  | [], _ => none
  | d :: r, seen =>
    if d.lathe = n ∧ ¬ seen.contains (dSid d.desc) then some d else nextDisp n r (dSid d.desc :: seen)

/-- Words 2 to 15 of a TASK entry: descriptor words 0 to 13 (R101). -/
def taskWords (desc : List Nat) : List Nat := (upTo 0 14).map (fun k => dw desc k)

/-- A push at Lathe n's queue (R100): accepted while fewer than 64 are queued, else refused and kept for the retry. -/
def State.tqPush (s : State) (n : Nat) (t : QTask) (pop : Bool) : State :=
  let l := s.lth n
  if l.queue.length < tqSize then
    (s.setLth n { l with queue := l.queue ++ [t] }).maxFld (Reg.LTH_TQ_PEAK n) (l.queue.length + 1 - (if pop ∧ l.queue ≠ [] then 1 else 0))
  else s.setLth n { l with retry := l.retry ++ [t] }

/-! ## Pop and start -/

/-- The task at the head of a Lathe's queue. -/
def State.headTask (s : State) (n : Nat) : Option QTask := (s.lth n).queue.head?

/-- The picture that a descriptor carries: its SID, PIC_SEQ and direction (R75). -/
def State.picOf (s : State) (d : List Nat) : Nat × Nat × Bool :=
  (dSid d, dPicSeq d, if 0x60 ≤ dOpcode d then (s.stream (dSid d)).dir = 1 else encOpcode (dOpcode d))

/-- Whether DRAIN keeps the Lathe from popping a task: it finishes the current picture and pops nothing after it. -/
def State.drainStops (s : State) (n : Nat) (d : List Nat) : Bool :=
  s.on (Reg.LTH_CTRL_DRAIN n) && !(carriesPicture (dOpcode d) && (s.lth n).lastPic = some (s.picOf d))

/-- Whether Lathe n can pop its head task: it is present, ON, its control store is READY and it runs nothing. -/
def State.canPop (s : State) (n : Nat) (d : List Nat) : Bool :=
  s.hasLathe n && s.pd (12 + n) ≤ 1 && s.fld (Reg.SPN_STATUS_STATE n) = 3 && (s.lth n).run.isNone && !s.drainStops n d

/-- The 4 words of a result (R98). -/
def resultWords (status reruns tag cycles bytes statics concealed : Nat) (abandoned : Bool) : List Nat :=
  [status % 256 + (if abandoned then 256 else 0) + min reruns 127 * 2 ^ 9 + tag * 2 ^ 16, min cycles (2 ^ 32 - 1),
   bytes % 2 ^ 32, statics % 2 ^ 16 + concealed % 2 ^ 16 * 2 ^ 16]

/-- A task completes without running (R97, R103, R270): result, TASK_DONE, CNT_TASKS, and its entry returns (DEDUCED, log entry 34). -/
def State.taskRefused (s : State) (n : Nat) (t : QTask) (status : Nat) : State :=
  let s := s.setLth n { s.lth n with lastRes := resultWords status 0 (dTag t.desc) 0 0 0 0 false }
  ((s.bump (Cnt.CNT_TASKS n)).release t.entry).pulse (5 * n)

/-- The run of a task at its start. -/
def run0 (t : QTask) (start : Nat) : Run :=
  { task := t, start := start, reruns := 0, stepReruns := 0, steps := 0, uncorr := [], exhausted := false,
    timedOut := false, waiting := [], dep := false, out := [], dropping := false, itemOver := false, entered := 0, pos := 0, done := false, status := 0, concealed := 0, statics := 0, blocks := 0,
    lost := false, lossCode := 0, acc := [], damage := none, taint := false, enc := none, encIn := none,
    encSt := none, dec := none, hdr := none, commit := none }

/-- The bound of a change between pictures in CK_CORE cycles of 1.188 GHz (R75). -/
def switchBound (last : Option (Nat × Nat × Bool)) (p : Nat × Nat × Bool) : Nat :=
  match last with
  | none => 3564
  | some q => if q = p then 0 else if q.2.2 != p.2.2 then 5940 else if q.1 ≠ p.1 then 3564 else 594

/-- A change, with a wake from RET or OFF before it, counts at most its bound in CYC_SWITCH, by a free value: the spec bounds it only (R75)
(DESIGN CHOICE, log entry 32). -/
def State.countSwitch (s : State) (n : Nat) (d : List Nat) : State :=
  if carriesPicture (dOpcode d) then
    let b := switchBound (s.lth n).lastPic (s.picOf d) + (s.lth n).woke
    let s := if b = 0 then s else s.freeNext.bump (Cnt.CYC_SWITCH n) (s.freeVal % (b + 1))
    s.setLth n { s.lth n with lastPic := some (s.picOf d), woke := 0 }
  else s

/-- Lathe n pops and starts its head task if it can and the task's opcode satisfies `ok`: it is refused (R97), or finds
no routine (R270), or runs once what `ready` says of it holds; the run is answered where it runs (DESIGN CHOICE, log entry 33). -/
def State.begin (s : State) (n : Nat) (ok : Nat → Bool) (ready : List Nat → Bool := fun _ => true) : State × Option Run :=
  match s.headTask n with
  | none => (s, none)
  | some t =>
    let d := t.desc
    let st := s.descCheck n d
    let runs : Bool := st = 0 && nbits (s.dispEntry n d) 12 1 = 1
    if ¬ ok (dOpcode d) ∨ ¬ s.canPop n d ∨ (runs ∧ ¬ ready d) then (s, none)
    else
      let l := s.lth n
      let s := s.setLth n { l with queue := l.queue.drop 1, curDesc := d, bsq := { l.bsq with flushed := false } }
      if st ≠ 0 then
        let s := s.raise (128 + n) (Reg.LTH_FAULT_DESC_BAD n)
        let s := if st = 11 then s.raise (128 + n) (Reg.LTH_FAULT_VERSION n) else s
        (s.taskRefused n t st, none)
      else if nbits (s.dispEntry n d) 12 1 = 0 then
        let s := s.setFld (Reg.SPN_FAULT_NO_ENTRY n) 1
        (s.taskRefused n t 2, none)
      else
        let r := run0 t s.time
        let s := ((s.countSwitch n d).setLState t.entry 3).traceRec n 0 d (s.entryPc n d) 0
        let s := s.setLth n { s.lth n with run := some r }
        (s, some r)

/-- The run of Lathe n is set. -/
def State.setRun (s : State) (n : Nat) (r : Run) : State := s.setLth n { s.lth n with run := some r }

/-- The routine of Lathe n's run has ended: its last step commits (R271). -/
def State.ended (s : State) (n : Nat) (r : Run) : State :=
  let s := (s.bump (Cnt.SPN_STEPS n)).traceRec n 1 r.task.desc (s.entryPc n r.task.desc) r.steps
  s.setRun n { r with done := true, steps := r.steps + 1, stepReruns := 0 }

/-- The line bytes that a picture's tasks asked of the DRAM controller count against its stream's tag (R312) (DESIGN CHOICE, log entry 137). -/
def State.tasksMoved (s : State) (d : List Nat) (bytes : Nat) : State := s.account (Cnt.DMC_ACCT (dSid d)) bytes

/-! ## The progress table (R87, R88) -/

/-- The key of a row: rendition 0 to 3 of a picture's coding rows, or 4 for its analysis rows. -/
def rowKey (sid kind row : Nat) : Nat := sid * 4096 + kind * 512 + row

/-- Completed blocks of a row. -/
def State.prog (s : State) (k : Nat) : Nat := tget 0 s.progress k

/-- Writes a row's count. -/
def State.setProg (s : State) (k v : Nat) : State := { s with progress := tset 0 s.progress k v }

/-- The progress table of a picture starts empty (R219). -/
def State.clearProg (s : State) (sid : Nat) (kinds : List Nat) : State :=
  { s with progress := tclear (fun k => k / 4096 = sid && kinds.contains (k / 512 % 8)) s.progress }

/-- Whether block c of a row may start: the row above has completed blocks 0 to min(c + L, N − 1), or there is no
dependency (R87). -/
def State.depMet (s : State) (sid kind row lag c N : Nat) : Bool :=
  lag = 0xFF || row = 0 || min (c + lag) (N - 1) < s.prog (rowKey sid kind (row - 1))

/-! ## Rows of the table that concern no picture -/

/-- The shed level that a stream applies: live streams are never shed (R215). -/
def State.levelFor (s : State) (x : Stream) : Nat := if x.cls ≤ 1 then 0 else s.fld Reg.SHP_SHED_LEVEL

/-- Whether a level skips the skippable pictures of a decode stream of a class (R214). -/
def decSkips (cls level : Nat) : Bool := (cls = 3 && level = 1) || (cls = 2 && level = 3)

/-- Whether a task belongs to a picture that its stream has started. -/
def State.ofRunning (s : State) (d : List Nat) : Bool :=
  let x := s.stream (dSid d)
  if encOpcode (dOpcode d) then (x.rendition (dRend d)).cur.map (fun p => p.c % 65536) = some (dPicSeq d)
  else x.dec.cur.map (fun p => p.seq) = some (dPicSeq d)

/-- TASK_GRANT_PUSH (R100, R101, R207): the entry is granted and the descriptor pushed; while a refused push waits, no
other task goes to that Lathe (R208), and the granted one waits behind it. -/
def execTaskGrantPush (n : Nat) (pop : Bool) (now : Nat) (s : State) : Host.Outcome State Fault Refusal :=
  let s := s.at now
  match nextDisp n s.disps [] with
  | none => .next s
  | some d =>
    match s.grantBucket .task d.tag with
    | none => .next s
    | some b =>
      let e := s.nextEntry
      let s := s.grant .task d.tag b 1 (taskWords d.desc)
      let s := { s with disps := s.disps.filter (fun x => x.tag ≠ d.tag) }
      let l := s.lth n
      .next (if l.retry = [] then s.tqPush n ⟨d.desc, e, 0, []⟩ pop
        else s.setLth n { l with retry := l.retry ++ [⟨d.desc, e, 0, []⟩] })

/-- TASK_PUSH_RETRY (R208): with the same descriptor and entry, once the depth is below 64. -/
def execTaskPushRetry (n now : Nat) (s : State) : Host.Outcome State Fault Refusal :=
  let s := s.at now
  match (s.lth n).retry with
  | t :: rest =>
    if (s.lth n).queue.length < tqSize then
      .next (((s.setLth n { s.lth n with retry := rest }).tqPush n t false).bump Cnt.SHP_PUSH_RETRIES)
    else .next s
  | [] => .next s

/-- A task that needs no data runs: its routine ends at once with a status. -/
def State.runAtOnce (s : State) (n op status now : Nat) : State :=
  match (s.at now).begin n (fun o => o = op) with
  | (s, some r) => s.ended n { r with status := status }
  | (s, none) => s

/-- NOP (R95): completes OK at once. -/
def execNop (n now : Nat) (s : State) : Host.Outcome State Fault Refusal := .next (s.runAtOnce n 0 0 now)

/-- The pulses of a source that have entered the event matrix. -/
def State.pulsesOf (s : State) (x : Nat) : Nat := tget 0 s.evm.seen x

/-- WAIT_EVENT (R95): the task starts and waits for the next pulse of the source that word 2 names. -/
def execWaitEvent (n now : Nat) (s : State) : Host.Outcome State Fault Refusal :=
  match (s.at now).begin n (fun o => o = 1) with
  | (s, some r) => .next (s.setRun n { r with pos := s.pulsesOf (dLag r.task.desc) })
  | (s, none) => .next s

/-- SELF_TEST (R95): the built-in vectors run, and the CRC of the result is compared. It completes OK; the spec does not
say which status a test whose CRC differs completes with, and it is a free one of R11's other codes (DESIGN CHOICE, log entry 35). -/
def execSelfTest (n : Nat) (crcOk : Bool) (now : Nat) (s : State) : Host.Outcome State Fault Refusal :=
  match (s.at now).begin n (fun o => o = 2) with
  | (s, some r) => .next (if crcOk then s.ended n r else s.freeNext.ended n { r with status := 1 + s.freeVal % 11 })
  | (s, none) => .next s

/-- UNKNOWN_OPCODE (R95): an opcode that the base microcode does not define, and no patch may, completes with
BAD_PARAM. -/
def execUnknownOpcode (n now : Nat) (s : State) : Host.Outcome State Fault Refusal :=
  let known (o : Nat) : Bool := o ≤ 2 || (0x10 ≤ o && o ≤ 0x16) || (0x30 ≤ o && o ≤ 0x33) || (0x60 ≤ o && o ≤ 0x62)
    || 0x80 ≤ o
  match (s.at now).begin n (fun o => !known o) with
  | (s, some r) => .next ({ s with lathes := tset lathe0 s.lathes n { s.lth n with run := none } }.taskRefused n r.task 2)
  | (s, none) => .next s

/-- PATCH_OPCODE (R268, R270): dispatched through the common table; what the patch's routine computes is its own, and it
completes with a status of R11 that is a free value (DESIGN CHOICE, log entry 35). -/
def execPatchOpcode (n now : Nat) (s : State) : Host.Outcome State Fault Refusal :=
  match (s.at now).begin n (fun o => 0x80 ≤ o) with
  | (s, some r) => .next (s.freeNext.ended n { r with status := s.freeVal % 12 })
  | (s, none) => .next s

/-- The staged descriptor is pushed with word 15: it takes a TASK entry like any other; a full queue sets PUSH_REFUSED. -/
def State.pushStaged (s : State) (n : Nat) (v : Word) : State :=
  if s.hasLathe n ∧ s.on (Reg.LTH_CTRL_DIRECT_TQ n) then
    let desc := (upTo 0 15).map (fun k => tget 0 (s.lth n).push k) ++ [v.toNat]
    if (s.lth n).queue.length < tqSize then s.dispatch n desc
    else s.raise (128 + n) (Reg.LTH_FAULT_PUSH_REFUSED n)
  else s

/-- LTH_TQ_PUSH: a write of word 15 of the staging words (R104): ignored unless DIRECT_TQ is set. -/
def execLthTqPush (rq : Requester) (n : Nat) (v : Word) (now : Nat) (s : State) : Host.Outcome State Fault Refusal :=
  .next ((s.at now).onWrite rq (0x1000FC + 0x10000 * n) v (fun s => s.pushStaged n v))

/-- LATHE_DRAIN: a write of LTH_CTRL.DRAIN = 1 (R104): the Lathe finishes the current picture and pops nothing after. -/
def execLatheDrain (n : Nat) (s : State) : Host.Outcome State Fault Refusal :=
  .next (if s.hasLathe n then
      s.onWrite .host (0x100008 + 0x10000 * n) (BitVec.ofNat 32 (1 + 2 * s.keptFld (Reg.LTH_CTRL_DIRECT_TQ n)))
        (fun s => s.setFld (Reg.LTH_CTRL_DRAIN n) 1)
    else s)

/-- BSQ_FLUSH_REQUEST (R114). -/
def execBsqFlushRequest (n : Nat) (s : State) : Host.Outcome State Fault Refusal :=
  .next (if s.hasLathe n then s.onWrite .host (0x100208 + 0x10000 * n) 1 (fun s => s.bsqRequest n) else s)

/-- BSQ_FLUSH (R114, R115): the pending flush takes effect once no routine holds words. -/
def execBsqFlush (n inFlight : Nat) (c : CycleIn) (s : State) : Host.Outcome State Fault Refusal :=
  .next (if (s.bsq n).flushPending ∧ (s.bsq n).rd = 0 then s.bsqFlush n inFlight c else s)

end Sys2Proof.Machine
end

