-- ==== Sys2Proof/Machine/Standards.lean ====
section
/-!
DEFINITION. What the coding standards admit and carry (R39 to R54, R58, R61, R65).
-/
namespace Sys2Proof.Machine

/-! ## Standards (R39 to R54): the codes of profiles are the positions of their rows in the tables -/

/-- Whether a profile is accepted for decode (R40, R43, R46, R49). -/
def profileDec (std p : Nat) : Bool :=
  if std = 0 then p ≤ 15 else if std = 1 then p ≤ 6 else if std = 2 then p ≤ 2 else p ≤ 8

/-- Whether a profile is produced by encode (R40, R43, R46). -/
def profileEnc (std p : Nat) : Bool :=
  if std = 0 then [0, 2, 3, 4, 7, 8, 15].contains p else if std = 1 then p = 0 || p = 2 else std = 2 && p ≤ 2

/-- The highest level in tenths (R39). -/
def levelTop (std : Nat) : Nat := if std = 2 then 63 else 62

/-- Whether a level passes (R39); 255 is the unconstrained one, which H.264 has not (R65). -/
def levelOk (std l : Nat) : Bool := (std ≠ 3 && l = 255) || l ≤ levelTop std

/-- Whether a sequence shows a tool or flag that its standard's decode refuses (R41, R47, R49); profile 8 of H.264 is Baseline. -/
def refusedTool (std profile : Nat) (t : Tools) : Bool :=
  (std = 0 && (t.extPrecision || t.cabacAlign)) || (std = 2 && t.largeScaleTile)
    || (std = 3 && ((profile = 8 && !t.constraintSet1) || t.fmo || t.aso || t.redundant))

/-- The carriers of MDCV and CLL (R58): SEI payloadTypes 137 and 144, or the metadata_types 2 and 1 of AV1. -/
def mdcvCarrier (std : Nat) : Nat := if std = 2 then 2 else 137
def cllCarrier (std : Nat) : Nat := if std = 2 then 1 else 144

/-- ⌊n / d + 0.5⌋ clipped to a field of w bits (R61). -/
def roundTo (w n d : Nat) : Nat := min ((2 * n + d) / (2 * d)) (2 ^ w - 1)

/-- MDCV values as received, in HEVC units: AV1 codes chromaticities as 0.16, the maximum as 24.8 and the minimum as 18.14 (R61)
(DEDUCED, log entry 84). -/
def mdcvIn (std : Nat) (l : List Nat) : List Nat :=
  if std = 2 then (l.take 8).map (fun a => roundTo 16 (a * 100000) 131072) ++ ((l.drop 8).take 1).map (fun a => roundTo 32 (a * 10000) 256)
      ++ ((l.drop 9).take 1).map (fun a => roundTo 32 (a * 10000) 16384)
  else l

/-- MDCV values in the units of the standard that they are sent in (R61). -/
def mdcvOut (std : Nat) (l : List Nat) : List Nat :=
  if std = 2 then (l.take 8).map (fun h => roundTo 16 (h * 131072) 100000) ++ ((l.drop 8).take 1).map (fun h => roundTo 32 (h * 256) 10000)
      ++ ((l.drop 9).take 1).map (fun h => roundTo 32 (h * 16384) 10000)
  else l

/-- Whether a picture size passes (R51). -/
def sizeOk (w h : Nat) : Bool := 64 ≤ w && w ≤ 8192 && 64 ≤ h && h ≤ 8192 && w * h ≤ 35389440

/-- Whether a picture period in crystal ticks passes the rate limit (R52). -/
def rateOk (w h period : Nat) : Bool := if w * h ≤ 2073600 then 112500 ≤ period else 225000 ≤ period

/-- Whether chroma format and depth are available for decode (R54); chroma by the codes of R232. -/
def depthDec (std chroma d : Nat) : Bool :=
  if std = 0 then chroma ≤ 3 && 8 ≤ d && d ≤ 12
  else if std = 1 then chroma ≤ 3 && ((8 ≤ d && d ≤ 10) || (d = 12 && (chroma = 0 || chroma = 3)))
  else if std = 2 then chroma ≤ 3 && (d = 8 || d = 10 || d = 12)
  else (chroma ≤ 1 || chroma = 3) && 8 ≤ d && d ≤ 10

/-- Whether chroma format and depth are available for encode (R54). -/
def depthEnc (std chroma d : Nat) : Bool :=
  chroma ≤ 2 && (if std = 1 then d = 8 || d = 10 else std ≤ 2 && (d = 8 || d = 10 || d = 12))

/-- The rank of a chroma format by its samples. -/
def chromaRank (c : Nat) : Nat := if c = 3 then 0 else c + 1

end Sys2Proof.Machine
end

