-- ==== Sys2Proof/Machine/Conceal.lean ====
section
/-!
DEFINITION. What a decoder keeps of a picture's blocks, the references that it resolves (R124, R125), and the concealment of a lost
block (R122, R128, R129).
-/
namespace Sys2Proof.Machine

/-! ## The blocks of the pictures that are being decoded -/

/-- A block that has not completed. -/
def blk0 : Blk := ⟨0, (0, 0), 0, 0⟩

/-- The key of a block of a stream's picture. -/
def blkKey (sid row col : Nat) : Nat := sid * 2 ^ 18 + row * 512 + col

/-- A block of the picture that stream sid decodes. -/
def State.blk (s : State) (sid row col : Nat) : Blk := tget blk0 s.blks (blkKey sid row col)

/-- Records a block. -/
def State.setBlk (s : State) (sid row col : Nat) (b : Blk) : State := { s with blks := tset blk0 s.blks (blkKey sid row col) b }

/-- Whether a block has been decoded. -/
def Blk.decoded (b : Blk) : Bool := b.st = 1 || b.st = 2

/-- A stream's next picture has no block yet. -/
def State.clearBlks (s : State) (sid : Nat) : State := { s with blks := tclear (fun k => k / 2 ^ 18 = sid) s.blks }

/-- Nor has a row whose task starts anew. -/
def State.clearRow (s : State) (sid row : Nat) : State := { s with blks := tclear (fun k => k / 512 = sid * 512 + row) s.blks }

/-- The stored motion of a picture (R137): its inter blocks, by row * 512 + column. -/
def State.motionOf (s : State) (sid : Nat) : Tbl Blk :=
  (s.blks.filter (fun e => e.1 / 2 ^ 18 = sid && e.2.st = 2)).map (fun e => (e.1 % 2 ^ 18, e.2))

/-! ## References (R124, R125) -/

/-- The distance of two numbers. -/
def absDiff (a b : Int) : Nat := (a - b).natAbs

/-- The picture nearest in output order, the earlier one on a tie (R125). -/
def nearestPic (poc : Int) : List DpbPic → Option DpbPic
  | [] => none
  | p :: r =>
    match nearestPic poc r with
    | none => some p
    | some q =>
      if absDiff p.poc poc < absDiff q.poc poc ∨ (absDiff p.poc poc = absDiff q.poc poc ∧ p.poc ≤ q.poc) then some p
      else some q

/-- How the decoder resolves an entry of an active list: the picture, or a phantom (R124, R125). -/
def resolve (std : Nat) (dpb : List DpbPic) (e : RefIn) : RefSlot :=
  match dpb.find? (fun p => p.id = e.picId) with
  | some p => ⟨some p, false⟩
  | none => ⟨if std = 2 then dpb.getLast? else nearestPic e.poc dpb, true⟩

/-- Whether an entry of the lists is a phantom or a tainted picture (R126). -/
def DecPic.badRef (cur : DecPic) (k : Nat) : Bool :=
  match cur.refs[k]? with
  | some f => f.phantom || (match f.pic with
      | some p => p.taint
      | none => false)
  | none => false

/-- Whether a block predicts from a phantom or a tainted picture, directly or through a collocated motion lookup (R126). -/
def taintedRefs (cur : DecPic) (b : BlockIn) : Bool := b.inter && (b.refsUsed ++ b.colRef.toList).any cur.badRef

/-! ## Concealment (R128, R129) -/

/-- What a row task works on. -/
structure RowCtx where
  n : Nat
  sid : Nat
  x : Stream
  cur : DecPic
  q : SeqHdr
  row : Nat
  lag : Nat
  N : Nat
  mode : Nat
deriving DecidableEq, Repr

/-- The block above, where the row depends on the row above: a row with LAG 0xFF reads nothing of it, so that every rerun conceals alike
(R87, R129) (DEDUCED, log entry 43). -/
def State.blkAbove (s : State) (c : RowCtx) (col : Nat) : Blk :=
  if c.lag = 0xFF ∨ c.row = 0 then blk0 else s.blk c.sid (c.row - 1) col

/-- The mode that a lost block takes: 0 FILL, 1 COPY, 2 MOTION, 3 SPATIAL (R129). -/
def concealMode (x : Stream) (cur : DecPic) (above : Bool) : Nat :=
  let real := match cur.refs.head? with
    | some f => !f.phantom && f.pic.isSome
    | none => false
  let prev := x.dec.prev.isSome
  let m := if x.policy = 0 then
      (if !cur.intra && real then 2 else if prev then 1 else if above then 3 else 0)
    else x.policy - 1
  let m := if m = 2 ∧ ¬ real then 1 else m
  let m := if m = 1 ∧ ¬ prev then 0 else m
  if m = 3 ∧ ¬ above then 0 else m

/-- The middle of three numbers. -/
def median3 (a b c : Int) : Int := max (min a b) (min (max a b) c)

/-- A candidate counts only when it was decoded as inter (R128). -/
def Blk.candidate (b : Blk) : Option (Int × Int) := if b.st = 2 then some b.mv else none

/-- The substitute motion vector, in sixteenths of a sample, of the candidates above, left and co-located (R128). -/
def substMv : List (Int × Int) → Int × Int
  | [a, l, c] => (median3 a.1 l.1 c.1, median3 a.2 l.2 c.2)
  | v :: _ => v
  | [] => (0, 0)

/-- The candidates of a block that count; in the first picture after a start point the co-located one never does (R136). -/
def State.mvCandidates (s : State) (c : RowCtx) (col : Nat) : List (Int × Int) :=
  let left := if col = 0 then blk0 else s.blk c.sid c.row (col - 1)
  let coloc := match (c.cur.refs.head?).bind (fun f => f.pic) with
    | some p => if c.cur.first then blk0 else tget blk0 p.motion (c.row * 512 + col)
    | none => blk0
  [s.blkAbove c col, left, coloc].filterMap Blk.candidate

/-- A vector component rounded half up to whole samples and clipped so that the block lies within the picture extended by
64 samples (R128). -/
def mvWhole (v : Int) (x0 len size : Nat) : Int :=
  max (-64 - (x0 : Int)) (min ((size : Int) + 64 - x0 - len) ((v + 8) / 16))

/-- A coordinate held within a plane: samples outside repeat the edge. -/
def heldIn (v : Int) (size : Nat) : Nat := if v < 0 then 0 else min v.toNat (size - 1)

/-- The samples of a rectangle. -/
def rectPx (x0 y0 w h : Nat) : List (Nat × Nat) :=
  ((upTo y0 h).map (fun y => (upTo x0 w).map (fun x => (x, y)))).flatten

/-- The horizontal and vertical subsampling of a plane. -/
def planeSteps (format p : Nat) : Nat × Nat := if planeSub format p then (subX format, subY format) else (1, 1)

/-- The sample of another picture at a place of plane p of picture u, displaced: in a picture of another size, at the place in proportion
(R125); a sample in a poisoned tile reads as the FILL colour (DESIGN CHOICE, log entry 127). -/
def State.sampleFrom (s : State) (x : Stream) (u v : Surf) (p : Nat) (dx dy : Int) (c : Nat × Nat) : Nat :=
  let at_ (k : Int) (a b : Nat) : Nat := heldIn (if a = b then k else k * a / (atLeast1 b : Nat)) a
  (s.sample v p (at_ (c.1 + dx) (planeW v p) (planeW u p)) (at_ (c.2 + dy) (planeH v p) (planeH u p))).getD (x.fill p)

/-- Fills the block (col, row) of plane p of the current picture by a mode; `line` is 1 + the row of the last decoded block above it. In a
subsampled plane MOTION takes the vector of whole luma samples divided by the subsampling and rounded down
(DESIGN CHOICE, log entry 127). -/
def State.concealPlane (s : State) (c : RowCtx) (col mode line p : Nat) : State :=
  let u := c.cur.refSurf
  let st := planeSteps u.format p
  let x0 := col * c.q.block / st.1
  let y0 := c.row * c.q.block / st.2
  let w := min (c.q.block / st.1) (planeW u p - x0)
  let h := min (c.q.block / st.2) (planeH u p - y0)
  let mv := substMv (s.mvCandidates c col)
  let mx := mvWhole mv.1 (col * c.q.block) c.q.block u.w / (st.1 : Nat)
  let my := mvWhole mv.2 (c.row * c.q.block) c.q.block u.h / (st.2 : Nat)
  let val (k : Nat × Nat) : Nat :=
    match mode, c.x.dec.prev, (c.cur.refs.head?).bind (fun f => f.pic) with
    | 1, some v, _ => s.sampleFrom c.x u v.surf p 0 0 k
    | 2, _, some v => s.sampleFrom c.x u v.refSurf p mx my k
    | 3, _, _ => (s.sample u p k.1 (line * c.q.block / st.2 - 1)).getD (c.x.fill p)
    | _, _, _ => c.x.fill p
  (rectPx x0 y0 w h).foldl (fun t k =>
    let t := t.putSample u p k.1 k.2 (val k)
    if c.cur.surf.addr = u.addr then t else t.putSample c.cur.surf p k.1 k.2 (val k)) s

/-- Conceals a block in every plane (R128), under the code of the damage that lost it (DEDUCED, log entry 43). -/
def State.concealBlock (s : State) (c : RowCtx) (col code : Nat) : State :=
  let line := (s.blkAbove c col).dec
  let mode := concealMode c.x c.cur (0 < line)
  let s := (upTo 0 (planesOf c.cur.refSurf.format)).foldl (fun t p => t.concealPlane c col mode line p) s
  s.setBlk c.sid c.row col ⟨3, (0, 0), code, line⟩

/-- Whether a sample lies in a concealed block, which no in-loop filter of a later block touches (R122). -/
def State.inConcealed (s : State) (c : RowCtx) (k : Px) : Bool :=
  let st := planeSteps c.cur.refSurf.format k.plane
  (s.blk c.sid (k.y * st.2 / atLeast1 c.q.block) (k.x * st.1 / atLeast1 c.q.block)).st = 3

end Sys2Proof.Machine
end

