-- ==== Sys2Proof/Machine/DecTasks.lean ====
section
/-!
DEFINITION. Decoding (R47, R50, R62, R67, R68, R76, R85, R116 to R139): the in-band checks, pictures, blocks, damage and the spans that
it loses. What a task does to its stream's records waits in its run for the task's commit (R272).
-/
namespace Sys2Proof.Machine

/-! ## Sequences (R67, R68) -/

/-- The reason of the first in-band check that a sequence header fails, or 0 (R62, R67, R68). -/
def seqReason (x : Stream) (h : SeqHdr) : Nat :=
  if ¬ profileDec x.std h.profile then 2
  else if ¬ levelOk x.std h.level then 3
  else if ¬ sizeOk h.width h.height then 4
  else if ¬ (depthDec x.std h.chroma h.depthY ∧ depthDec x.std h.chroma h.depthC) then 6
  else if refusedTool x.std h.profile h.tools then 7
  else if h.interlaced then 8
  else if x.maxW < h.width ∨ x.maxH < h.height ∨ x.maxDepth < max h.depthY h.depthC
      ∨ chromaRank x.maxChroma < chromaRank h.chroma then 9
  else 0

/-- Whether a sequence header can be parsed: an AV1 one in the format that the stream was opened with (R47)
(DEDUCED, log entry 128). -/
def seqParses (x : Stream) (h : SeqHdr) : Bool := h.parses && (x.std ≠ 2 || h.annexB = x.annexB)

/-- Whether a time lies after a deadline, which is a ledger time modulo 2^32 (DEDUCED, log entry 45). -/
def isLate (deadline t : Nat) : Bool :=
  deadline % 2 ^ 32 != t % 2 ^ 32 && (t % 2 ^ 32 + 2 ^ 32 - deadline % 2 ^ 32) % 2 ^ 32 < 2 ^ 31

/-- Whether a stream's previous picture has ended (R76). -/
def State.noPic (s : State) (d : List Nat) : Bool := (s.stream (dSid d)).dec.cur.isNone

/-- Whether the picture of a task is the one that its stream decodes (R76). -/
def State.curPic (s : State) (d : List Nat) : Bool := (s.stream (dSid d)).dec.cur.map (fun c => c.seq) = some (dPicSeq d)

/-- DEC_SEQ (R67, R68): the header is parsed and checked; its outcome reaches the stream at the commit. A header that
cannot be parsed fails the check, with damage SEQ_HEADER; its reason is a free value, for R62 names none. The picture
before it ends first. The header of a layer that is not decoded is discarded (R47, R50) (DESIGN CHOICE, log entry 42). -/
def execDecSeq (n : Nat) (h : SeqHdr) (now : Nat) (s : State) : Host.Outcome State Fault Refusal :=
  match (s.at now).begin n (fun o => o = 0x10) s.noPic with
  | (s, some r) =>
    let x := s.stream (dSid r.task.desc)
    let d := x.dec
    if h.layer ≠ 0 then .next (s.ended n r)
    else if ¬ seqParses x h then
      let r := { r with dec := some { d with seq := none }, lost := true, lossCode := s.freeVal % 10 + 1,
                        damage := some (0x0D, dRow r.task.desc, 0, s.time), acc := [(3, 1), (15, 1)] }
      .next (s.freeNext.ended n r)
    else
      let why := seqReason x h
      if why ≠ 0 then
        .next (s.ended n { r with dec := some { d with seq := none }, lost := true, lossCode := why, acc := [(15, 1)] })
      else
        let d := { d with seq := some h, needStart := if d.seq.isNone ∧ d.needStart = 0 then 2 else d.needStart }
        .next (s.ended n { r with dec := some d })
  | (s, none) => .next s

/-! ## A picture's start -/

/-- Whether a picture is decoded at all (`directed`: the Shepherd skips it where it may, R206, R214): not before a start point, not a RASL
picture of a CRA start, not directed to be skipped, and not of a refused sequence (R67, R132, R133, R135). -/
def decodes (x : Stream) (h : PicHdr) (directed : Nat) : Bool :=
  x.dec.seq.isSome
    && (x.dec.needStart = 0 || (x.dec.needStart = 1 && (h.startPoint || (x.startAny && h.parses))) || h.irap)
    && !(h.rasl && x.dec.craStart) && !(directed != 0 && h.skippable)

/-- The decoded picture buffer and the metadata with which a picture starts: a new coded video sequence ends both (R59, R124). -/
def DecSt.enter (ds : DecSt) (h : PicHdr) : DecSt :=
  if h.newSeq then { ds with dpb := [], hdr := noHdr } else { ds with dpb := ds.dpb.filter (fun p => h.keep.contains p.id) }

/-- The recovery state with which a picture starts (R127, R134): the point awaited, and whether the stream's pictures are tainted since
it started at no IRAP picture. -/
def DecSt.recover (ds : DecSt) (h : PicHdr) : DecSt :=
  { ds with unrecovered := if ds.needStart = 0 then ds.unrecovered else !h.irap,
            recovery := match h.recoveryAt with
              | some p => some (p, true)
              | none => if h.irap then none else ds.recovery }

/-- The picture that a decode starts, and its stream's private state (R85, R124, R127, R133 to R136). -/
def startPic (x : Stream) (d : List Nat) (h : PicHdr) (q : SeqHdr) (time : Nat) : DecSt :=
  let ds := (x.dec.enter h).recover h
  let refs := h.refs.map (resolve x.std ds.dpb)
  let miss := (refs.filter (fun f => f.phantom)).length
  let bad := if ¬ h.parses then 7 else if ¬ h.paramsHeld then 8 else if 0 < miss then 0x0B else 0
  let before := ds.recovery.any (fun e => decide (h.poc < e.1))
  let hides : Bool := ds.unrecovered && before && x.std ≤ 1 && !x.showUnrecovered
  let wh := if x.std = 1 then h.size.getD (q.width, q.height) else (q.width, q.height)
  let surf : Surf := ⟨dDst d, wh.1, wh.2, q.chroma, 0⟩
  let cur : DecPic :=
    { id := h.picId, poc := h.poc, seq := dPicSeq d, intra := h.intraPic,
      clears := h.irap || ds.recovery.any (fun e => decide (h.poc = e.1) && e.2),
      surf := surf, refSurf := (h.grain.map (fun a => { surf with addr := a })).getD surf, refs := refs,
      first := x.dec.needStart ≠ 0, parseAhead := !h.allRowsStartSegment, skip := false, directed := 0, layer := 0,
      shown := !hides, started := h.startPoint && x.dec.needStart ≠ 0, finalAt := none, syn := [], parsed := false, rowsDone := [], taint := ds.unrecovered, concealed := 0,
      acc := tadd (tadd (tadd (tadd [] 8 miss) 9 (if bad = 7 ∨ bad = 8 then 1 else 0)) 12 (if h.overLevel then 1 else 0)) 11
        (if hides then 1 else 0),
      damage := if bad = 0 then none else some (bad, dRow d, 0, time) }
  { ds with cur := some cur, needStart := 0, slot := max ds.slot time + x.period / 27,
            craStart := if x.dec.needStart ≠ 0 ∨ h.newSeq then h.irap else ds.craStart && !h.irap }

/-- A picture that is not decoded: it counts in PICS_SKIPPED, unless it is of a refused sequence or of a layer that is discarded
(R50, R132, R133); one of a stream that may start anywhere loses its slices where no sequence header has come (R135). -/
def skipPic (x : Stream) (d : List Nat) (h : PicHdr) (directed time : Nat) : DecSt :=
  let noSeq : Bool := h.layer = 0 && x.startAny && h.parses && x.dec.seq.isNone && x.state ≠ 5
  let cur : DecPic :=
    { id := h.picId, poc := h.poc, seq := dPicSeq d, intra := true, clears := false, surf := ⟨0, 0, 0, 0, 0⟩,
      refSurf := ⟨0, 0, 0, 0, 0⟩, refs := [], first := false, parseAhead := false, skip := true,
      directed := if h.skippable ∧ h.layer = 0 then directed else 0, layer := h.layer, shown := false, started := false, finalAt := none, syn := [], parsed := false,
      rowsDone := [], taint := false, concealed := 0,
      acc := if h.layer ≠ 0 ∨ x.state = 5 then [] else tadd [(11, 1)] 9 (if noSeq then 1 else 0),
      damage := if noSeq then some (8, dRow d, 0, time) else none }
  { x.dec with cur := some cur }

/-- A picture whose parameter set or slice header shows a refused tool ends its sequence, which is refused (R49, R67). -/
def refusePic (x : Stream) (d : List Nat) (h : PicHdr) : DecSt := { skipPic { x with state := 5 } d h 0 0 with seq := none }

/-- What DEC_PIC_START makes of a picture. -/
def Stream.openPic (x : Stream) (d : List Nat) (h : PicHdr) (directed time : Nat) : DecSt :=
  match x.dec.seq with
  | some q => if h.layer = 0 ∧ decodes x h directed then startPic x d h q time else skipPic x d h directed time
  | none => skipPic x d h directed time

/-- Whether a picture shows a tool that its sequence header did not (R49). -/
def Stream.showsTool (x : Stream) (h : PicHdr) : Bool :=
  h.layer = 0 && x.dec.seq.any (fun q => refusedTool x.std q.profile { h.tools with constraintSet1 := true })

/-- Whether a picture comes faster than the stream's configured rate: more than a picture period before that rate's next one is due (R206)
(DESIGN CHOICE, log entry 139). -/
def Stream.excess (x : Stream) (time : Nat) : Bool := time + x.period / 27 < x.dec.slot

/-- DEC_PIC_START (R47, R50, R85, R124, R133 to R135): once the stream's previous picture has ended (R76). -/
def execDecPicStart (n : Nat) (h : PicHdr) (now : Nat) (s : State) : Host.Outcome State Fault Refusal :=
  match (s.at now).begin n (fun o => o = 0x11) s.noPic with
  | (s, some r) =>
    let d := r.task.desc
    let x := s.stream (dSid d)
    let directed := if decSkips x.cls (s.levelFor x) then 2 else if h.skipDirected ∧ x.excess s.time then 1 else 0
    let s := ((s.clearProg (dSid d) [0]).clearBlks (dSid d)).setStream (dSid d) { x with shed := s.levelFor x }
    if x.showsTool h then
      .next (s.ended n { r with dec := some (refusePic x d h), lost := true, lossCode := 7, acc := [(15, 1)] })
    else
      let ds := x.openPic d h directed s.time
      .next (s.ended n { r with dec := some ds, damage := ds.cur.bind (fun p => p.damage) })
  | (s, none) => .next s

/-! ## Words and damage -/

/-- A block of which nothing is known. -/
def block0 : BlockIn := ⟨0, 0, false, false, false, false, [], none, (0, 0), [], []⟩

/-- What the words of a block show (R112, R116 to R119): none where words are still to come, else the damage code (0 none)
and how many words are popped up to it (DEDUCED, log entry 44). -/
def scanWords : Nat → List BsqWord → Option (Nat × Nat)
  | 0, _ => some (0, 0)
  | _ + 1, [] => none
  | k + 1, w :: r =>
    if seenKind w = 2 then some (4, 1)
    else if seenKind w = 1 then some (if w.data % 4 = 1 then 5 else 6, 1)
    else if w.last then some (if k = 0 then 0 else 2, 1)
    else (scanWords k r).map (fun z => (z.1, z.2 + 1))

/-- The packets that the LOSS GAPs among popped words count (R139). -/
def lossPackets (l : List BsqWord) : Nat :=
  (l.map (fun w => if seenKind w = 1 ∧ w.data % 4 = 2 then w.data / 2 ^ 32 else 0)).foldl (· + ·) 0

/-- Pops and releases k words; the LOSS GAPs among them count in PACKETS_LOST, and the last of them tells whether the item is over. -/
def State.takeWords (s : State) (n k : Nat) (r : Run) : State × Run :=
  let l := (s.bsq n).words.take k
  ((s.bsqPopTo n k k).bsqRelease n k,
   { r with acc := tadd r.acc 7 (lossPackets l), itemOver := (l.getLast?.map (fun w => w.last)).getD r.itemOver })

/-- How many words the current item still has in the queue, and whether its last word is among them. -/
def itemRest : List BsqWord → Nat × Bool
  | [] => (0, false)
  | w :: r => if w.last then (1, true) else ((itemRest r).1 + 1, (itemRest r).2)

/-- The rest of an item is popped, discarded and released, as far as it has come (R118). -/
def State.dropItem (s : State) (n : Nat) (r : Run) : State × Run :=
  if r.dropping then
    let k := itemRest (s.bsq n).words
    let z := s.takeWords n k.1 r
    if k.2 then (z.1, { z.2 with dropping := false }) else (z.1.bsqIdle n, z.2)
  else (s, r)

/-- The mark of a row that is concealed in full (R120): no block of it resumes. -/
def wholeRow : Nat := 0xFF

/-- Whether the span that damage of a code loses ends before a block (R116, R119, R120): after codes 1, 2, 4 and 5 at the next entropy segment,
after 7, 8 and 9 at the next slice, after a LOSS GAP at the next NAL unit or OBU (DEDUCED, log entry 44). -/
def resumesAt (code : Nat) (b : BlockIn) : Bool :=
  code != wholeRow && (b.nalStart || (code != 6 && b.sliceStart) || (code < 6 && b.segStart))

/-- The counter of a damage code (R139) (DEDUCED, log entry 44). -/
def damageCnt (c : Nat) : Nat :=
  if c = 4 then 4 else if c = 5 then 5 else if c = 6 then 6 else if c = 7 ∨ c = 8 ∨ c = 9 then 9 else 3

/-- Records damage in a run. -/
def Run.hurt (r : Run) (code row col time : Nat) : Run :=
  { r with acc := tadd r.acc (damageCnt code) 1, damage := some (code, row, col, time) }

/-! ## Blocks -/

/-- A block is concealed in the row's run, unless it was decoded before (R116); it counts as completed (R118). -/
def State.lostBlock (s : State) (c : RowCtx) (r : Run) (code : Nat) : State × Run :=
  let keep := (s.blk c.sid c.row r.pos).decoded
  let s := if keep then s else s.concealBlock c r.pos code
  (s.setProg (rowKey c.sid 0 c.row) (r.pos + 1),
   { r with pos := r.pos + 1, concealed := r.concealed + (if keep then 0 else 1), blocks := r.blocks + 1 })

/-- A block decodes: its samples are written, but none into a concealed block (R122), and its words released at the step's commit
(R109, R271). -/
def State.goodBlock (s : State) (c : RowCtx) (r : Run) (b : BlockIn) : State × Run :=
  let s := s.setBlk c.sid c.row r.pos ⟨if b.inter then 2 else 1, b.mv, 0, c.row + 1⟩
  let mine (l : List Px) : List Px := l.filter (fun k => !s.inConcealed c k)
  let s := s.putPx c.cur.refSurf c.q.depthY c.q.depthC (mine b.px)
  let s := if c.cur.surf.addr = c.cur.refSurf.addr then s else s.putPx c.cur.surf c.q.depthY c.q.depthC (mine b.grain)
  let s := (s.setProg (rowKey c.sid 0 c.row) (r.pos + 1)).bump (Cnt.SPN_STEPS c.n)
  let s := s.traceRec c.n 1 r.task.desc (s.entryPc c.n r.task.desc) r.steps
  (s, { r with pos := r.pos + 1, blocks := r.blocks + 1, steps := r.steps + 1, stepReruns := 0,
               taint := r.taint || taintedRefs c.cur b })

/-- The code of the span of the row above that goes on in this row: of a LOSS GAP the row above met so far, which loses every segment after it up to
the next NAL unit (R119), or of a slice that was lost where this row first depends on the row above (R116) (DEDUCED, log entry 44). -/
def State.openSpan (s : State) (c : RowCtx) : Nat :=
  let last := s.blkAbove c (s.prog (rowKey c.sid 0 (c.row - 1)) - 1)
  let b := s.blkAbove c (min c.lag (c.N - 1))
  if last.st = 3 ∧ last.code = 6 then 6
  else if b.st = 3 ∧ 7 ≤ b.code ∧ b.code ≤ 9 then b.code
  else 0

/-- Whether a row is concealed in full for the contexts it takes from the row above: the second block of that row was concealed, and no
slice or tile begins here (R120). -/
def State.ctxGone (s : State) (c : RowCtx) (b : BlockIn) : Bool :=
  c.x.std ≤ 1 && !b.sliceStart && (s.blkAbove c (min 1 (c.N - 1))).st = 3

/-- The damage that a row's first block inherits from the row above, with the code recorded for it (0: none anew). -/
def State.inherits (s : State) (c : RowCtx) (b : BlockIn) : Option (Nat × Nat) :=
  let o := s.openSpan c
  if o ≠ 0 ∧ ¬ resumesAt o b then some (o, if o = 6 then 6 else 0)
  else if s.ctxGone c b then some (wholeRow, 1)
  else none

/-- A span is lost from the running block on; the rest of its item is popped and discarded (R118). -/
def Run.lose (r : Run) (code rec row time : Nat) : Run :=
  let r := if rec = 0 then r else r.hurt rec row r.pos time
  { r with lost := true, lossCode := code, dropping := !r.itemOver }

/-- A block that begins a segment begins an item. -/
def Run.enter (r : Run) (b : BlockIn) : Run :=
  if b.segStart ∨ b.sliceStart ∨ b.nalStart then { r with itemOver := false } else r

/-- The blocks of a row in order in direct mode (R87, R109, R116 to R120): each waits for the row above and for its words. Those
that wait stay in the run. -/
def State.rowBlocks (s : State) (c : RowCtx) (r : Run) : List BlockIn → State × Run
  | [] =>
    let z := s.dropItem c.n r
    (z.1, { z.2 with waiting := [], dep := false })
  | b :: rest =>
    if ¬ s.depMet c.sid 0 c.row c.lag r.pos c.N then (s, { r with waiting := b :: rest, dep := true })
    else
      let h := if r.pos = 0 ∧ ¬ r.lost then s.inherits c b else none
      let r := match h with
        | some (code, rec) => r.lose code rec c.row s.time
        | none => r
      if r.lost ∧ ¬ resumesAt r.lossCode b then
        let z := s.lostBlock c r r.lossCode
        z.1.rowBlocks c z.2 rest
      else
        let z := s.dropItem c.n r
        if z.2.dropping then (z.1, { z.2 with waiting := b :: rest, dep := false })
        else match scanWords b.words (z.1.bsq c.n).words with
          | none => (z.1.bsqIdle c.n, { z.2 with waiting := b :: rest, dep := false })
          | some (w, k) =>
            let y := z.1.takeWords c.n k ({ z.2 with lost := false, lossCode := 0 }.enter b)
            let code := if w ≠ 0 then w else b.damage
            if code = 0 ∨ code = 3 then
              let r := if code = 3 then { y.2.hurt 3 c.row y.2.pos y.1.time with dropping := !y.2.itemOver } else y.2
              let v := y.1.goodBlock c r b
              v.1.rowBlocks c v.2 rest
            else
              let v := y.1.lostBlock c (y.2.lose code code c.row y.1.time) code
              v.1.rowBlocks c v.2 rest

/-- The blocks of a row that is reconstructed from the syntax buffers (R85, R121): each waits for the row above and for its parse. -/
def State.reconBlocks (s : State) (c : RowCtx) (r : Run) : List BlockIn → State × Run
  | [] => (s, { r with waiting := [], dep := false })
  | b :: rest =>
    let m := tget 0 c.cur.syn (c.row * 512 + r.pos)
    if ¬ s.depMet c.sid 0 c.row c.lag r.pos c.N then (s, { r with waiting := b :: rest, dep := true })
    else if m = 0 then
      if c.cur.parsed then (s, { r with waiting := [], dep := false }) else (s, { r with waiting := b :: rest, dep := false })
    else
      let z := if m = 1 then s.goodBlock c r b else s.lostBlock c r (m - 2)
      z.1.reconBlocks c z.2 rest

/-- The blocks of a row of which nothing came (R130): all are concealed, each after the row above. -/
def State.concealBlocks (s : State) (c : RowCtx) (r : Run) : List BlockIn → State × Run
  | [] => (s, { r with waiting := [], dep := false })
  | b :: rest =>
    if ¬ s.depMet c.sid 0 c.row c.lag r.pos c.N then (s, { r with waiting := b :: rest, dep := true })
    else
      let z := s.lostBlock c r 0x0A
      z.1.concealBlocks c z.2 rest

/-- The context of a row task of Lathe n. -/
def State.rowCtx (s : State) (n : Nat) (d : List Nat) (mode : Nat) : Option RowCtx :=
  let x := s.stream (dSid d)
  match x.dec.cur, x.dec.seq with
  | some cur, some q =>
    some ⟨n, dSid d, x, cur, q, dRow d, dLag d, (cur.surf.w + q.block - 1) / atLeast1 q.block, mode⟩
  | _, _ => none

/-- The mode of a row opcode: 0 direct, 1 from syntax buffers, 2 concealed. -/
def rowMode (op : Nat) : Nat := if op = 0x12 then 0 else if op = 0x14 then 1 else 2

/-- The blocks of a row go on in the row's mode. -/
def State.rowRun (s : State) (c : RowCtx) (r : Run) : State × Run :=
  if c.mode = 0 then s.rowBlocks c r r.waiting
  else if c.mode = 1 then s.reconBlocks c r r.waiting
  else s.concealBlocks c r r.waiting

/-- The entry of a run reads WAIT_DEP while it waits on the progress table, else RUNNING, or RERUN after a rerun (R101). -/
def Run.entryState (r : Run) : Nat := if r.dep then 2 else if r.reruns = 0 then 3 else 4

/-- Runs the row as far as it can go. The routine ends with the last block, once the item that a damaged one lay in is popped (R118), and
the row then holds up no other. -/
def State.rowGo (s : State) (n : Nat) (r : Run) : State :=
  match s.rowCtx n r.task.desc (rowMode (dOpcode r.task.desc)) with
  | none => s.ended n r
  | some c =>
    if c.cur.skip then s.ended n r
    else
      let z := s.rowRun c r
      let s := z.1.setLState r.task.entry z.2.entryState
      if z.2.waiting = [] ∧ ¬ z.2.dropping then
        (s.setProg (rowKey c.sid 0 c.row) c.N).ended n { z.2 with status := if 0 < z.2.concealed then 0x0A else 0 }
      else s.setRun n z.2

/-- What a row task starts with: of a row whose blocks have been decoded already its slice comes too late (R116). -/
def State.rowStart (s : State) (n : Nat) (r : Run) (blocks : List BlockIn) : State :=
  let d := r.task.desc
  match s.rowCtx n d (rowMode (dOpcode d)) with
  | none => s.ended n r
  | some c =>
    let r := { r with waiting := if c.mode = 2 then List.replicate c.N block0 else blocks.take c.N }
    if c.cur.skip then s.rowGo n r
    else if tget false c.cur.rowsDone c.row ∧ (upTo 0 c.N).any (fun k => (s.blk c.sid c.row k).decoded) then
      s.rowGo n (if c.mode = 0 then r.lose wholeRow 9 c.row s.time else r)
    else (s.clearRow c.sid c.row).rowGo n r

/-- Whether a row task may start: its picture is the one that its stream decodes (R76), in the mode that the picture runs in (R85). -/
def State.rowReady (s : State) (d : List Nat) : Bool :=
  s.curPic d && (s.stream (dSid d)).dec.cur.any (fun p =>
    p.skip || dOpcode d = 0x15 || p.parseAhead = (dOpcode d = 0x13 || dOpcode d = 0x14 : Bool))

/-- A row task of decode starts. -/
def State.decRowTask (s : State) (n op now : Nat) (blocks : List BlockIn) : State :=
  match (s.at now).begin n (fun o => o = op) s.rowReady with
  | (s, some r) => s.rowStart n r blocks
  | (s, none) => s

/-- DEC_ROW (R85, R87, R116 to R120): one block row in direct mode. -/
def execDecRow (n : Nat) (blocks : List BlockIn) (now : Nat) (s : State) : Host.Outcome State Fault Refusal :=
  .next (s.decRowTask n 0x12 now blocks)

/-- DEC_RECON_ROW (R85, R121): one block row from the syntax buffers; blocks marked lost are concealed. -/
def execDecReconRow (n : Nat) (blocks : List BlockIn) (now : Nat) (s : State) : Host.Outcome State Fault Refusal :=
  .next (s.decRowTask n 0x14 now blocks)

/-- DEC_CONCEAL_ROW (R130): every block of the row is concealed. -/
def execDecConcealRow (n : Nat) (blocks : List BlockIn) (now : Nat) (s : State) : Host.Outcome State Fault Refusal :=
  .next (s.decRowTask n 0x15 now blocks)

/-! ## Parse-ahead (R85, R121) -/

/-- Parses a picture's blocks in order: damage marks blocks lost from the detecting block to the next where entropy decoding can resume
(R116, R119, R121). A lost block's words are popped with the rest of its item. -/
def State.parseBlocks (s : State) (n N : Nat) (r : Run) (syn : Tbl Nat) : List BlockIn → State × Run × Tbl Nat
  | [] =>
    let z := s.dropItem n r
    (z.1, { z.2 with waiting := [] }, syn)
  | b :: rest =>
    let row := r.pos / atLeast1 N
    let col := r.pos % atLeast1 N
    if r.lost ∧ ¬ resumesAt r.lossCode b then
      s.parseBlocks n N { r with pos := r.pos + 1 } (tset 0 syn (row * 512 + col) (r.lossCode + 2)) rest
    else
      let z := s.dropItem n r
      if z.2.dropping then (z.1, { z.2 with waiting := b :: rest }, syn)
      else match scanWords b.words (z.1.bsq n).words with
        | none => (z.1.bsqIdle n, { z.2 with waiting := b :: rest }, syn)
        | some (w, k) =>
          let y := z.1.takeWords n k ({ z.2 with lost := false, lossCode := 0 }.enter b)
          let code := if w ≠ 0 then w else b.damage
          let step := { y.2 with blocks := y.2.blocks + 1, steps := y.2.steps + 1, stepReruns := 0 }
          let s := y.1.bump (Cnt.SPN_STEPS n)
          if code = 0 ∨ code = 3 then
            let r := if code = 3 then { step.hurt 3 row col s.time with dropping := !step.itemOver } else step
            s.parseBlocks n N { r with pos := r.pos + 1 } (tset 0 syn (row * 512 + col) 1) rest
          else
            let r := { step.hurt code row col s.time with lost := true, lossCode := code, dropping := !step.itemOver, pos := r.pos + 1 }
            s.parseBlocks n N r (tset 0 syn (row * 512 + col) (code + 2)) rest

/-- Parse-ahead goes as far as its words allow; the syntax buffers that it writes lie in the picture's state, not in DRAM, for the spec
gives them no format (DESIGN CHOICE, log entry 129). -/
def State.parseGo (s : State) (n : Nat) (r : Run) : State :=
  match s.rowCtx n r.task.desc 0 with
  | none => s.ended n r
  | some c =>
    if c.cur.skip then s.ended n r
    else
      let z := s.parseBlocks n c.N r c.cur.syn r.waiting
      let done : Bool := z.2.1.waiting = [] && !z.2.1.dropping
      let x := z.1.stream c.sid
      let s := z.1.setStream c.sid
        { x with dec := { x.dec with cur := x.dec.cur.map (fun p => { p with syn := z.2.2, parsed := done }) } }
      if done then s.ended n z.2.1 else s.setRun n z.2.1

/-- DEC_PARSE (R85, R121): parse-ahead of a whole picture. -/
def execDecParse (n : Nat) (blocks : List BlockIn) (now : Nat) (s : State) : Host.Outcome State Fault Refusal :=
  match (s.at now).begin n (fun o => o = 0x13) s.rowReady with
  | (s, some r) => .next (s.parseGo n { r with waiting := blocks })
  | (s, none) => .next s

/-- A run that waits for blocks above, for their parse or for words goes on. -/
def State.resumeRun (s : State) (n : Nat) : State :=
  match (s.lth n).run with
  | some r =>
    if r.done ∨ r.exhausted ∨ (r.waiting = [] ∧ ¬ r.dropping) then s
    else if dOpcode r.task.desc = 0x13 then s.parseGo n r
    else s.rowGo n r
  | none => s

/-! ## The feeder (R107, R110, R113, R119) -/

/-- The losses recorded in what has arrived of a stream's picture: their packet counts, in order (R119). -/
def lossesOf : List Arrived → List Nat
  | [] => []
  | .loss k :: r => k :: lossesOf r
  | .mark :: _ => []
  | _ :: r => lossesOf r

/-- The word that the feeder of Lathe n offers: the LOSS GAP of a recorded loss of the running task's stream (R119); else what it read
from the coded picture buffer, which is POISON where that range is poisoned (R107). -/
def State.feederWord (s : State) (n : Nat) (w : BsqWord) (src : Nat) (loss : Option Nat) : BsqWord :=
  let sid := ((s.lth n).run.map (fun r => dSid r.task.desc)).getD 0
  match loss.bind (fun k => (lossesOf (tget [] s.ring.arrived sid))[k]?) with
  | some c => gapWord 2 c w.start w.last
  | none => if s.rangePoison src 8 then { w with kind := 2, parity := xor w.parity (oddOnes w.kind 2 != oddOnes 2 2) } else w

/-- FEEDER_PUSH (R110, R113, R119): the feeder offers its next word; with a pop in the same cycle, decisions are taken on the queue as it
stands before the cycle, and the run goes on with a later command (DESIGN CHOICE, log entry 32). -/
def execFeederPush (n : Nat) (w : FeedIn) (loss : Option Nat) (pop : Bool) (s : State) : Host.Outcome State Fault Refusal :=
  if ¬ s.hasLathe n ∨ (s.bsq n).held.isSome then .next s
  else
    let w := s.feederWord n w.word w.src loss
    let full := ¬ (s.bsq n).occupied < 16383
    let idle := (s.bsq n).unread = 0
    .next (if ¬ pop then (s.bsqOffer n w).resumeRun n
      else if idle then (s.bump (Cnt.BSQ_CYC_IDLE n)).bsqOffer n w
      else if full then (s.bsqOffer n w).bsqPop n
      else (s.bsqPop n).bsqOffer n w)

/-- FEEDER_STALL_LIMIT (R110): the word held for LIMIT_CYC cycles is dropped into an OVERFLOW GAP, which a pop of the same cycle does
not see (R113). -/
def execFeederStallLimit (n : Nat) (pop : Bool) (s : State) : Host.Outcome State Fault Refusal :=
  match (s.bsq n).held with
  | some _ =>
    let p := if pop then s.bsqPop n else s
    let p := (p.bsqOverflow n).bump (Cnt.BSQ_CYC_FULL n) (atLeast1 (s.fld (Reg.LTH_BSQ_STALL_LIMIT_LIMIT_CYC n)))
    .next (if pop then p else p.resumeRun n)
  | none => .next s

/-! ## The picture's end -/

/-- Conceals the blocks of a row that no slice covered (R130): how many they are, and the first of them. -/
def State.coverRow (s : State) (c : RowCtx) : List Nat → State × Nat × Option Nat
  | [] => (s, 0, none)
  | col :: rest =>
    if (s.blk c.sid c.row col).st ≠ 0 then s.coverRow c rest
    else
      let z := (s.concealBlock c col 0x0A).coverRow c rest
      (z.1, z.2.1 + 1, some col)

/-- The blocks of every row: how many no slice covered, and the row and column of the first. -/
def State.coverRows (s : State) (c : RowCtx) : List Nat → State × Nat × Option (Nat × Nat)
  | [] => (s, 0, none)
  | row :: rest =>
    let y := s.coverRow { c with row := row, lag := 0 } (upTo 0 c.N)
    let z := y.1.coverRows c rest
    (z.1, y.2.1 + z.2.1, (y.2.2.map (fun col => (row, col))).orElse (fun _ => z.2.2))

/-- The descriptors of the tasks that a Lathe holds: running, queued, or waiting for the retry of their push. -/
def Lathe.tasks (l : Lathe) : List (List Nat) := (l.run.map (fun r => r.task.desc)).toList ++ (l.queue ++ l.retry).map (fun t => t.desc)

/-- The descriptors of every task that is dispatched and has not ended. -/
def State.allTasks (s : State) : List (List Nat) := (s.lathes.map (fun e => e.2.tasks)).flatten ++ s.disps.map (fun e => e.desc)

/-- Whether a descriptor is of a row of the same picture of decode. -/
def rowOfPic (d e : List Nat) : Bool := dSid e = dSid d && dPicSeq e = dPicSeq d && 0x12 ≤ dOpcode e && dOpcode e ≤ 0x15

/-- DEC_PIC_END waits until no task of a row of its picture is left: every row is final (R76). -/
def State.picEndReady (s : State) (d : List Nat) : Bool := s.curPic d && s.allTasks.all (fun e => !rowOfPic d e)

/-- The metadata in force after a picture: the last values that came (R58, R59, R61). -/
def takeCarriers (std : Nat) (h : Hdr) : List (Nat × List Nat) → Hdr
  | [] => h
  | (k, v) :: r =>
    takeCarriers std (if k = mdcvCarrier std then { h with mdcv := some (mdcvIn std v) }
      else if k = cllCarrier std then { h with cll := some v } else h) r

/-- The messages of a picture that are discarded and counted (R59, R123). -/
def discarded (x : Stream) (e : PicEndIn) : Nat :=
  (e.carriers.filter (fun k => k.1 ≠ mdcvCarrier x.std && k.1 ≠ cllCarrier x.std)).length
    + (if e.hashPresent ∧ ¬ x.hashCheck then 1 else 0)

/-- What DEC_PIC_END adds to the counters of a picture that is not decoded; of a layer that is discarded, nothing (R50, R59, R139). -/
def skipEnd (x : Stream) (cur : DecPic) (e : PicEndIn) : Tbl Nat :=
  if cur.layer ≠ 0 then [] else tadd (tadd [] 9 e.slicesDiscarded) 13 (discarded x e)

/-- The private state of a stream after a decoded picture of `conc` concealed blocks (R59, R127, R134, R137). -/
def DecSt.close (ds : DecSt) (std : Nat) (cur : DecPic) (e : PicEndIn) (taint : Bool) (conc : Nat) (late : Bool) (motion : Tbl Blk) :
    DecSt :=
  let hdr := takeCarriers std ds.hdr e.carriers
  let pic : DpbPic := ⟨cur.id, cur.poc, cur.surf, cur.refSurf, motion, taint, hdr⟩
  { ds with dpb := ds.dpb ++ [pic], prev := if cur.shown then some pic else ds.prev, cur := none,
            unrecovered := ds.unrecovered && taint,
            recovery := ds.recovery.bind (fun p =>
              if cur.poc = p.1 then none else some (p.1, p.2 && !(cur.poc < p.1 && 0 < conc))),
            hdr := hdr, lateHist := (ds.lateHist ++ [late]).drop (ds.lateHist.length - 15) }

/-- The taint of a decoded picture (R126, R127, R134). -/
def DecPic.endTaint (cur : DecPic) (conc : Nat) (hashFail : Bool) : Bool :=
  0 < conc || hashFail || (cur.taint && !cur.clears)

/-- What DEC_PIC_END commits of a decoded picture: its counters, its damage and its stream's private state. A failed hash is no block's
damage: where it lies is a free value (DESIGN CHOICE, log entry 130). -/
def State.endPic (s : State) (c : RowCtx) (r : Run) (e : PicEndIn) (missing : Nat) (first : Option (Nat × Nat)) : Run :=
  let hashFail := c.x.hashCheck && e.hashPresent && !e.hashOk
  let conc := c.cur.concealed + missing
  let taint := c.cur.endTaint conc hashFail
  let late := isLate (dDeadline r.task.desc) (c.cur.finalAt.getD s.time)
  let one (b : Bool) : Nat := if b then 1 else 0
  let acc := tadd (tadd (tadd (taddAll r.acc c.cur.acc) 0 1) 1 (one taint)) 2 conc
  let acc := tadd (tadd (tadd (tadd acc 9 e.slicesDiscarded) 13 (discarded c.x e)) 14 (one hashFail)) 10 (one late)
  let dmg := if hashFail then some (0x0C, s.freeVal % 512, s.freeVal % 2 ^ 16, s.time)
    else first.map (fun k => (0x0A, k.1, k.2, s.time))
  { r with dec := some (c.x.dec.close c.x.std c.cur e taint conc late (s.motionOf c.sid)), acc := acc, damage := dmg, taint := taint,
           concealed := missing, status := if taint then 0x0A else 0 }

/-- DEC_PIC_END (R50, R59, R76, R126, R130, R132): blocks that no slice covered are concealed with code MISSING_SLICE; the picture's
taint is judged; the metadata in force follows. -/
def execDecPicEnd (n : Nat) (e : PicEndIn) (now : Nat) (s : State) : Host.Outcome State Fault Refusal :=
  match (s.at now).begin n (fun o => o = 0x16) s.picEndReady with
  | (s, some r) =>
    let s := s.tasksMoved r.task.desc e.moved
    let x := s.stream (dSid r.task.desc)
    match s.rowCtx n r.task.desc 2, x.dec.cur with
    | some c, _ =>
      if c.cur.skip then .next (s.ended n { r with acc := skipEnd x c.cur e, hdr := some (takeCarriers x.std x.dec.hdr e.carriers) })
      else
        let z := s.coverRows c (upTo 0 ((c.cur.surf.h + c.q.block - 1) / atLeast1 c.q.block))
        .next (z.1.freeNext.ended n (z.1.endPic c r e z.2.1 z.2.2))
    | none, some cur => .next (s.ended n { r with acc := skipEnd x cur e, hdr := some (takeCarriers x.std x.dec.hdr e.carriers) })
    | none, none => .next (s.ended n r)
  | (s, none) => .next s

end Sys2Proof.Machine
end

