-- ==== Sys2Proof/Machine/Levels.lean ====
section
/-!
DEFINITION. The level and tier that a rendition signals (R39, R65, R70), and what follows from them for its tiles and its sequence
parameters (R42, R53, R84, R187, R190).
-/
namespace Sys2Proof.Machine

/-- The levels of a standard that AUTO chooses from, in rising order up to the ceiling of R39, in tenths (PRESUMED, log entry 51). -/
def levelsOf (std : Nat) : List Nat :=
  if std = 2 then [20, 21, 30, 31, 40, 41, 50, 51, 52, 53, 60, 61, 62, 63] else [10, 20, 21, 30, 31, 40, 41, 50, 51, 52, 60, 61, 62]

/-- Whether a level has a second tier (PRESUMED, log entry 51). -/
def hasHighTier (l : Nat) : Bool := 40 ≤ l

/-- What a level's limits are held against (R70, R171). -/
def State.levelFacts (s : State) (x : Stream) (r : Nat) : List Nat :=
  let y := x.rendition r
  let g := s.geo x r
  [y.ra, x.bufferSize r g, g.w, g.h, x.rendPeriod r, y.sliceRows, x.wMax, g.tileCols, y.model]

/-- Whether every limit of a level and tier holds for a rendition. The unconstrained code is held to the buffer sizing of the ceiling level, and to
R51, R52 and R54 by their own checks (R65). -/
def State.levelFits (s : State) (x : Stream) (r l tier : Nat) : Bool :=
  let y := x.rendition r
  if l = 255 then Config.bufferFits y.std (levelTop y.std) tier y.ra (x.bufferSize r (s.geo x r))
  else Config.levelFits y.std l tier (s.levelFacts x r)

/-- The levels and tiers of AUTO, the lowest first. -/
def autoLevels (std : Nat) : List (Nat × Nat) :=
  ((levelsOf std).map (fun l => if hasHighTier l then [(l, 0), (l, 1)] else [(l, 0)])).flatten

/-- The level and tier that a rendition signals: the ones named, or the lowest level, and within it the lowest tier, whose limits all hold; none
where there is no such level (R70). -/
def State.signalledLevel (s : State) (x : Stream) (r : Nat) : Option (Nat × Nat) :=
  let y := x.rendition r
  if y.level = 0 then (autoLevels y.std).find? (fun l => s.levelFits x r l.1 l.2) else some (y.level, y.tier)

/-- Whether a rendition's level and tier hold: within the ceiling of R39, and every limit of theirs (R70, R171). -/
def State.levelHolds (s : State) (x : Stream) (r : Nat) : Bool :=
  match s.signalledLevel x r with
  | some l => levelOk (x.rendition r).std l.1 && s.levelFits x r l.1 l.2
  | none => false

/-! ## Tiles (R84) -/

/-- The least tile-row height from `h` on whose tiles are within MaxTiles, looking at `fuel` heights. -/
def leastTileH (rows cols maxTiles : Nat) (h : Nat) : Nat → Nat
  | 0 => h
  | fuel + 1 => if (rows + h - 1) / h * cols ≤ maxTiles then h else leastTileH rows cols maxTiles (h + 1) fuel

/-- AV1's tile-row height H. -/
def State.tileH (s : State) (x : Stream) (r : Nat) : Nat :=
  let g := s.geo x r
  leastTileH g.rows g.tileCols (Config.maxTiles ((s.signalledLevel x r).getD (levelTop 2, 0)).1) (atLeast1 ((g.rows + 63) / 64)) g.rows

/-- Whether the tile columns that an HEVC or VVC stream asks for are 1, 2 or 4 and each at least 256 luma samples wide: uniform ones differ by
one block at most (R84). -/
def RendGeo.tilesOk (g : RendGeo) : Bool :=
  g.tileCols = 1 || ((g.tileCols = 2 || g.tileCols = 4) &&
    256 ≤ (g.w + g.block - 1) / atLeast1 g.block / g.tileCols * g.block)

/-! ## Sequence parameters (R42, R53, R84, R187, R190) -/

/-- A dimension as shown: the canvas's × s, before it is rounded up to a multiple of 8 (R53). -/
def shownDim (d : Nat) (sc : Nat × Nat) : Nat := (d * sc.1 + sc.2 - 1) / sc.2

/-- The parameter sets or the sequence header of a rendition, and the initial delay that a fullness of P bits before the point's first unit
means (R187, R190); AV1 signals no decoding units. -/
def State.seqSyn (s : State) (x : Stream) (r P : Nat) : SeqSyn :=
  let y := x.rendition r
  let g := s.geo x r
  let l := (s.signalledLevel x r).getD (0, 0)
  { profile := y.profile, level := l.1, tier := l.2, width := g.w, height := g.h, showW := shownDim g.cvW g.sc, showH := shownDim g.cvH g.sc,
    block := g.block, tileCols := g.tileCols, tileH := if y.std = 2 then s.tileH x r else 0,
    entropySync := y.std != 2 && decide (1 < x.wMax), colourTransform := false, mvResolution := 0, ra := y.ra, bufSize := x.bufferSize r g,
    cbr := y.mode = 0, duParams := y.model = 1 && y.std != 2, delay := P * 1000000 / atLeast1 y.ra }

end Sys2Proof.Machine
end

