-- ==== Sys2Proof/Machine/Rate.lean ====
section
/-!
DEFINITION. The arithmetic of rate control (R172 to R181): the quantiser scale, predictions, the decoder model, floors and
caps.
-/
namespace Sys2Proof.Machine

/-! ## The quantiser scale (R172) -/

/-- The table T: 2^(m / 48) in units of 2^-16, rounded to the nearest (DEDUCED, log entry 49). -/
def qTable : List Nat :=
  [65536, 66489, 67456, 68438, 69433, 70443, 71468, 72507, 73562, 74632, 75717, 76819,
   77936, 79069, 80220, 81386, 82570, 83771, 84990, 86226, 87480, 88752, 90043, 91353,
   92682, 94030, 95398, 96785, 98193, 99621, 101070, 102540, 104032, 105545, 107080, 108638,
   110218, 111821, 113448, 115098, 116772, 118470, 120194, 121942, 123715, 125515, 127341, 129193]

/-- 2^(k / 48) in units of 2^-16, for k ≥ 0. -/
def pow48 (k : Nat) : Nat := nth 65536 qTable (k % 48) * 2 ^ (k / 48)

/-- Qstep(RQ) in units of 2^-17, for RQ ≥ −16: its exponent is (RQ − 32) / 48 = (RQ + 16) / 48 − 1 (DEDUCED, log entry 49). -/
def qstep17 (rq : Int) : Nat := pow48 (rq + 16).toNat

/-- 2^(k / per) in units of 2^-48, times b, for k ≥ −32 × per. -/
def logPoint (per b : Nat) (k : Int) : Nat :=
  if 0 ≤ k then pow48 (k.toNat * (48 / per)) * 2 ^ 32 * b else pow48 ((k + 32 * per).toNat * (48 / per)) * b

/-- The value k of [lo, lo + n] nearest to `per` × log2(a / b), by the table: a / b lies at or below the middle of 2^(k / per) and its successor, as
logarithms have it (DEDUCED, log entry 49). -/
def nearLog (per : Nat) (a b : Nat) (lo : Int) : Nat → Int
  | 0 => lo
  | n + 1 =>
    let k := lo + (n : Nat)
    if logPoint per b k * logPoint per b (k + 1) < (a * 2 ^ 48) * (a * 2 ^ 48) then k + 1 else nearLog per a b lo n

/-- A clipped integer. -/
def clipI (lo hi x : Int) : Int := if x < lo then lo else if hi < x then hi else x

/-- The ceiling of RQ for a standard (R172). -/
def rqTop (std : Nat) : Nat := if std = 1 then 504 else 408

/-- RQ_MIN and RQ_MAX of a rendition (R172). -/
def Rend.rqMin (y : Rend) : Nat := min (8 * y.qpMin) (rqTop y.std)
/-- RQ_MAX. -/
def Rend.rqMax (y : Rend) : Nat := min (8 * y.qpMax) (rqTop y.std)

/-- An RQ clipped to the rendition's bounds. -/
def Rend.clipRq (y : Rend) (q : Int) : Nat := (clipI y.rqMin y.rqMax q).toNat

/-- The coded quantiser of HEVC and VVC (R172). -/
def qpOf (rq : Nat) : Nat := (rq + 4) / 8

/-- Of two qindexes whether the first one's step lies nearer to 8 × Qstep(RQ), in logarithms (R172). -/
def nearerStep (rq q1 q2 : Nat) : Bool :=
  let d := 8 * qstep17 rq
  let n (q : Nat) : Nat := Config.av1Step q * 2 ^ 17
  max (n q1) d * min (n q2) d < max (n q2) d * min (n q1) d

/-- The qindex of AV1 (R172): the nearest, the lower one on a tie. -/
def qindexOf (rq : Nat) : Nat := (upTo 1 255).foldl (fun m q => if nearerStep rq q m then q else m) 0

/-- The coded quantiser of a block (R172): of the mean RQ of its regions, rounded half up. -/
def codedQ (std : Nat) (rqs : List Nat) : Nat :=
  let m := (2 * rqs.foldl (fun a q => a + q) 0 + rqs.length) / atLeast1 (2 * rqs.length)
  if std = 2 then qindexOf m else qpOf m

/-- DRQ of a picture type: 0 INTRA, 1 INTER0, 2 INTER1, 3 INTER2 (R173). -/
def drq (t : Nat) : Int := if t = 0 then -8 else 8 * ((t : Int) - 1)

/-- G: the structure period in rendition pictures (R173). -/
def Rend.period (y : Rend) : Nat := if y.structure_ = 2 then 4 else if y.structure_ = 3 then 8 else 1

/-- The type of an inter picture of a structure (R155, R173): by its number n since the last intra picture, and under REORDER_8 by the place of
its canvas picture c in its group. -/
def interType (str n c : Nat) : Nat :=
  if str = 2 then (if n % 4 = 0 then 1 else if n % 4 = 2 then 2 else 3)
  else if str = 3 then (if c % 8 = 0 then 1 else if c % 8 = 4 then 2 else 3)
  else 1

/-- The canvas picture coded after c: the next of its rendition, or the next of its group of eight (R143, R155). -/
def codedNext (str k c : Nat) : Nat :=
  if str = 3 then
    let j := (c + 7) % 8 + 1
    (if c = 0 then 8 else c - j + nth 0 [0, 3, 1, 6, 2, 7, 5, 16, 4] j)
  else c + k

/-- Whether canvas picture c is, or by the periodic cause will be, coded in the intra form (R160, R176). -/
def Stream.intraAt (x : Stream) (c : Nat) : Bool :=
  match x.enc.decided.find? (fun z => z.c = c) with
  | some z => z.intra
  | none => x.irapPeriod != 0 && !(x.rendition 0).rolling && (match x.enc.refresh with
      | some (l, _) => decide (l < c) && (c - l) % x.irapPeriod = 0
      | none => false)

/-- The types of the `fuel` pictures that follow picture (n, c) of a rendition in coding order (R176). -/
def Stream.nextTypes (x : Stream) (y : Rend) : Nat → Nat → Nat → List Nat
  | _, _, 0 => []
  | n, c, fuel + 1 =>
    let c' := codedNext y.structure_ y.rateDiv c
    if x.intraAt c' then 0 :: x.nextTypes y 0 c' fuel else interType y.structure_ (n + 1) c' :: x.nextTypes y (n + 1) c' fuel

/-! ## The model of a type (R176, R177, R188, R191) -/

/-- The rate state block of rendition r at its context offset. -/
def rateBase (r : Nat) : Nat := rendBase r + 0xA0
/-- The rate status record. -/
def rateStat (r : Nat) : Nat := rendBase r + 0xE0
/-- The rate counter block. -/
def rateCnt (r : Nat) : Nat := rendBase r + 0x100

/-- FULLNESS. -/
def Stream.fullness (x : Stream) (r : Nat) : Nat := x.word (rateBase r)
/-- DEBT, two's complement. -/
def Stream.debt (x : Stream) (r : Nat) : Int := signed32 (x.word (rateBase r + 4))
/-- α of a type, 16.16 (DESIGN CHOICE, log entry 48). -/
def Stream.alpha (x : Stream) (r t : Nat) : Nat := x.word (rateBase r + 8 + 4 * t)
/-- X of a type. -/
def Stream.xcost (x : Stream) (r t : Nat) : Nat := x.word (rateBase r + 24 + 4 * t)
/-- RQ_LAST of a type. -/
def Stream.rqLast (x : Stream) (r t : Nat) : Nat :=
  if t < 3 then x.bits (rateBase r + 40) (9 * t) 9 else x.bits (rateBase r + 44) 0 9
/-- Whether a type has history. -/
def Stream.hist (x : Stream) (r t : Nat) : Bool := x.bits (rateBase r + 44) (9 + t) 1 = 1
/-- Observations of a type, saturating at 2. -/
def Stream.obs (x : Stream) (r t : Nat) : Nat := x.bits (rateBase r + 44) (13 + 2 * t) 2

/-- pred(t, q): predicted bits (R176), with the terms of R188 where the type has no history; `luma` is the picture's luma
samples. Of a type other than INTRA while INTRA has no observation the spec gives no term: a quarter of INTRA's
(DESIGN CHOICE, log entry 48). -/
def Stream.pred (x : Stream) (r t : Nat) (q : Int) (luma : Nat) : Nat :=
  if x.hist r t then x.alpha r t * x.xcost r t * 2 / qstep17 q
  else if t = 0 ∨ ¬ x.hist r 0 then 5 * luma * 2 ^ 17 / qstep17 q / (if t = 0 then 1 else 4)
  else x.alpha r 0 * (x.xcost r 0 / 4) * 2 / qstep17 q

/-- The least q from `lo` on, over `n` further values, that satisfies `ok`; else the last. -/
def leastQ (ok : Nat → Bool) (lo : Nat) : Nat → Nat
  | 0 => lo
  | n + 1 => if ok lo then lo else leastQ ok (lo + 1) n

/-! ## The decoder model (R174, R175) -/

/-- Bits that arrive in a number of crystal ticks. -/
def arrives (ra ticks : Nat) : Nat := ra * ticks / 27000000

/-- The fullness after more arrival: clipped to B in VBR and CQ; in CBR filler has kept it at or below B (R175). -/
def fillTo (f more b : Nat) : Nat := min b (f + more)

/-! ## Floors (R180) -/

/-- The overhead bound of row j: `cols` tile columns, each an entry point of its own in a slice, and in every row where entropy coding is
synchronised (R84). -/
def ovhRow (std wMax S H rows cols j : Nat) (refresh : Bool) : Nat :=
  let entries := if std = 2 then (min S (rows - j) + H - 1) / atLeast1 H * cols
    else (if 1 < wMax then min S (rows - j) else 1) * cols
  (if j % atLeast1 S = 0 then 640 + 32 * (entries - 1) else 0)
    + (if j = 0 then (if refresh then 4096 else 1024) else 0)

/-- The bound fr of a region: 64 bits in an intra picture or band, else 24. -/
def frBound (intra : Bool) : Nat := if intra then 64 else 24

/-- A sum over the rows from a, n of them. -/
def sumOver (f : Nat → Nat) (a n : Nat) : Nat := (upTo a n).foldl (fun t j => t + f j) 0

/-! ## The row's cap and target (R178) -/

/-- The cap, target and quantiser of row i. -/
structure RowPlan where
  cap : Nat
  tgt : Nat
  rq : Nat
deriving DecidableEq, Repr

/-- R178 for row i of the unit of rows a to b: where the weights that divide sum to 0, for which the spec gives no value, the cap is the floor
with all of E, the target the floor, and the plan T_pic (DESIGN CHOICE, log entry 49); `k` bits known or capped, `e` bits known or targeted, `w` weights, `fl`
floors, P_u, T_pic and RQ_pic; `rows` rows in the picture (DESIGN CHOICE, log entry 49). -/
def planRow (k e w fl : Nat → Nat) (a b i rows pu tpic rqPic lo hi : Nat) : RowPlan :=
  let A := pu - sumOver k a (i - a) - sumOver fl (i + 1) (b - i)
  let E := A - fl i
  let wu := sumOver w i (b + 1 - i)
  let cap := fl i + (if wu = 0 then E else min E (E * (2 * w i) / wu))
  let left : Int := (tpic : Int) - sumOver e 0 i
  let wr := sumOver w i (rows - i)
  let wAll := sumOver w 0 rows
  let tgt := if left ≤ 0 ∨ wr = 0 then fl i else max (fl i) (left.toNat * w i / wr)
  let fb : Int := if left ≤ 0 then 24 else nearLog 48 (if wAll = 0 then tpic else tpic * wr) (if wAll = 0 then left.toNat else left.toNat * wAll) (-16) 40
  ⟨cap, tgt, (clipI lo hi ((rqPic : Int) + fb)).toNat⟩

end Sys2Proof.Machine
end

