-- ==== Sys2Proof/Machine/Motion.lean ====
section
/-!
DEFINITION. The encoder's input (R53, R57, R142), its analysis records (R145, R148, R162) and the motion candidates that they chain to (R146).
-/
namespace Sys2Proof.Machine

/-! ## The input of a rendition -/

/-- The index of the canvas surface that holds picture c. -/
def Canvas.surfOf (v : Canvas) (c : Nat) : Option Nat := (v.surfC.find? (fun e => e.2 = c + 1)).map (fun e => e.1)

/-- The surface that rendition r of a stream reads for canvas picture c (R142): the canvas's own at scale 1, else the Inlay's scaled copy. -/
def State.inputSurf (s : State) (x : Stream) (r c : Nat) : Option Surf :=
  let v := s.cv x.canvas
  (v.surfOf c).map (fun k =>
    if (x.rendition r).scale = (1, 1) then (nth (⟨0, 0, 0, 0, 0⟩, 0) v.surfs k).1
    else nth ⟨0, 0, 0, 0, 0⟩ (nth [] v.copies r) k)

/-- The input surface that SRC_ADDR of a task of rendition r names (R96). -/
def State.srcSurf (s : State) (x : Stream) (r : Nat) (d : List Nat) : Surf :=
  let v := s.cv x.canvas
  if (x.rendition r).scale = (1, 1) then ⟨dSrc d, v.width, v.height, v.chroma, 0⟩
  else ⟨dSrc d, s.rendW x r, s.rendH x r, v.chroma, 0⟩

/-- Sample (x, y) of plane p of an input, reduced to the coded depth (R57); beyond the canvas the edge repeats (R53). A lost sample reads 0:
its region is coded without it (R164). -/
def State.encInput (s : State) (u : Surf) (depth p x y : Nat) : Nat :=
  toDepth depth ((s.sample u p (min x (planeW u p - 1)) (min y (planeH u p - 1))).getD 0)

/-- The luma samples of the 8x8 block of an input at a place held within it. -/
def State.inputBlock (s : State) (u : Surf) (depth : Nat) (x y : Int) : List Nat :=
  (rectPx 0 0 8 8).map (fun q => s.encInput u depth 0 (heldIn (x + q.1) u.w) (heldIn (y + q.2) u.h))

/-! ## Effort (R148) -/

/-- What an effort level sets: the ranges of the coarse and the full-resolution search and of the refinement in samples, the step of a coded
vector in quarter samples, the references refined, the least inter partition and whether it may be oblong, the intra directions
evaluated (none: all), and how many candidates per block the final decision takes to rate and distortion (0: SATD and a bit estimate). -/
structure Effort where
  coarse : Nat × Nat
  full : Nat
  refine : Nat
  step : Nat
  refs : Nat
  least : Nat
  oblong : Bool
  dirs : Option Nat
  best : Nat
deriving DecidableEq, Repr

/-- The effort levels: 0 Fast, 1 Standard, 2 High; a picture holds at most 4 references. -/
def effortOf (e : Nat) : Effort :=
  if e = 0 then ⟨(128, 64), 2, 1, 2, 1, 16, false, some 11, 0⟩
  else if e = 1 then ⟨(256, 128), 4, 2, 1, 2, 8, false, none, 3⟩
  else ⟨(512, 256), 8, 4, 1, 4, 8, true, none, 8⟩

/-- Whether two vectors lie within a range of one another. -/
def mvNear (a b : Int × Int) (rx ry : Nat) : Bool := (a.1 - b.1).natAbs ≤ rx && (a.2 - b.2).natAbs ≤ ry

/-- Whether the search around some centre reaches a vector: the coarse search and the full-resolution one after it. -/
def Effort.reaches (e : Effort) (centres : List (Int × Int)) (mv : Int × Int) : Bool :=
  centres.any (fun c => mvNear mv c (e.coarse.1 + e.full) (e.coarse.2 + e.full))

/-! ## Records (R145, R162) -/

/-- The row of the analysis store that holds 8x8 row v. -/
def RendGeo.anaRow (g0 : RendGeo) (v : Nat) : Nat := v / atLeast1 (g0.block / 8)

/-- 8x8 blocks across a rendition. -/
def RendGeo.across (g0 : RendGeo) : Nat := (g0.w + 7) / 8

/-- The key of a row of a picture's records in the analysis store. -/
def anaKey (c row : Nat) : Nat := c * 512 + row

/-- The record of the 8x8 block (u, v) of canvas picture c. -/
def recOf (e : EncSt) (g0 : RendGeo) (c u v : Nat) : Option AnaRec :=
  (tget [] e.ana (anaKey c (g0.anaRow v)))[v % atLeast1 (g0.block / 8) * g0.across + u]?

/-- Its cost: that of its better candidate. -/
def recAt (e : EncSt) (g0 : RendGeo) (c u v : Nat) : Nat := ((recOf e g0 c u v).map (fun a => a.cost)).getD 0

/-- D: the pictures that the store holds (R145): the greatest distance from a picture of a rendition to its farthest reference, capped at 16
(DESIGN CHOICE, log entry 131). -/
def Stream.storeDepth (x : Stream) : Nat :=
  let far (y : Rend) : Nat :=
    if y.structure_ = 0 then y.rateDiv else if y.structure_ = 1 then min y.nref 4 * y.rateDiv
    else if y.structure_ = 2 then 4 * y.rateDiv else 9
  min 16 ((upTo 0 x.rends).foldl (fun m r => max m (far (x.rendition r))) 1)

/-- What a row's analysis works on: the private state with the row's cells aged, rendition 0's geometry, picture c, its input and that of picture
c − 1, the coded depth, the effort, and which of its blocks take the zero vector. -/
structure AnaCtx where
  e : EncSt
  g0 : RendGeo
  c : Nat
  src : Surf
  old : Surf
  depth : Nat
  effort : Effort
  row : Nat
  zero : Nat → Nat → Bool

/-- The centres of the coarse search of the k-th block of a row: the zero vector, the vectors of the neighbours that the row has analysed (left,
above, above left and above right), and from picture 2 on that of the co-located record of picture c − 1 (R148, R162)
(DESIGN CHOICE, log entry 131). -/
def AnaCtx.centres (a : AnaCtx) (done : List AnaRec) (k : Nat) : List (Int × Int) :=
  let w := a.g0.across
  let at_ (ok : Bool) (j : Nat) : List (Int × Int) := if ok then (done[j]?).toList.map (fun r => r.mv) else []
  let left : Bool := decide (k % w ≠ 0)
  let above : Bool := decide (w ≤ k)
  let co := if a.c ≤ 1 then [] else
    (recOf a.e a.g0 (a.c - 1) (k % w) (a.row * (a.g0.block / 8) + k / w)).toList.map (fun r => r.mv)
  (0, 0) :: at_ left (k - 1) ++ at_ above (k - w) ++ at_ (left && above) (k - w - 1)
    ++ at_ (above && decide (k % w + 1 ≠ w)) (k - w + 1) ++ co

/-- The k-th record of a row: a vector that the search does not reach, and every one of a block that is not searched, is the zero vector; the costs are
those of the vectors kept. Picture 0 evaluates intra directions only (R162) (DESIGN CHOICE, log entry 131). -/
def AnaCtx.record (s : State) (a : AnaCtx) (done : List AnaRec) (k : Nat) (i : AnaIn) : AnaRec :=
  let u := k % a.g0.across
  let v := a.row * (a.g0.block / 8) + k / a.g0.across
  let keep (m : Int × Int) : Int × Int :=
    if a.c = 0 ∨ a.zero u v ∨ ¬ a.effort.reaches (a.centres done k) m then (0, 0) else m
  let cur := s.inputBlock a.src a.depth (8 * u : Nat) (8 * v : Nat)
  let cost (m : Int × Int) : Nat :=
    Config.anaCost cur (if a.c = 0 then [] else s.inputBlock a.old a.depth ((8 * u : Nat) + m.1) ((8 * v : Nat) + m.2))
  ⟨keep i.mv, cost (keep i.mv), keep i.mv2, cost (keep i.mv2), i.dir⟩

/-- The records of a row, in raster order. -/
def AnaCtx.records (s : State) (a : AnaCtx) (done : List AnaRec) : List AnaIn → List AnaRec
  | [] => done
  | i :: rest => a.records s (done ++ [a.record s done done.length i]) rest

/-! ## Chains (R146) -/

/-- The sum of the vectors of a chain of `fuel` records from picture c back, following the displaced position; a picture missing from the store ends
it with zero vectors. The first candidates of the records are chained, or the second ones. -/
def chainMv (e : EncSt) (g0 : RendGeo) (second : Bool) (c : Nat) (x y : Int) : Nat → Int × Int
  | 0 => (0, 0)
  | fuel + 1 =>
    match recOf e g0 c (heldIn x g0.w / 8) (heldIn y g0.h / 8) with
    | none => (0, 0)
    | some a =>
      let m := if second then a.mv2 else a.mv
      let z := chainMv e g0 second (c - 1) (x + m.1) (y + m.2) fuel
      (m.1 + z.1, m.2 + z.2)

/-- A length of rendition 0 in quarter samples of a rendition: × s_r / s_0, rounded half up. -/
def toQuarters (g0 g : RendGeo) (v : Int) : Int :=
  let n := g.sc.1 * g0.sc.2
  let d := atLeast1 (g.sc.2 * g0.sc.1)
  (8 * v * n + d) / (2 * d : Nat)

/-- The motion candidates of the block at (x, y) of a rendition for a reference at canvas picture `cref`, in quarter samples: the chains of the
records of cref + 1 to c; a reference that lies after c has the zero vector (DESIGN CHOICE, log entry 131). -/
def motionCandidates (e : EncSt) (g0 g : RendGeo) (c cref x y : Nat) : List (Int × Int) :=
  let to0 (k : Nat) : Int := (k * g.sc.2 * g0.sc.1 / atLeast1 (g.sc.1 * g0.sc.2) : Nat)
  [false, true].map (fun b =>
    let m := chainMv e g0 b c (to0 x) (to0 y) (c - cref)
    (toQuarters g0 g m.1, toQuarters g0 g m.2))

end Sys2Proof.Machine
end

