-- ==== Sys2Proof/Machine/Regions.lean ====
section
/-!
DEFINITION. Regions of an encoded picture (R149 to R154, R159, R164, R177 to R180): hint maps and treatment, costs, floors and plans, the mode
decisions that effort and treatment allow, and the region loop.
-/
namespace Sys2Proof.Machine

/-! ## Rows and regions -/

/-- Region rows of block row j: one, or two where blocks are 128. -/
def RendGeo.subRows (g : RendGeo) (j : Nat) : Nat := min (g.block / 64) ((g.h + 63) / 64 - j * (g.block / 64))

/-- The regions of block row j in raster order: their column and region row. -/
def RendGeo.regions (g : RendGeo) (j : Nat) : List (Nat × Nat) :=
  ((upTo (j * (g.block / 64)) (g.subRows j)).map (fun v => (upTo 0 g.regs).map (fun m => (m, v)))).flatten

/-- The luma samples of block row j. -/
def RendGeo.area (g : RendGeo) (j : Nat) : Nat := g.w * min g.block (g.h - j * g.block)

/-- Blocks across a rendition. -/
def RendGeo.blocks (g : RendGeo) : Nat := (g.w + g.block - 1) / atLeast1 g.block

/-- The block column of region column m. -/
def RendGeo.blockOf (g : RendGeo) (m : Nat) : Nat := m * 64 / atLeast1 g.block

/-- Canvas cells [from, to) that a span of 64 rendition samples overlaps on one axis (R152). -/
def cellSpan (k size : Nat) (sc : Nat × Nat) : List Nat :=
  let lo := 64 * k * sc.2 / sc.1
  let hi := min size ((64 * (k + 1) * sc.2 + sc.1 - 1) / sc.1)
  if hi ≤ lo then [] else upTo (lo / 16) ((hi - 1) / 16 + 1 - lo / 16)

/-! ## Hint maps and ages (R149 to R152, R184) -/

/-- The key of a cell in the parity of picture c. -/
def cellKey (c row col : Nat) : Nat := c % 2 * 2 ^ 22 + row * 1024 + col

/-- Cells across a canvas. -/
def cellsAcross (w : Nat) : Nat := (w + 15) / 16

/-- Bytes of a cell row of a hint map (R149). -/
def cellRowBytes (w : Nat) : Nat := (4 + cellsAcross w + 31) / 32 * 32

/-- The cell row after the last that block row j covers. -/
def RendGeo.cellEnd (g : RendGeo) (j : Nat) : Nat := (min g.cvH (((j + 1) * g.block * g.sc.2 + g.sc.1 - 1) / g.sc.1) + 15) / 16

/-- The cell rows that rendition 0's block row i is the first to cover. -/
def RendGeo.cellRows (g : RendGeo) (i : Nat) : List Nat :=
  let lo := if i = 0 then 0 else g.cellEnd (i - 1)
  upTo lo (g.cellEnd i - lo)

/-- The first cell row that block row i covers: the one whose tag AUX_ADDR names (R149). -/
def RendGeo.firstCellRow (g : RendGeo) (i : Nat) : Nat := i * g.block * g.sc.2 / g.sc.1 / 16

/-- Every cell row that block row i covers. -/
def RendGeo.coverRows (g : RendGeo) (i : Nat) : List Nat := upTo (g.firstCellRow i) (g.cellEnd i - g.firstCellRow i)

/-- What the map of canvas picture c says of a cell row: none where it counts as missing (R151). -/
def State.mapRow (s : State) (addr c row : Nat) : Option Nat :=
  let tag := s.word32 addr
  if tag / 2 ^ 31 = 1 ∧ tag % 2 ^ 16 = c % 2 ^ 16 ∧ tag / 2 ^ 16 % 2 ^ 12 = row then some addr else none

/-- CHANGED and CLASS of a cell: a class of 3 reads as VIDEO. -/
def State.mapCell (s : State) (addr col : Nat) : Bool × Nat :=
  let b := (s.byte (addr + 4 + col)).toNat
  (b % 2 = 1, if b / 2 % 4 = 3 then 0 else b / 2 % 4)

/-- The ages and classes of a cell row of a picture (R152): a REPEAT reads every cell unchanged, and the first NORMAL picture after one sets every
age to 0 first (R184). -/
def State.ageRow (s : State) (e : EncSt) (p : EncPic) (map : Option Nat) (row : Nat) : List Nat → EncSt
  | [] => e
  | col :: rest =>
    let z := match map with
      | some a => s.mapCell a col
      | none => (true, 0)
    let changed := p.kind ≠ 1 && z.1
    let old := if p.fresh ∨ p.c = 0 then 0 else tget 0 e.ages (cellKey (p.c + 1) row col)
    let age := if changed then 0 else min 255 (old + 1)
    let cls := if p.kind = 1 then tget 0 e.cls (cellKey (p.c + 1) row col) else z.2
    s.ageRow { e with ages := tset 0 e.ages (cellKey p.c row col) age, cls := tset 0 e.cls (cellKey p.c row col) cls } p map row rest

/-- The cell rows of a block row, from the map of the picture's input (R186): the new private state, and the rows missing (R151). -/
def State.ageRows (s : State) (e : EncSt) (hints : Bool) (w : Nat) (p : EncPic) (aux first : Nat) : List Nat → EncSt × Nat
  | [] => (e, 0)
  | row :: rest =>
    let map := if hints then s.mapRow (aux + (row - first) * cellRowBytes w) p.input row else none
    let z := s.ageRows (s.ageRow e p map row (upTo 0 (cellsAcross w))) hints w p aux first rest
    (z.1, z.2 + if hints ∧ p.kind ≠ 1 ∧ map.isNone then 1 else 0)

/-- Whether a region is unchanged since canvas picture `base`, and its class (R152). -/
def regState (e : EncSt) (g : RendGeo) (c : Nat) (base : Option Nat) (m v : Nat) : Bool × Nat :=
  let cells := ((cellSpan v g.cvH g.sc).map (fun row => (cellSpan m g.cvW g.sc).map (fun col => cellKey c row col))).flatten
  let un := match base with
    | some f => cells.all (fun k => decide (c - f ≤ tget 0 e.ages k))
    | none => false
  (un, cells.foldl (fun a k => min a (tget 0 e.cls k)) 2)

/-- The treatments of R152: 0 VIDEO, 1 GRAPHIC, 2 GRAPHIC with STATIC_DQP, 3 SETTLE, 4 STATIC, 5 intra, 6 intra as a settle
pass. A region of a rolling band, which the table does not name, is intra (DESIGN CHOICE, log entry 132). -/
def treatment (str kind : Nat) (intra band dirty un : Bool) (cls settle settlePics : Nat) : Nat :=
  if kind = 1 then 4
  else if intra then (if un && !dirty && str != 3 then 6 else 5)
  else if band then 5
  else if !un || dirty || str = 3 then (if cls = 0 then 0 else if cls = 1 then 1 else 2)
  else if settle < settlePics then 3
  else 4

/-- The settle count after a picture (R152, R184); after a rolling band 0 (DESIGN CHOICE, log entry 132). -/
def settleAfter (kind t settle : Nat) : Nat :=
  if kind = 1 then settle
  else if t = 6 then 1
  else if t = 3 then settle + 1
  else if t = 4 then settle
  else 0

/-! ## What a row is coded from -/

/-- The context of an encoded row. -/
structure EncCtx where
  x : Stream
  y : Rend
  r : Nat
  g : RendGeo
  g0 : RendGeo
  tileH : Nat
  pic : EncPic
deriving DecidableEq, Repr

/-- The context of rendition r of a stream with a picture. -/
def State.encCtx (s : State) (x : Stream) (r : Nat) (p : EncPic) : EncCtx :=
  ⟨x, x.rendition r, r, s.geo x r, s.geo x 0, if (x.rendition r).std = 2 then s.tileH x r else 1, p⟩

/-- The key of a region's settle count and dirty mark in the parity of the rendition's pictures. -/
def regKey (total m v : Nat) : Nat := total % 2 * 2 ^ 20 + v * 256 + m

/-- The first block column of the rolling band of picture p of a cycle, of N block columns (R159). -/
def EncCtx.bandAt (k : EncCtx) (p : Nat) : Nat := p * k.g.blocks / atLeast1 k.x.rp

/-- Whether block column `col` lies in the rolling band. -/
def EncCtx.inBand (k : EncCtx) (col : Nat) : Bool :=
  match k.pic.roll with
  | some (_, p) => k.bandAt p ≤ col && col < k.bandAt (p + 1)
  | none => false

/-- Whether region column m lies in the rolling band. -/
def EncCtx.band (k : EncCtx) (m : Nat) : Bool := k.inBand (k.g.blockOf m)

/-- Whether it lies in the band's rightmost block column. -/
def EncCtx.bandRight (k : EncCtx) (m : Nat) : Bool := k.band m && !k.inBand (k.g.blockOf m + 1)

/-- The state of region (m, v). -/
def EncCtx.state (k : EncCtx) (m v : Nat) : Bool × Nat := regState k.x.enc k.g k.pic.c k.pic.base m v

/-- The treatment of region (m, v) before any poison. -/
def EncCtx.treat (k : EncCtx) (m v : Nat) : Nat :=
  let z := k.state m v
  treatment k.y.structure_ k.pic.kind k.pic.intra (k.band m) (tget false k.y.dirty (regKey (k.y.total + 1) m v)) z.1 z.2
    (tget 0 k.y.settle (regKey (k.y.total + 1) m v)) k.x.settlePics

/-- The treatment that a region was coded with, or that it has where it is not coded yet. -/
def EncCtx.treatNow (k : EncCtx) (m v : Nat) : Nat :=
  match tget none k.pic.regs (v * 256 + m) with
  | some z => z.treat
  | none => k.treat m v

/-! ## Analysis costs (R145, R177) -/

/-- A cost of rendition 0 scaled by s_r². -/
def RendGeo.scaled (g : RendGeo) (n : Nat) : Nat := n * (g.sc.1 * g.sc.1) / (g.sc.2 * g.sc.2)

/-- The records [from, to) on one axis that cover [a, b) of a rendition. -/
def recSpan (g0 g : RendGeo) (a b size : Nat) : List Nat :=
  let n := g0.sc.1 * g.sc.2
  let d := g0.sc.2 * g.sc.1
  let lo := a * n / d / 8
  upTo lo (min ((size + 7) / 8) ((b * n + 8 * d - 1) / (8 * d)) - lo)

/-- The regions [from, to) on one axis that a record overlaps. -/
def regSpan (g0 g : RendGeo) (u n : Nat) : List Nat :=
  let d := g0.sc.1 * g.sc.2
  let m := g0.sc.2 * g.sc.1
  let lo := 8 * u * m / d / 64
  upTo lo (min n ((8 * (u + 1) * m + 64 * d - 1) / (64 * d)) - lo)

/-- The costs of the records that cover the regions of region rows [v0, v0 + n) that satisfy `p`, each record once, scaled by s_r². -/
def EncCtx.costOf (k : EncCtx) (p : Nat → Nat → Bool) (v0 n : Nat) : Nat :=
  let vs := recSpan k.g0 k.g (64 * v0) (min k.g.h (64 * (v0 + n))) k.g0.h
  let us := upTo 0 k.g0.across
  let sum := vs.foldl (fun a v =>
    let rows := (regSpan k.g0 k.g v ((k.g.h + 63) / 64)).filter (fun q => v0 ≤ q && q < v0 + n)
    us.foldl (fun b u =>
      if (regSpan k.g0 k.g u k.g.regs).any (fun m => rows.any (fun q => p m q)) then b + recAt k.x.enc k.g0 k.pic.c u v else b) a) 0
  k.g.scaled sum

/-- The cost of region (m, v): STATIC regions count 0. -/
def EncCtx.cost (k : EncCtx) (m v : Nat) : Nat :=
  if k.treat m v = 4 then 0 else k.costOf (fun a b => a = m && b = v) v 1

/-- The cost of row j in this picture: its weight (R177). -/
def EncCtx.rowCost (k : EncCtx) (j : Nat) : Nat := k.costOf (fun m v => k.treatNow m v != 4) (j * (k.g.block / 64)) (k.g.subRows j)

/-- X of the picture (R177). -/
def EncCtx.picCost (k : EncCtx) : Nat := k.costOf (fun m v => k.treatNow m v != 4) 0 ((k.g.h + 63) / 64)

/-- w(j) for row i (R178, R188). -/
def EncCtx.weight (k : EncCtx) (i j : Nat) : Nat :=
  if j ≤ i + 1 then k.rowCost j
  else match tget 0 k.y.costs ((k.y.total + 1) % 2 * 512 + j) with
    | 0 => k.g.area j
    | n + 1 => n

/-! ## Floors and plans (R174, R175, R178, R180) -/

/-- fr of region column m. -/
def EncCtx.fr (k : EncCtx) (m : Nat) : Nat := frBound (k.pic.intra || k.band m)

/-- The overhead bound of row j (R180). -/
def EncCtx.ovh (k : EncCtx) (j : Nat) : Nat :=
  ovhRow k.y.std k.x.wMax k.y.sliceRows k.tileH k.g.rows k.g.tileCols j k.pic.cause.isSome

/-- floor_j (R180). -/
def EncCtx.floor (k : EncCtx) (j : Nat) : Nat := (k.g.regions j).foldl (fun a p => a + k.fr p.1) (k.ovh j)

/-- B. -/
def EncCtx.bufB (k : EncCtx) : Nat := k.x.bufferSize k.r k.g

/-- The ready time of row j in ticks after T_c. -/
def EncCtx.ready (k : EncCtx) (j : Nat) : Nat := k.g.ready k.x.period j

/-- The last row of the unit that holds row j: its slice's in the slice model, else the picture's (R174). -/
def EncCtx.unitLast (k : EncCtx) (j : Nat) : Nat :=
  if k.y.model = 0 then k.g.rows - 1 else k.g.sliceEnd k.y.sliceRows (j / atLeast1 k.y.sliceRows)

/-- The first row of the unit. -/
def EncCtx.unitFirst (k : EncCtx) (j : Nat) : Nat :=
  if k.y.model = 0 then 0 else j / atLeast1 k.y.sliceRows * atLeast1 k.y.sliceRows

/-- The time in ticks from the removal of the unit that ends with row z to the next one's. -/
def EncCtx.gapAfter (k : EncCtx) (z : Nat) : Nat :=
  if z + 1 < k.g.rows then k.ready (k.unitLast (z + 1)) - k.ready z
  else if k.y.model = 0 then k.x.rendPeriod k.r
  else k.x.rendPeriod k.r + k.ready (k.unitLast 0) - k.ready z

/-- Filler bytes for an overflow of `e` bits: never fewer than the smallest unit of the standard (R175) (PRESUMED, log entry 50). -/
def fillerBytes (std e : Nat) : Nat := if e = 0 then 0 else max ((e + 7) / 8) (Config.minFiller std)

/-- The filler bytes of a unit of `spent` bits that finds fullness f and ends with row z: what would pass B when the next unit is removed, in CBR
only (R175). -/
def EncCtx.unitFill (k : EncCtx) (f spent z : Nat) : Nat :=
  if k.y.mode ≠ 0 then 0 else fillerBytes k.y.std (f - spent + arrives k.y.ra (k.gapAfter z) - k.bufB)

/-- The fullness before the unit that begins at row `a`, from the one that begins at row j with fullness f, over `fuel` units: `b` gives the
bits of each row; each unit takes its filler (R175). -/
def EncCtx.fullAt (k : EncCtx) (b : Nat → Nat) (a : Nat) : Nat → Nat → Nat → Nat
  | 0, _, f => f
  | fuel + 1, j, f =>
    if a ≤ j then f
    else
      let z := k.unitLast j
      let spent := sumOver b j (z + 1 - j)
      k.fullAt b a fuel (z + 1) (fillTo (f - spent - 8 * k.unitFill f spent z) (arrives k.y.ra (k.gapAfter z)) k.bufB)

/-- The plan of row i from those of the rows before it (R178): rows up to i − D count with their bits, the later ones with their caps and targets,
whichever of them have run. -/
def EncCtx.planWith (k : EncCtx) (l : List RowPlan) (i : Nat) : RowPlan :=
  let D := k.x.wMax + 2
  let at_ (j : Nat) : RowPlan := nth ⟨0, 0, 0⟩ l j
  let kb (j : Nat) : Nat := if j + D ≤ i then tget 0 k.pic.bits j else (at_ j).cap
  let eb (j : Nat) : Nat := if j + D ≤ i then tget 0 k.pic.bits j else (at_ j).tgt
  let a := k.unitFirst i
  let pu := k.fullAt kb a k.g.rows 0 k.pic.full
  planRow kb eb (k.weight i) k.floor a (k.unitLast i) i k.g.rows pu k.pic.target k.pic.rq k.y.rqMin k.y.rqMax

/-- The plans of rows 0 to i − 1. -/
def EncCtx.plans (k : EncCtx) : Nat → List RowPlan
  | 0 => []
  | i + 1 => k.plans i ++ [k.planWith (k.plans i) i]

/-- The plan of row i (R178). -/
def EncCtx.plan (k : EncCtx) (i : Nat) : RowPlan := k.planWith (k.plans i) i

/-! ## Mode decisions (R42, R45, R148, R153, R154, R159) -/

/-- The tools of a graphic region (R154): profile 15 of HEVC is Screen-Extended Main 4:4:4 10, profile 2 of VVC Main 10 4:4:4. -/
def graphicTools (std profile : Nat) : List EncTool :=
  if std = 0 then (if profile = 15 then [.transformSkip, .palette, .blockCopy] else [.transformSkip])
  else if std = 1 then [.transformSkip, .bdpcm, .integerMv] ++ (if profile = 2 then [.palette, .blockCopy] else [])
  else [.palette, .idtx]

/-- The tools that effort adds (R148). -/
def effortTools (std effort : Nat) : List EncTool :=
  if std = 1 then (if effort = 0 then [] else [.affine, .mmvd, .lfnst] ++ (if effort = 1 then [] else [.mts, .isp]))
  else if std = 2 then (if effort = 0 then [] else [.obmc, .switchFilter] ++ (if effort = 1 then [] else [.warped, .cfl]))
  else []

/-- Whether a region of a treatment and class uses the graphic tools: a GRAPHIC one, and an intra one of class GRAPHIC or STATIC (R152). -/
def usesGraphic (t cls : Nat) : Bool := t = 1 || t = 2 || ((t = 5 || t = 6) && cls != 0)

/-- The tools that a region may use: a SETTLE or STATIC one none of them (R152, R153). -/
def EncCtx.tools (k : EncCtx) (t cls : Nat) : List EncTool :=
  if t = 3 ∨ t = 4 then []
  else (if usesGraphic t cls then graphicTools k.y.std k.y.profile else []) ++ effortTools k.y.std k.y.effort

/-- Whether the footprint of a vector of a block that lies in the refreshed region of a rolling cycle lies in that of its reference, the band
included, at least 12 luma samples clear of its right edge (R159); a fractional vector reads 4 samples more. The intra picture before the cycle is
clean throughout (DEDUCED, log entry 132). -/
def EncCtx.clean (k : EncCtx) (m : Nat) (q : PartIn) (f : RefPic) : Bool :=
  match k.pic.roll with
  | none => true
  | some (first, p) =>
    if k.bandAt p ≤ k.g.blockOf m then true
    else
      let right : Int := (64 * m + q.x + q.w : Nat) + q.mv.1 / 4 + (if q.mv.1 % 4 = 0 then 0 else 4)
      match f.roll with
      | some (first', p') => first' = first && decide (right + 12 ≤ (k.bandAt (p' + 1) * k.g.block : Nat))
      | none => f.n = 0

/-- The motion candidates of a partition of region (m, v) for a reference (R146). -/
def EncCtx.candidates (k : EncCtx) (m v : Nat) (q : PartIn) (f : RefPic) : List (Int × Int) :=
  motionCandidates k.x.enc k.g0 k.g k.pic.c f.c (64 * m + q.x) (64 * v + q.y)

/-- The step of a vector in quarter samples: a graphic region keeps integer vectors (R148, R154). -/
def EncCtx.step (k : EncCtx) (t cls : Nat) : Nat := if usesGraphic t cls then 4 else (effortOf k.y.effort).step

/-- Whether a partition is one that the encoder may decide for in region (m, v) of a treatment and class (R148, R154, R159): within the region;
intra in a direction evaluated; or inter, from a reference refined, no smaller than the least partition, its vector within the refinement of a
candidate (DESIGN CHOICE, log entry 131). -/
def EncCtx.partOk (k : EncCtx) (m v t cls : Nat) (q : PartIn) : Bool :=
  let e := effortOf k.y.effort
  decide (0 < q.w ∧ 0 < q.h ∧ q.x + q.w ≤ 64 ∧ q.y + q.h ≤ 64) &&
  match q.ref with
  | none => usesGraphic t cls || (match e.dirs with
      | some n => decide (q.dir < n)
      | none => true)
  | some j =>
    t ≤ 2 && decide (j < e.refs) && decide (e.least ≤ q.w ∧ e.least ≤ q.h) && (e.oblong || q.w = q.h)
      && q.mv.1 % (k.step t cls : Nat) = 0 && q.mv.2 % (k.step t cls : Nat) = 0
      && (match k.pic.refs[j]? with
          | some f => k.clean m q f && (k.candidates m v q f).any (fun c => mvNear q.mv c (4 * e.refine + 3) (4 * e.refine + 3))
          | none => false)

/-- The whole region as one intra block: in floor form with DC prediction (R180). -/
def wholeIntra : PartIn := ⟨0, 0, 64, 64, none, (0, 0), 0, []⟩

/-- The whole region at the zero vector from the first reference (R152, R153). -/
def wholeStill : PartIn := ⟨0, 0, 64, 64, some 0, (0, 0), 0, []⟩

/-- A partition as it is coded with a reference: at its first candidate, held to the step, or at the zero vector; none where neither is clean. -/
def EncCtx.atRef (k : EncCtx) (m v t cls : Nat) (q : PartIn) (j : Nat) : Option PartIn :=
  match k.pic.refs[j]? with
  | none => none
  | some f =>
    let st : Int := k.step t cls
    let c := ((k.candidates m v q f).head?).getD (0, 0)
    [{ q with ref := some j, mv := (c.1 / st * st, c.2 / st * st) }, { q with ref := some j, mv := (0, 0) }].find? (fun z => k.clean m z f)

/-- A partition whose reference cannot be used takes the first that can, and is intra with none left (R164). -/
def EncCtx.usable (k : EncCtx) (m v t cls : Nat) (bad : Nat → Bool) (q : PartIn) : PartIn :=
  match q.ref with
  | none => q
  | some j =>
    if !bad j then q
    else
      let js := (upTo 0 k.pic.refs.length).filter (fun i => !bad i)
      (js.findSome? (fun i => k.atRef m v t cls q i)).getD { q with ref := none, mv := (0, 0), dir := 0 }

/-- The partitions of region (m, v) of a treatment and class, with their tools: the decision that the microcode gives where the encoder may make
it, else the whole region at its first candidate, or intra. -/
def EncCtx.modes (k : EncCtx) (m v t cls : Nat) (bad : Nat → Bool) (ri : RegionIn) : List PartIn :=
  if t = 3 ∨ t = 4 then [wholeStill]
  else
    let own := ri.parts ≠ [] ∧ ri.parts.all (k.partOk m v t cls)
    let ps := if own then ri.parts else if t ≤ 2 then [(k.atRef m v t cls wholeStill 0).getD wholeIntra] else [wholeIntra]
    ps.map (fun q => k.usable m v t cls bad { q with tools := q.tools.filter (k.tools t cls).contains })

/-- Whether a region uses palette or intra block copy. -/
def usesScc (ps : List PartIn) : Bool := ps.any (fun q => q.tools.contains .palette || q.tools.contains .blockCopy)

/-! ## Poison (R164, R238) -/

/-- Whether a sample of a rectangle of luma samples, or of the chroma samples with it, lies in a lost tile of a surface. -/
def State.areaLost (s : State) (u : Surf) (x y w h : Nat) : Bool :=
  (upTo 0 (planesOf u.format)).any (fun p =>
    let st := planeSteps u.format p
    let x0 := min (x / st.1) (planeW u p - 1)
    let y0 := min (y / st.2) (planeH u p - 1)
    let x1 := min ((x + w - 1) / st.1) (planeW u p - 1)
    let y1 := min ((y + h - 1) / st.2) (planeH u p - 1)
    (rectPx (x0 / 32) (y0 / 4) (x1 / 32 + 1 - x0 / 32) (y1 / 4 + 1 - y0 / 4)).any (fun q =>
      (s.tile u p (q.2 * ((planeW u p + 31) / 32) + q.1)).isNone))

/-- The surface of a reconstruction of a rendition. -/
def EncCtx.surfAt (k : EncCtx) (addr : Nat) : Surf := ⟨addr, k.g.w, k.g.h, k.y.chroma, 0⟩

/-- The references, by their place, whose samples a list of partitions of region (m, v) reads and that are lost: a vector reads up to 4 samples beyond its
block (DEDUCED, log entry 132). -/
def State.refsLost (s : State) (k : EncCtx) (m v : Nat) (ps : List PartIn) : List Nat :=
  (upTo 0 k.pic.refs.length).filter (fun j =>
    match k.pic.refs[j]? with
    | some f => ps.any (fun q => q.ref = some j &&
        s.areaLost (k.surfAt f.dst) (heldIn ((64 * m + q.x : Nat) + q.mv.1 / 4 - 3) k.g.w) (heldIn ((64 * v + q.y : Nat) + q.mv.2 / 4 - 3) k.g.h)
          (q.w + 7) (q.h + 7))
    | none => false)

/-- Whether reference j may not be used: it was found poisoned since the last refresh point, in this row or before. -/
def EncCtx.refBad (k : EncCtx) (found : List Nat) (j : Nat) : Bool :=
  match k.pic.refs[j]? with
  | some f => k.y.poisoned.contains f.c || found.contains f.c
  | none => true

/-! ## The region loop (R179) -/

/-- What coding a row gives: its bits, the loop's offset and mode, the counts, the settle counts and dirty marks, whether poison touched it, the
pictures found poisoned, its regions as coded, and the bytes of each. -/
structure RowOut where
  bits : Nat
  adj : Int
  floor : Bool
  floors : Nat
  recoded : Nat
  qSum : Nat
  qN : Nat
  active : Nat
  settle : Tbl Nat
  dirty : Tbl Bool
  conceal : Bool
  found : List Nat
  acc : Tbl Nat
  regs : List ((Nat × Nat) × RegSyn)
  bytes : List (List Nat)
  flat : List (Nat × Nat)
deriving DecidableEq, Repr

/-- The counter of a treatment (R169). -/
def treatCnt (t : Nat) : Nat :=
  if t = 4 then 6 else if t = 3 then 7 else if t = 1 ∨ t = 2 then 8 else if t = 0 then 9 else 10

/-- cls(m) and aq(m) of a region of a treatment (R179). Where its cost or the row's mean is 0 the logarithm has no value, and aq(m) is 0
(DESIGN CHOICE, log entry 49). -/
def EncCtx.offsets (k : EncCtx) (t cost mean : Nat) : Int :=
  let cls : Int := if t = 3 ∨ t = 6 then 8 * k.x.settleDqp else if t = 2 then 8 * k.x.staticDqp else 0
  let aq : Int := if k.y.aq ∧ t ≠ 3 ∧ t ≠ 4 ∧ t ≠ 6 ∧ 0 < mean ∧ 0 < cost then nearLog 8 cost mean (-16) 32 else 0
  cls + aq

/-- How region (m, v) is treated once poison is known (R164): a lost source makes it STATIC where the picture has a reference; a still region whose
first reference cannot be used, or outside a REPEAT is not clean, is coded as a changed one of its class (DEDUCED, log entry 132). -/
def EncCtx.treatWith (k : EncCtx) (m v : Nat) (srcLost : Bool) (bad : Nat → Bool) : Nat :=
  let t := if srcLost ∧ k.pic.refs ≠ [] ∧ ¬ k.pic.intra then 4 else k.treat m v
  let ok := !bad 0 && (k.pic.kind = 1 || match k.pic.refs.head? with
    | some f => k.clean m wholeStill f
    | none => false)
  if (t = 3 ∨ t = 4) ∧ ¬ ok then (if (k.state m v).2 = 0 then 0 else 1) else t

/-- Codes the regions of row i in raster order (R164, R179). -/
def EncCtx.regLoop (s : State) (k : EncCtx) (src : Surf) (p : RowPlan) (N mean : Nat) (force : Bool) :
    Nat → List ((Nat × Nat) × RegionIn) → RowOut → RowOut
  | _, [], o => o
  | i, ((m, v), ri) :: rest, o =>
    let srcLost := s.areaLost src (64 * m) (64 * v) 64 64
    let cls := (k.state m v).2
    let t0 := k.treatWith m v srcLost (k.refBad o.found)
    let lost := s.refsLost k m v (k.modes m v t0 cls (k.refBad o.found) ri)
    let found := o.found ++ lost.filterMap (fun j => (k.pic.refs[j]?).map (fun f => f.c))
    let bad := k.refBad found
    let t := k.treatWith m v srcLost bad
    let later := rest.foldl (fun a z => a + k.fr z.1.1) 0
    let q := k.y.clipRq ((p.rq : Int) + o.adj + k.offsets t (k.cost m v) mean)
    let full := if t = 4 then min ri.floorBits (k.fr m) else ri.bits
    let tight := !o.floor && decide (p.cap < o.bits + full + later)
    let fl := o.floor || force || tight
    let b := if fl then min ri.floorBits (k.fr m) else full
    let bits := o.bits + b
    let adj := if 5 * (p.tgt * (i + 1)) < 4 * (bits * N) then min (o.adj + 4) 24
      else if 5 * (bits * N) < 4 * (p.tgt * (i + 1)) then max (o.adj - 4) (-8) else o.adj
    let inter := !k.pic.intra && !k.band m
    let flat := srcLost && k.pic.intra
    let ps := if flat then [wholeIntra] else if fl then [if inter then k.usable m v 0 0 bad wholeStill else wholeIntra]
      else k.modes m v t cls bad ri
    let still := (t = 4 || (fl && inter)) && ps = [wholeStill]
    let free := ri.filters && !still
    let z : RegSyn := ⟨t, fl, still, q, 0, ps, free && k.y.std != 2 && !(k.y.std = 0 && k.bandRight m), free && k.y.std = 1 && !k.bandRight m,
      free && k.y.std = 2, usesGraphic t cls⟩
    let old := tget 0 k.y.settle (regKey (k.y.total + 1) m v)
    let moving : Bool := t ≠ 4 && !fl
    EncCtx.regLoop s k src p N mean force (i + 1) rest
      { bits := bits, adj := adj, floor := fl, floors := o.floors + (if fl then 1 else 0),
        recoded := o.recoded + (if tight then 1 else 0),
        qSum := o.qSum + (if moving then q else 0), qN := o.qN + (if moving then 1 else 0),
        active := o.active + (if t ≠ 4 then b else 0),
        settle := tset 0 o.settle (regKey k.y.total m v) (settleAfter k.pic.kind t old),
        dirty := tset false o.dirty (regKey k.y.total m v) fl,
        conceal := o.conceal || srcLost || lost ≠ [], found := found,
        acc := tadd (tadd (tadd o.acc (treatCnt t) 1) 11 (if usesScc ps then 1 else 0)) 13 (if srcLost then 1 else 0),
        regs := o.regs ++ [((m, v), z)], bytes := o.bytes ++ [if fl ∨ t = 4 then ri.floorBytes else ri.bytes],
        flat := if flat then o.flat ++ [(m, v)] else o.flat }

/-- The regions of a row as coded, with what their whole block decides: its one quantiser (R172), and ALF, off where all its quarters are still
(R153). -/
def EncCtx.sealRegs (k : EncCtx) (l : List ((Nat × Nat) × RegSyn)) : List ((Nat × Nat) × RegSyn) :=
  l.map (fun z =>
    let mates := l.filter (fun a => k.g.blockOf a.1.1 = k.g.blockOf z.1.1)
    let coded := codedQ k.y.std ((mates.filter (fun a => !a.2.still && !a.2.floor)).map (fun a => a.2.rq))
    (z.1, { z.2 with coded := coded, alf := mates.any (fun a => a.2.alf) }))

/-- Row i is coded from the input that `src` holds. -/
def EncCtx.codeRow (s : State) (k : EncCtx) (src : Surf) (i : Nat) (e : EncRowIn) (force : Bool) : RowOut :=
  let p := k.plan i
  let regs := k.g.regions i
  let fill := e.regions ++ List.replicate (regs.length - e.regions.length) ⟨0, 0, [], [], [], false⟩
  let own := regs.filter (fun z => k.treat z.1 z.2 ≤ 2 || k.treat z.1 z.2 = 5)
  let total := own.foldl (fun a z => a + k.cost z.1 z.2) 0
  let o := EncCtx.regLoop s k src p regs.length (total / atLeast1 own.length) force 0 (regs.zip fill)
    { bits := k.ovh i, adj := 0, floor := decide (p.cap = k.floor i) || force, floors := 0, recoded := 0, qSum := 0, qN := 0,
      active := 0, settle := k.y.settle, dirty := k.y.dirty, conceal := force, found := [], acc := [], regs := [], bytes := [], flat := [] }
  { o with regs := k.sealRegs o.regs }

/-! ## Reconstruction (R57, R153, R164) -/

/-- The luma lines or columns that deblocking changes beside an edge (R93, R153) (DEDUCED, log entry 132). -/
def deblockReach (std : Nat) : Nat := if std = 0 then 3 else if std = 1 then 4 else 8

/-- Whether the reconstruction shows a region's first reference unchanged. -/
def EncPic.still (p : EncPic) (m v : Nat) : Bool := (tget none p.regs (v * 256 + m)).any (fun z => z.still)

/-- Whether the standard's process may change luma sample (x, y) of the reconstruction: not inside a still region, but for what deblocking changes
across an edge shared with one that is not still (R153). -/
def EncPic.mayChange (p : EncPic) (std w h x y : Nat) : Bool :=
  let m := x / 64
  let v := y / 64
  let r := deblockReach std
  let near (e d : Nat) : Bool := decide (d < r) && e = 0
  !p.still m v
    || (0 < m && near 0 (x % 64) && !p.still (m - 1) v) || (64 * (m + 1) < w && near 0 (63 - x % 64) && !p.still (m + 1) v)
    || (0 < v && near 0 (y % 64) && !p.still m (v - 1)) || (64 * (v + 1) < h && near 0 (63 - y % 64) && !p.still m (v + 1))

/-- Writes the samples of region (m, v) of a surface by plane and place. -/
def State.putRegion (s : State) (u : Surf) (m v : Nat) (f : State → Nat → Nat × Nat → Nat) : State :=
  (upTo 0 (planesOf u.format)).foldl (fun t p =>
    let st := planeSteps u.format p
    (rectPx (64 * m / st.1) (64 * v / st.2) (64 / st.1) (64 / st.2)).foldl (fun t q => t.putSample u p q.1 q.2 (f t p q)) t) s

/-- The reconstruction of a row is written at its surface: a still region's co-located samples of the first reference, a flat region's samples
(R164), and what the standard's process gives elsewhere. -/
def State.putRecon (s : State) (k : EncCtx) (addr : Nat) (o : RowOut) (recon : List Px) : State :=
  let u := k.surfAt addr
  let ref := k.surfAt (((k.pic.refs.head?).map (fun f => f.dst)).getD addr)
  let s := ((o.regs.filter (fun z => z.2.still)).map (fun z => z.1)).foldl (fun (t : State) (z : Nat × Nat) =>
    t.putRegion u z.1 z.2 (fun t p q => (t.sample ref p q.1 q.2).getD 0)) s
  let s := o.flat.foldl (fun (t : State) (z : Nat × Nat) =>
    t.putRegion u z.1 z.2 (fun _ p _ => toWord14 k.y.depth (toDepth k.y.depth (if p = 0 then 0x400 else 0x2000)))) s
  let p := { k.pic with regs := o.regs.foldl (fun t (z : (Nat × Nat) × RegSyn) => tset none t (z.1.2 * 256 + z.1.1) (some z.2)) k.pic.regs }
  s.putPx u k.y.depth k.y.depth (recon.filter (fun q =>
    let st := planeSteps u.format q.plane
    p.mayChange k.y.std k.g.w k.g.h (q.x * st.1) (q.y * st.2) && !o.flat.contains (q.x * st.1 / 64, q.y * st.2 / 64)))

end Sys2Proof.Machine
end

