-- ==== Sys2Proof/Machine/EncPictures.lean ====
section
/-!
DEFINITION. Pictures of an encode stream: refresh points and the decision of canvas pictures (R143, R155, R158 to R161, R166, R183 to
R186), references and forms (R155, R156), the changes that take effect at a picture (R189, R190) and its start (R173, R176).
-/
namespace Sys2Proof.Machine

/-! ## Refresh points (R160, R161, R166) -/

/-- Whether R161 would allow a point at picture c. -/
def pointAllowed (x : Stream) (c : Nat) : Bool :=
  c % x.bigK = 0 && (match x.enc.refresh with
    | some (l, _) => l + x.irapMinGap ≤ c
    | none => true)

/-- Whether a request waits that picture c may serve. -/
def requestDue (e : EncSt) (c : Nat) : Bool :=
  match e.request with
  | some f => decide (f ≤ c)
  | none => false

/-- Whether the period since the last refresh point has run out at picture c, one that every rendition codes (R160). -/
def periodDue (x : Stream) (c : Nat) : Bool :=
  x.irapPeriod != 0 && c % x.bigK = 0 && (match x.enc.refresh with
    | some (l, _) => decide (l + x.irapPeriod ≤ c)
    | none => false)

/-- The cause of the refresh point that falls at canvas picture c of a kind, if one does, before a change that takes effect there is known (R160,
R161, R184): a REPEAT has none. -/
def pointCause (x : Stream) (c kind : Nat) : Option Nat :=
  if kind = 1 then none
  else if c = 0 then some 0
  else if x.enc.repinDue ∧ pointAllowed x c then some (if x.target = 0 then 4 else 3)
  else if requestDue x.enc c && pointAllowed x c then some 2
  else if periodDue x c then some 1
  else none

/-- Whether a point of a cause takes the intra form (R158, R160, R161): a periodic one of a rolling stream begins a cycle. -/
def pointIntra (x : Stream) (cause : Nat) : Bool := cause ≠ 1 || !(x.rendition 0).rolling

/-- Whether picture c of a kind is a refresh point in the intra form. -/
def pictureIntra (x : Stream) (c kind : Nat) : Bool :=
  match pointCause x c kind with
  | some q => pointIntra x q
  | none => false

/-- Whether a rendition has a change of EFFORT, STRUCTURE, NREF or REFRESH that may take effect at canvas picture c. -/
def Rend.structural (y : Rend) (c : Nat) : Bool := y.changeFrom ≤ c && y.change.any (fun e => e.1 / 65536 = 2)

/-- The cause that a point is recorded with (R160, R166): where a change takes effect it is CHANGE, and REPIN together with a re-pin (DEDUCED, log entry 117). -/
def Stream.recorded (x : Stream) (c cause : Nat) : Nat :=
  if pointIntra x cause ∧ c ≠ 0 ∧ (upTo 0 x.rends).any (fun r => (x.rendition r).structural c) then
    (if x.target ≠ 0 then 3 else 4)
  else cause

/-- The version that the tasks of picture c of a kind carry, if it is decided now (R165, R166): TARGET_VERSION from the re-pin picture on. -/
def Stream.versionAt (x : Stream) (c kind : Nat) : Nat := if x.target ≠ 0 ∧ pictureIntra x c kind then x.target else x.version

/-! ## Decisions (R143, R165, R183, R184, R186) -/

/-- Whether rendition r has begun, or is about to: one that is added begins with a picture that is no REPEAT (R167, R184). -/
def Stream.begun (x : Stream) (r : Nat) : Bool := (x.rendition r).active || x.enc.decided.any (fun z => z.rends.contains r)

/-- The renditions that code canvas picture c of a kind (R143). -/
def Stream.rendsAt (x : Stream) (c kind : Nat) : List Nat :=
  (upTo 0 x.rends).filter (fun r => c % atLeast1 (x.rendition r).rateDiv = 0 && (kind ≠ 1 || x.begun r))

/-- The canvas picture whose input picture c of a kind takes: its own; of a REPEAT that of the picture before it (R184); of a SUBSTITUTE the
most recent composed one's (R186). -/
def Stream.inputAt (x : Stream) (v : Canvas) (c kind : Nat) : Nat :=
  if kind = 0 then c else if kind = 1 then x.enc.input else v.inputOf c 2

/-- Canvas picture c is decided: its point is placed, and what waited for the point is settled. A rolling cycle follows an intra picture, or begins
at a periodic point (R159). -/
def Stream.decideAt (x : Stream) (v : Canvas) (c kind : Nat) : Stream × Decided :=
  let e := x.enc
  let intra := pictureIntra x c kind
  let cause := (pointCause x c kind).map (fun q => x.recorded c q)
  let repin := if intra then x.target else 0
  let roll := if intra then none else if cause.isSome then some c
    else if (x.rendition 0).rolling ∧ e.roll.isNone ∧ kind ≠ 1 then some c else e.roll
  let z : Decided := {
    c := c, kind := kind, input := x.inputAt v c kind, prev := e.input, cause := cause, intra := intra, repin := repin,
    version := x.versionAt c kind, fresh := kind = 0 && e.repeatRun, roll := roll, rends := x.rendsAt c kind }
  let served := cause.isSome && requestDue e c && pointAllowed x c
  let e := { e with
    input := z.input,
    refresh := match cause with
      | some q => some (c, q)
      | none => e.refresh,
    request := if served then none else e.request, repinAt := if intra then none else e.repinAt,
    repinDue := e.repinDue && !intra, repeatRun := kind = 1, roll := roll }
  ({ x with enc := e, version := z.version, target := if intra then 0 else x.target }, z)

/-- Canvas picture c, the next, is decided, and the stream's level is applied to it (R212). -/
def Stream.decideNext (x : Stream) (v : Canvas) (kind level : Nat) : Stream :=
  let z := x.decideAt v x.enc.c kind
  let y := z.1
  { y with shed := level, enc := { y.enc with c := y.enc.c + 1, decided := y.enc.decided ++ [z.2] } }

/-! ## REORDER_8 (R155, R186) -/

/-- The coding order of the group that begins at picture c: picture 0 alone, then the eight pictures after the last one of the
group before (DEDUCED, log entry 116). -/
def groupOrder (c : Nat) : List Nat :=
  if c = 0 then [0] else [8, 4, 2, 1, 3, 6, 5, 7].map (fun k => c - 1 + k)

/-- The pictures of a group are decided in the order of their numbers: a SUBSTITUTE where one is not composed, or was not at its limit (DEDUCED, log entry 116). -/
def Stream.decideAll (x : Stream) (v : Canvas) (composed : Nat → Bool) : List Nat → Stream × List Decided
  | [] => (x, [])
  | c :: r =>
    let z := x.decideAt v c (if composed c && !x.enc.missed.contains c then 0 else 2)
    let w := z.1.decideAll v composed r
    (w.1, z.2 :: w.2)

/-- A group is decided, and lies in its coding order. -/
def Stream.decideGroup (x : Stream) (v : Canvas) (composed : Nat → Bool) (level : Nat) : Stream :=
  let order := groupOrder x.enc.c
  let z := x.decideAll v composed (upTo x.enc.c order.length)
  let y := z.1
  { y with shed := level, enc := { y.enc with
      c := x.enc.c + order.length,
      decided := y.enc.decided ++ order.filterMap (fun k => z.2.find? (fun d => d.c = k)),
      missed := y.enc.missed.filter (fun k => x.enc.c + order.length ≤ k) } }

/-- The decided picture of a number (modulo 65,536). -/
def EncSt.decidedOf (e : EncSt) (seq : Nat) : Option Decided := e.decided.find? (fun z => z.c % 65536 = seq)

/-! ## References (R155, R164) -/

/-- A list of pictures with one put in by its distance from picture c. -/
def insertNear (c : Nat) (f : RefPic) : List RefPic → List RefPic
  | [] => [f]
  | g :: r => if max c f.c - min c f.c < max c g.c - min c g.c then f :: g :: r else g :: insertNear c f r

/-- The two of some pictures that lie nearest to picture c. -/
def nearestTwo (c : Nat) (l : List RefPic) : List RefPic := (l.foldl (fun a f => insertNear c f a) []).take 2

/-- The references of picture n, canvas picture c, of a rendition, the first one first, among those coded since its last intra picture, the
latest first; a poisoned one is none (R155, R164). -/
def Rend.refsFor (y : Rend) (n c : Nat) : List RefPic :=
  let at_ (k : Nat) : List RefPic := y.refs.filter (fun f => f.n + k = n)
  let l :=
    if y.structure_ = 0 then at_ 1
    else if y.structure_ = 1 then y.refs.take y.nref
    else if y.structure_ = 2 then (if n % 4 = 0 then at_ 4 else if n % 4 = 2 then at_ 2 else at_ 1)
    else nearestTwo c (y.refs.filter (fun f => f.c < c)) ++ nearestTwo c (y.refs.filter (fun f => c < f.c))
  l.filter (fun f => !y.poisoned.contains f.c)

/-- References held after picture n (R155, R168): those that a later picture may use. -/
def activeRefs (y : Rend) (n : Nat) : Nat :=
  if y.structure_ = 0 then 1
  else if y.structure_ = 1 then min (n + 1) (min y.nref 4)
  else if y.structure_ = 2 then (if n % 4 = 2 then 2 else 1)
  else min (n + 1) 4

/-- The first picture of the rolling cycle of canvas picture c of a rendition, and the place of c in it: cycles of RP rendition pictures follow
one another from picture f on (R159) (DEDUCED, log entry 117). -/
def rollPic (x : Stream) (y : Rend) (c : Nat) (f : Option Nat) : Option (Nat × Nat) :=
  f.map (fun f =>
    let k := atLeast1 y.rateDiv
    let p := (c - f) / k % atLeast1 x.rp
    (c - p * k, p))

/-! ## Syntax (R58, R60, R154, R156, R158, R187) -/

/-- Whether picture n of a structure is of temporal ID 2 in LD_LAYERED. -/
def Rend.topLayer (y : Rend) (n : Nat) : Bool := y.structure_ = 2 && n % 2 = 1

/-- The form of a picture (R156, R158). -/
def Rend.formOf (y : Rend) (n : Nat) (intra : Bool) (roll : Option (Nat × Nat)) : PicForm :=
  if intra then (if y.std = 2 then .keyFrame else if y.structure_ = 3 then .idrWRadl else .idrNLp)
  else if y.std = 2 then .frame
  else if y.std = 1 ∧ roll.any (fun p => p.2 = 0) then .gdr
  else if y.std = 0 ∧ y.topLayer n then .subLayerNonRef
  else .trail

/-- The removal times of a picture's units in ticks after its own (R174, R187): one, or in the slice model one for each slice; AV1 signals the
last only. -/
def RendGeo.unitTimes (g : RendGeo) (y : Rend) (period : Nat) : List Nat :=
  if y.model = 0 then [0]
  else
    let l := (upTo 0 ((g.rows + atLeast1 y.sliceRows - 1) / atLeast1 y.sliceRows)).map (fun u => g.ready period (g.sliceEnd y.sliceRows u))
    if y.std = 2 then l.drop (l.length - 1) else l

/-- The HDR metadata of the input `c` of an encode stream, in HEVC units (R60): none, what video layer n showed in it, or the
stream's own (DEDUCED, log entry 84). -/
def State.hdrOf (s : State) (x : Stream) (c : Nat) : Hdr :=
  let v := s.cv x.canvas
  let src := param x.params 4 9 0 0
  if src = 1 then
    match v.surfC.find? (fun e => e.2 = c + 1) with
    | some e => tget noHdr (tget [] v.surfHdr e.1) (param x.params 4 9 1 0)
    | none => noHdr
  else if src = 2 then
    ⟨some ((upTo 1 10).map (fun k => param x.params 4 9 k 0)), some ((upTo 11 2).map (fun k => param x.params 4 9 k 0))⟩
  else noHdr

/-- What a picture emits of its metadata, in the units of its standard (R60, R61): all of it at an IRAP picture or key frame and where
it differs from what was last emitted (DEDUCED, log entry 84). -/
def emitHdr (std : Nat) (intra : Bool) (sent h : Hdr) : Hdr :=
  if intra ∨ h ≠ sent then ⟨h.mdcv.map (mdcvOut std), h.cll⟩ else noHdr

/-- The carriers that bring metadata (R58). -/
def carriersOf (std : Nat) (h : Hdr) : List (Nat × List Nat) :=
  (h.mdcv.map (fun l => (mdcvCarrier std, l))).toList ++ (h.cll.map (fun l => (cllCarrier std, l))).toList

/-- The syntax of a picture that the spec fixes, the screen content flag aside; AV1 shows later, by show_existing_frame, a picture that REORDER_8
codes before its turn (R156) (DEDUCED, log entry 133). -/
def State.picSyn (s : State) (x : Stream) (r : Nat) (p : EncPic) (P : Nat) : PicSyn :=
  let y := x.rendition r
  { form := y.formOf p.n p.intra p.roll,
    seq := if p.cause.isSome then some (s.seqSyn x r P) else none,
    recovery := if y.std != 2 && p.roll.any (fun q => q.2 = 0) then some (x.rp - 1) else none,
    bSlices := y.std != 2 && y.structure_ = 3 && !p.intra,
    slots := if y.std = 2 then (p.refs.take 4).map (fun f => f.c) else [],
    noRefresh := y.std = 2 && !p.intra && y.topLayer p.n,
    showExisting := y.std = 2 && y.structure_ = 3 && !p.intra && p.c % 2 = 0,
    screen := false,
    units := (s.geo x r).unitTimes y x.period,
    carriers := carriersOf y.std (emitHdr y.std p.intra y.sent (s.hdrOf x p.input)) }

/-! ## Changes that take effect at a picture (R166, R189, R190) -/

/-- One table of items laid over another. -/
def mergeItems (t : Tbl Nat) : Tbl Nat → Tbl Nat
  | [] => t
  | (k, v) :: r => mergeItems (tset 0 t k v) r

/-- B with the changes that wait (R190). -/
def Stream.newB (x : Stream) (r : Nat) (g : RendGeo) : Nat :=
  let y := x.rendition r
  (x.setRend r { y with params := mergeItems y.params y.change }).bufferSize r g

/-- Whether a signalled change waits under R190. -/
def Rend.signalled (y : Rend) : Bool := y.change.any (fun e => e.1 / 65536 = 3)

/-- The rendition at a refresh point in the intra form whose first unit finds fullness P: the changes of R166 take effect,
and the signalled ones of R190 where P is no greater than the new B. -/
def Stream.takeChange (x : Stream) (r : Nat) (g : RendGeo) (P c : Nat) : Rend :=
  let y := x.rendition r
  if c < y.changeFrom then y
  else if P ≤ x.newB r g then { y with params := fixMax (mergeItems y.params y.change), change := [], changeAt := none }
  else { y with params := mergeItems y.params (y.change.filter (fun e => e.1 / 65536 ≠ 3)),
                change := y.change.filter (fun e => e.1 / 65536 = 3) }

/-- The changes of rate parameters that wait for no refresh point and take effect at canvas picture c (R189, R193). -/
def Rend.soonDue (y : Rend) (c : Nat) : Nat := (y.soon.filter (fun e => e.1 ≤ c && e.2.any (fun i => i.1 / 65536 = 3))).length

/-- The stream at canvas picture c of rendition r: the changes of R189 that wait for no refresh point take effect at the first
picture whose ENC_PIC_START is dispatched after their acceptance. -/
def Stream.takeSoon (x : Stream) (r c : Nat) : Stream :=
  let y := x.rendition r
  let due := y.soon.filter (fun e => e.1 ≤ c)
  x.setRend r { y with params := due.foldl (fun t e => mergeItems t e.2) y.params, soon := y.soon.filter (fun e => c < e.1) }

/-! ## The start of a picture (R173, R176) -/

/-- P: the fullness before the picture's first unit (R175, R176). -/
def EncCtx.before (k : EncCtx) : Nat :=
  if k.y.total = 0 then k.x.fullness k.r
  else fillTo (k.x.fullness k.r) (arrives k.y.ra (k.gapAfter (k.g.rows - 1))) k.bufB

/-- The picture that a rendition starts: its quantiser and target (R173, R176) (DEDUCED, log entry 117). -/
def EncCtx.start (k : EncCtx) (P : Nat) : EncPic :=
  let x := k.x
  let y := k.y
  let t := k.pic.type
  let luma := k.g.w * k.g.h
  let delta := x.rendPeriod k.r
  let V := if y.model = 0 then P else P + arrives y.ra (k.ready (k.g.rows - 1) - k.ready (k.unitLast 0))
  let Fl := sumOver k.floor 0 k.g.rows
  let G := y.period
  let aim := if y.signalled then min k.bufB (x.newB k.r k.g) else k.bufB
  let goal : Int :=
    if y.mode = 0 then (G * arrives y.ra delta : Nat) + ((P : Int) - (3 * aim / 4 : Nat)) / 4
    else G * ((arrives y.bitrate delta : Nat) - x.debt k.r * (delta : Int) / ((27000000 * atLeast1 y.vbrWindow : Nat) : Int))
  let goal := max goal ((G * Fl : Nat) : Int)
  let lo := y.rqMin
  let span := y.rqMax - lo
  let types := t :: x.nextTypes y k.pic.n k.pic.c (G - 1)
  let sum (q : Nat) : Nat := types.foldl (fun a g => a + x.pred k.r g ((q : Int) + drq g) luma) 0
  let rq : Int :=
    if y.mode = 2 then 8 * (y.targetQp : Int) + drq t
    else
      let qb := leastQ (fun q => decide ((sum q : Int) ≤ goal)) lo span
      let q : Int := (qb : Int) + drq t
      if x.hist k.r t then clipI ((x.rqLast k.r t : Int) - 24) ((x.rqLast k.r t : Int) + 24) q else q
  let safe := leastQ (fun q => decide (x.pred k.r t q luma + Fl ≤ V)) lo span
  let q := y.clipRq (max rq safe)
  { k.pic with rq := q, safe := decide (y.clipRq rq < q), target := max Fl (x.pred k.r t q luma), full := P }

/-- A picture's syntax about which nothing is known. -/
def picSyn0 : PicSyn := ⟨.trail, none, none, false, [], false, false, false, [], []⟩

/-- An encoded picture about which nothing is known. -/
def encPic0 : EncPic :=
  { c := 0, kind := 0, input := 0, prev := 0, n := 0, type := 0, cause := none, intra := false, roll := none, refs := [], base := none, repin := 0,
    fresh := false, rq := 0, safe := false, target := 0, full := 0, bits := [], bytes := [], regs := [], qSum := 0, qN := 0, active := 0,
    floorRegs := 0, firstFloor := 0x1FF, fillers := [], rowsDone := [], conceal := false, acc := [], rateAcc := [], dst := 0, syn := picSyn0,
    out := [] }

/-- The cause of the picture that a rendition starts: the stream's, but of its own first picture after an addition RENDITION_ADDED, even where that
falls on a point of the stream (R160, R167) (DESIGN CHOICE, log entry 132). -/
def Rend.causeAt (y : Rend) (z : Decided) : Option Nat := if y.total = 0 ∧ z.c ≠ 0 then some 5 else z.cause

/-- The picture that rendition r of a stream makes of a decided one, its references with it (R155, R160, R173, R184); its regions' change is judged
against its first reference, and in an intra picture against the picture coded before it (R152) (DEDUCED, log entry 132). -/
def Stream.encPicFor (x : Stream) (r : Nat) (z : Decided) : EncPic :=
  let y := x.rendition r
  let cause := y.causeAt z
  let intra : Bool := cause = some 5 || z.intra
  let n := if intra then 0 else y.n
  let refs := if intra then [] else y.refsFor n z.c
  { encPic0 with
    c := z.c, kind := z.kind, input := z.input, prev := z.prev, n := n, type := if intra then 0 else interType y.structure_ n z.c,
    cause := cause, intra := intra, roll := if intra ∨ ¬ y.rolling then none else rollPic x y z.c z.roll, refs := refs,
    base := if intra then (y.refs.head?).map (fun f => f.c) else (refs.head?).map (fun f => f.c),
    repin := if intra ∧ cause ≠ some 5 then z.repin else 0, fresh := z.fresh }

/-- ENC_PIC_START of rendition r makes of a decided picture: the changes due take effect, and then its quantiser, target and syntax are set (R166, R176,
R189, R190). -/
def State.startPic0 (s : State) (x : Stream) (r : Nat) (z : Decided) : EncPic :=
  let x := x.takeSoon r z.c
  let p := x.encPicFor r z
  let P := (s.encCtx x r p).before
  let x := if p.intra ∧ p.cause ≠ some 5 then x.setRend r (x.takeChange r (s.geo x r) P z.c) else x
  let p := (s.encCtx x r p).start P
  { p with syn := s.picSyn x r p P }

end Sys2Proof.Machine
end

