-- ==== Sys2Proof/Machine/EncTasks.lean ====
section
/-!
DEFINITION. Encode tasks (R76, R87, R95, R111, R144, R145, R152, R178): ENC_PIC_START, ANA_ROW, ENC_ROW and ENC_PIC_END, and the context tasks.
What a task does to its stream's records waits in its run for the task's commit (R272).
-/
namespace Sys2Proof.Machine

/-! ## ENC_PIC_START (R176) -/

/-- Whether a decided picture is the next of its stream for rendition r (R76): every picture decided before it has ended in every rendition,
rendition r has still to code it, and rendition 0 has started it. -/
def Stream.startable (x : Stream) (r seq : Nat) : Option Decided :=
  match x.enc.decided with
  | z :: _ =>
    if z.c % 65536 = seq ∧ z.rends.contains r ∧ (x.rendition r).cur.isNone
        ∧ (r = 0 ∨ (x.rendition 0).cur.map (fun p => p.c) = some z.c ∨ ¬ z.rends.contains 0) then some z
    else none
  | [] => none

/-- Whether ENC_PIC_START may start. -/
def State.encStartReady (s : State) (d : List Nat) : Bool := ((s.stream (dSid d)).startable (dRend d) (dPicSeq d)).isSome

/-- ENC_PIC_START (R60, R76, R160, R173, R176, R184): the decided picture's type, references, quantiser, target and syntax; its commit makes it the
rendition's current one. -/
def execEncPicStart (n now : Nat) (s : State) : Host.Outcome State Fault Refusal :=
  match (s.at now).begin n (fun o => o = 0x30) s.encStartReady with
  | (s, some run) =>
    let d := run.task.desc
    let x := s.stream (dSid d)
    match x.startable (dRend d) (dPicSeq d) with
    | some z =>
      let p := s.startPic0 x (dRend d) z
      .next ((s.clearProg (dSid d) (if dRend d = 0 then [0, 4] else [dRend d])).ended n { run with enc := some p })
    | none => .next (s.ended n run)
  | (s, none) => .next s

/-! ## ANA_ROW (R144, R145, R151, R152) -/

/-- Whether a picture is the one that rendition r of a task's stream codes. -/
def State.codes (s : State) (r : Nat) (d : List Nat) : Bool :=
  ((s.stream (dSid d)).rendition r).cur.any (fun p => p.c % 65536 = dPicSeq d)

/-- The records of a block row of rendition 0. -/
def RendGeo.recCount (g0 : RendGeo) (row : Nat) : Nat := g0.across * min (g0.block / 8) ((g0.h + 7) / 8 - row * (g0.block / 8))

/-- What ANA_ROW of a row works on: regions of rendition 0 that are static or settling are not searched (R152), nor is a REPEAT (R184). -/
def State.anaCtx (s : State) (x : Stream) (pic : EncPic) (d : List Nat) (e : EncSt) : AnaCtx :=
  let k := s.encCtx { x with enc := e } 0 pic
  { e := x.enc, g0 := k.g, c := pic.c, src := s.srcSurf x 0 d, old := (s.inputSurf x 0 pic.prev).getD (s.srcSurf x 0 d),
    depth := k.y.depth, effort := effortOf k.y.effort, row := dRow d,
    zero := fun u v => pic.kind = 1 || k.treat (u / 8) (v / 8) = 3 || k.treat (u / 8) (v / 8) = 4 }

/-- ANA_ROW: the row's cells age, and its records go to the analysis store. -/
def execAnaRow (n : Nat) (recs : List AnaIn) (now : Nat) (s : State) : Host.Outcome State Fault Refusal :=
  match (s.at now).begin n (fun o => o = 0x31) (s.codes 0) with
  | (s, some run) =>
    let d := run.task.desc
    let x := s.stream (dSid d)
    match (x.rendition 0).cur with
    | none => .next (s.ended n run)
    | some pic =>
      let g := s.geo x 0
      let row := dRow d
      let ages (rows : List Nat) : EncSt × Nat := s.ageRows x.enc x.hints g.cvW pic (dAux d) (g.firstCellRow row) rows
      let e := (ages (g.coverRows row)).1
      let fill := recs ++ List.replicate (g.recCount row - recs.length) ⟨(0, 0), (0, 0), 0⟩
      let l := (s.anaCtx x pic d e).records s [] (fill.take (g.recCount row))
      .next (s.ended n { run with encSt := some { e with ana := tset [] e.ana (anaKey pic.c row) l },
                                  acc := [(12, (ages (g.cellRows row)).2)], blocks := g.blocks })
  | (s, none) => .next s

/-! ## ENC_ROW: what it waits for (R87, R144, R178) -/

/-- The rows of rendition 0 that cover rows j and j + 1 of a rendition, in canvas lines (R144). -/
def anaNeeds (g0 g : RendGeo) (j : Nat) : Nat :=
  let j1 := min (j + 2) g.rows
  let line := min g.cvH ((j1 * g.block * g.sc.2 + g.sc.1 - 1) / g.sc.1)
  min g0.rows ((line * g0.sc.1 + g0.sc.2 * g0.block - 1) / (g0.sc.2 * g0.block))

/-- Whether the analysis that row i needs has committed. -/
def State.anaReady (s : State) (k : EncCtx) (sid i : Nat) : Bool :=
  (upTo 0 (anaNeeds k.g0 k.g i)).all (fun a => s.prog (rowKey sid 4 a) != 0)

/-- Whether rows 0 to i − D of the picture have committed (R178). -/
def EncCtx.delayMet (k : EncCtx) (i : Nat) : Bool :=
  i < k.x.wMax + 2 || (upTo 0 (i + 1 - (k.x.wMax + 2))).all (fun j => tget false k.pic.rowsDone j)

/-! ## ENC_ROW: its words (R111) -/

/-- One word of a row's coded output. -/
def codedWord (b : List Nat) (start last : Bool) : BsqWord := sealWord ⟨leNat b, start, last, 0, if last then b.length - 1 else 7, false⟩

/-- The words that each block of a row completes, from the bytes that each adds; the last block completes the row's last word, short or not. -/
def rowWords (start : Bool) (carry : List Nat) : List (List Nat) → List (List BsqWord)
  | [] => []
  | b :: rest =>
    let buf := carry ++ b
    let k := if rest = [] then (buf.length + 7) / 8 else (buf.length - 1) / 8
    (upTo 0 k).map (fun i => codedWord ((buf.drop (8 * i)).take 8) (start && i = 0) (rest.isEmpty && i + 1 = k))
      :: rowWords (start && k = 0) (buf.drop (8 * k)) rest

/-- Pushes words while fewer than 16,383 are occupied: the words left over (R111). -/
def State.encWords (s : State) (n : Nat) : List BsqWord → State × List BsqWord
  | [] => (s, [])
  | w :: r => if (s.bsq n).occupied < 16383 then (s.bsqStore n w).encWords n r else (s, w :: r)

/-- The assembler frees slots of a full queue while an encode task waits: how many of the words that its finished blocks left is a free value
(DESIGN CHOICE, log entry 133). -/
def State.assemble (s : State) (n : Nat) (r : Run) : State × Run :=
  if (s.bsq n).occupied < 16383 ∨ r.entered = 0 then (s, r)
  else
    let f := s.freeVal % r.entered + 1
    let q := s.bsq n
    (s.freeNext.setBsq n { q with words := q.words.drop f }, { r with entered := r.entered - f })

/-- The blocks of a coded row leave in order, each a step of its own: one starts when the row above has gone far enough (R87), and ends once its
words are in the queue. -/
def State.encBlocks (s : State) (n sid kind row lag N : Nat) (r : Run) : List (List BsqWord) → State × Run
  | [] => (s, { r with out := [], dep := false })
  | ws :: rest =>
    if ¬ s.depMet sid kind row lag r.pos N then (s, { r with out := ws :: rest, dep := true })
    else
      match s.encWords n ws with
      | (s, []) =>
        let s := (s.setProg (rowKey sid kind row) (r.pos + 1)).bump (Cnt.SPN_STEPS n)
        s.encBlocks n sid kind row lag N
          { r with pos := r.pos + 1, blocks := r.blocks + 1, steps := r.steps + 1, stepReruns := 0, entered := (s.bsq n).words.length } rest
      | (s, left) => (s, { r with out := left :: rest, dep := false })

/-! ## ENC_ROW: the row (R178 to R180) -/

/-- The bytes that each block of a coded row adds, the row's tail with the last. -/
def EncCtx.blockBytes (k : EncCtx) (o : RowOut) (tail : List Nat) : List (List Nat) :=
  (upTo 0 k.g.blocks).map (fun b =>
    (((o.regs.zip o.bytes).filter (fun z => k.g.blockOf z.1.1.1 = b)).map (fun z => z.2)).flatten
      ++ if b + 1 = k.g.blocks then tail else [])

/-- The blocks all of whose regions are coded STATIC (R81, R98). -/
def EncCtx.staticBlocks (k : EncCtx) (o : RowOut) : Nat :=
  ((upTo 0 k.g.blocks).filter (fun b => (o.regs.filter (fun z => k.g.blockOf z.1.1 = b)).all (fun z => z.2.treat = 4))).length

/-- What a coded row will add to its picture at its commit. -/
def EncCtx.rowResult (k : EncCtx) (i dst : Nat) (e : EncRowIn) (o : RowOut) : EncPic :=
  { encPic0 with
    bits := [(i, o.bits - k.ovh i + min e.overhead (k.ovh i))], bytes := [(i, (k.blockBytes o e.tail).flatten)],
    regs := o.regs.foldl (fun t (z : (Nat × Nat) × RegSyn) => tset none t (z.1.2 * 256 + z.1.1) (some z.2)) [],
    qSum := o.qSum, qN := o.qN, active := o.active, floorRegs := o.floors, firstFloor := if 0 < o.floors then i else 0x1FF,
    conceal := o.conceal, acc := o.acc, refs := k.pic.refs.filter (fun f => o.found.contains f.c), dst := dst,
    rateAcc := tadd (tadd (tadd [] 7 (if 0 < o.floors then 1 else 0)) 8 o.floors) 9 o.recoded }

/-- A rendition with what coding row i leaves beside its records: the settle counts, the dirty marks and the row's cost. -/
def EncCtx.rowState (k : EncCtx) (i : Nat) (o : RowOut) : Rend :=
  { k.y with settle := o.settle, dirty := o.dirty, costs := tset 0 k.y.costs (k.y.total % 2 * 512 + i) (k.rowCost i + 1) }

/-- A row is coded: its reconstruction is written, and its words wait to be pushed. -/
def State.codeEncRow (s : State) (k : EncCtx) (run : Run) (e : EncRowIn) : State × Run :=
  let d := run.task.desc
  let i := dRow d
  let o := EncCtx.codeRow s k (s.srcSurf k.x k.r d) i e (run.task.attempt = 2)
  let s := s.putRecon k (dDst d) o e.recon
  let s := s.setStream (dSid d) (k.x.setRend k.r (k.rowState i o))
  (s, { run with enc := some (k.rowResult i (dDst d) e o), encIn := none, out := rowWords true [] (k.blockBytes o e.tail),
                 statics := k.staticBlocks o, status := if o.conceal then 0x0A else 0, lost := o.found ≠ [] })

/-- The blocks of a coded row go on. -/
def State.encOut (s : State) (n : Nat) (k : EncCtx) (run : Run) : State :=
  let d := run.task.desc
  let z := s.assemble n run
  let z := z.1.encBlocks n (dSid d) k.r (dRow d) (dLag d) k.g.blocks z.2 z.2.out
  let s := z.1.setLState run.task.entry z.2.entryState
  if z.2.out = [] then s.ended n z.2 else s.setRun n z.2

/-- ENC_ROW goes on where it may: the row is coded once what it waits for has committed, and then its blocks leave; else it waits, in STATE
WAIT_DEP for the progress table (R101). -/
def State.encRowGo (s : State) (n : Nat) (run : Run) : State :=
  let d := run.task.desc
  let x := s.stream (dSid d)
  match (x.rendition (dRend d)).cur with
  | none => s.ended n run
  | some pic =>
    let k := s.encCtx x (dRend d) pic
    match run.encIn with
    | none => s.encOut n k run
    | some e =>
      if s.anaReady k (dSid d) (dRow d) ∧ k.delayMet (dRow d) then
        let z := s.codeEncRow k run e
        z.1.encOut n k z.2
      else
        let run := { run with dep := !s.anaReady k (dSid d) (dRow d) }
        (s.setRun n run).setLState run.task.entry run.entryState

/-- Whether ENC_ROW may start: its rendition codes its picture (R76). -/
def State.encRowReady (s : State) (d : List Nat) : Bool := s.codes (dRend d) d

/-- ENC_ROW (R144, R178 to R180). A row that waits for row i − D counts in ROW_WAITS. -/
def execEncRow (n : Nat) (r : EncRowIn) (now : Nat) (s : State) : Host.Outcome State Fault Refusal :=
  match (s.at now).begin n (fun o => o = 0x32) s.encRowReady with
  | (s, some run) =>
    let d := run.task.desc
    let x := s.stream (dSid d)
    let waits : Bool := match (x.rendition (dRend d)).cur with
      | some p => !(s.encCtx x (dRend d) p).delayMet (dRow d)
      | none => false
    .next (s.encRowGo n { run with encIn := some r, acc := if waits then [(14, 1)] else [], entered := (s.bsq n).words.length })
  | (s, none) => .next s

/-- A waiting run of either direction goes on. -/
def State.resumeAny (s : State) (n : Nat) : State :=
  match (s.lth n).run with
  | some r =>
    if dOpcode r.task.desc = 0x32 then (if r.done ∨ r.exhausted then s else s.encRowGo n r)
    else s.resumeRun n
  | none => s

/-- BLOCK_DEP_RELEASE (R87, R88): the row above has gone far enough, and the waiting row goes on. -/
def execBlockDepRelease (n now : Nat) (s : State) : Host.Outcome State Fault Refusal := .next ((s.at now).resumeAny n)

/-- ENC_ROW_WAIT_RELEASE (R144, R178): the rows that an ENC_ROW waits for have committed. -/
def execEncRowWaitRelease (n now : Nat) (s : State) : Host.Outcome State Fault Refusal := .next ((s.at now).resumeAny n)

/-! ## ENC_PIC_END (R177) -/

/-- Whether ENC_PIC_END may start: every row of its picture has committed. -/
def State.encEndReady (s : State) (d : List Nat) : Bool :=
  let x := s.stream (dSid d)
  s.codes (dRend d) d && ((x.rendition (dRend d)).cur.any (fun p => (upTo 0 (s.rendRows x (dRend d))).all (fun i => tget false p.rowsDone i)))

/-- ENC_PIC_END: the model and the records follow at its commit. -/
def execEncPicEnd (n moved now : Nat) (s : State) : Host.Outcome State Fault Refusal :=
  match (s.at now).begin n (fun o => o = 0x33) s.encEndReady with
  | (s, some run) =>
    let s := s.tasksMoved run.task.desc moved
    let c := ((s.stream (dSid run.task.desc)).rendition (dRend run.task.desc)).cur
    .next (s.ended n { run with status := if c.any (fun p => p.conceal) then 0x0A else 0 })
  | (s, none) => .next s

/-! ## Context tasks (R95, R218) -/

/-- CTX_SAVE: the Lathe's context writes reach DRAM, at CTX_ADDR. -/
def execCtxSave (n now : Nat) (s : State) : Host.Outcome State Fault Refusal :=
  match (s.at now).begin n (fun o => o = 0x60) with
  | (s, some r) =>
    let sid := dSid r.task.desc
    .next ((s.putBytes (dCtx r.task.desc) ((s.stream sid).bytes sid)).ended n r)
  | (s, none) => .next s

/-- CTX_LOAD: the stream's state is loaded from the context at CTX_ADDR (R77, R137). -/
def execCtxLoad (n now : Nat) (s : State) : Host.Outcome State Fault Refusal :=
  match (s.at now).begin n (fun o => o = 0x61) with
  | (s, some r) => .next ((s.loadCtx (dSid r.task.desc) (dCtx r.task.desc)).ended n r)
  | (s, none) => .next s

/-- The version that a stream's next picture carries (R95, R166): that of the first decided one that rendition 0 has not started, else that of
the next picture as it would be decided now. -/
def Stream.nextVersion (x : Stream) : Nat :=
  match x.enc.decided.find? (fun z => z.rends.contains 0 && (x.rendition 0).cur.map (fun p => p.c) ≠ some z.c) with
  | some z => z.version
  | none => x.versionAt x.enc.c 0

/-- CTX_VERIFY: OK where this Lathe's control store holds the decision version of the stream's next picture, else
VERSION_MISMATCH (R95, R166); the pictures of a decode stream carry none (R96). -/
def execCtxVerify (n now : Nat) (s : State) : Host.Outcome State Fault Refusal :=
  match (s.at now).begin n (fun o => o = 0x62) with
  | (s, some r) =>
    let x := s.stream (dSid r.task.desc)
    .next (s.ended n { r with status := if x.dir = 0 ∨ (s.slotOf n x.nextVersion).isSome then 0 else 11 })
  | (s, none) => .next s

end Sys2Proof.Machine
end

