-- ==== Sys2Proof/Machine/Drover.lean ====
section
/-!
DEFINITION. The Drover (R326 to R340): jobs, their ledger requests, checks, transfers and ends.
-/
namespace Sys2Proof.Machine

/-- A channel that has run no job. -/
def drv0 : Drv := ⟨.idle, none, [], [], 0, 0, 0xFFFFFFFF, false, false, false, false, 0⟩

/-- Channel n. -/
def State.drv (s : State) (n : Nat) : Drv := tget drv0 s.drvs n

/-- Sets channel n. -/
def State.setDrv (s : State) (n : Nat) (d : Drv) : State := { s with drvs := tset drv0 s.drvs n d }

/-! ## Host memory as seen from the module -/

/-- Bytes of a BAR (R24, R372). -/
def barSize (b : Nat) : Nat := if b = 0 then 2 ^ 26 else if b = 2 then 2 ^ 20 else 2 ^ 32

/-- Whether a host range touches the module's own BARs; a BAR at address 0 takes no range (R382). -/
def State.ownBar (s : State) (a len : Nat) : Bool :=
  [0, 2, 4].any (fun b => tget 0 s.bars b != 0 && 0 < len && a < tget 0 s.bars b + barSize b
    && tget 0 s.bars b < a + len)

/-- Whether a host range wraps past 2^64. -/
def hostWraps (a len : Nat) : Bool := 2 ^ 64 < a + len

/-- Whether the host interface can reach host memory (R328). -/
def State.hostReach (s : State) : Bool := s.pd 3 != 3 && s.on Reg.HIF_STATUS_LINK_UP && !s.perst

/-- Whether reads and writes of host memory wait: the function is in D3hot (R371). -/
def State.d3hot (s : State) : Bool := s.fld Reg.HIF_STATUS_DSTATE = 3

/-! ## The job's parameters -/

/-- The mode: 0 COPY, 1 FILL, 2 COMPARE. -/
def State.drvMode (s : State) (n : Nat) : Nat := s.fld (Reg.DRV_CFG_MODE n)
/-- The source address. -/
def State.drvSrc (s : State) (n : Nat) : Nat := s.fld (Reg.DRV_SRC_LO_ADDR n) + 2 ^ 32 * s.fld (Reg.DRV_SRC_HI_ADDR n)
/-- The destination address. -/
def State.drvDst (s : State) (n : Nat) : Nat := s.fld (Reg.DRV_DST_LO_ADDR n) + 2 ^ 32 * s.fld (Reg.DRV_DST_HI_ADDR n)
/-- The length. -/
def State.drvLen (s : State) (n : Nat) : Nat := s.fld (Reg.DRV_LEN_BYTES n)
/-- Whether the source lies in host memory; FILL has none. -/
def State.drvSrcHost (s : State) (n : Nat) : Bool := s.on (Reg.DRV_CFG_SRC_HOST n) && s.drvMode n != 1
/-- Whether the destination lies in host memory. -/
def State.drvDstHost (s : State) (n : Nat) : Bool := s.on (Reg.DRV_CFG_DST_HOST n)
/-- Whether the job names host memory. -/
def State.drvHost (s : State) (n : Nat) : Bool := s.drvSrcHost n || s.drvDstHost n

/-! ## Start -/

/-- A write of START (R327, R334): ignored, with WRITE_IGNORED, while BUSY or with ABORT in the same write; else BUSY
sets, the bits of the last job clear, and the channel asks for a DMA entry (DEDUCED, log entry 75). -/
def State.drvStart (s : State) (n : Nat) (v : Word) : State :=
  if s.on (Reg.DRV_STATUS_BUSY n) ∨ v.getLsbD 1 then s.setFld (Reg.DRV_STATUS_WRITE_IGNORED n) 1
  else
    let s := s.setFlds [(Reg.DRV_STATUS_BUSY n, 1), (Reg.DRV_STATUS_DESCENDING n, 0), (Reg.DRV_STATUS_STATUS n, 0),
      (Reg.DRV_STATUS_MISMATCH n, 0), (Reg.DRV_STATUS_POISON n, 0), (Reg.DRV_STATUS_ABORTED n, 0)]
    (s.setDrv n { drv0 with phase := .asked }).ask .dma (s.on (Reg.DRV_CFG_LIVE n)) n n

/-- DRV_COPY: START with MODE COPY, or with the refused MODE 3 (R326 to R328). -/
def execDrvCopy (ch : Nat) (v : Word) (now : Nat) (s : State) : Host.Outcome State Fault Refusal :=
  let s := s.at now
  if ch < 16 ∧ v.getLsbD 0 ∧ (s.drvMode ch = 0 ∨ s.drvMode ch = 3) then .next (s.drvStart ch v) else .next s

/-- DRV_FILL: START with MODE FILL (R326, R327). -/
def execDrvFill (ch : Nat) (v : Word) (now : Nat) (s : State) : Host.Outcome State Fault Refusal :=
  let s := s.at now
  if ch < 16 ∧ v.getLsbD 0 ∧ s.drvMode ch = 1 then .next (s.drvStart ch v) else .next s

/-- DRV_COMPARE: START with MODE COMPARE (R326, R327). -/
def execDrvCompare (ch : Nat) (v : Word) (now : Nat) (s : State) : Host.Outcome State Fault Refusal :=
  let s := s.at now
  if ch < 16 ∧ v.getLsbD 0 ∧ s.drvMode ch = 2 then .next (s.drvStart ch v) else .next s

/-! ## The grant -/

/-- Whether a range fails the second and third checks of R328. -/
def State.drvBadRange (s : State) (host : Bool) (a len : Nat) : Bool :=
  if host then hostWraps a len || s.ownBar a len else decide (partUsable s.part < a + len)

/-- The checks of R328: BAD_PARAM 2, HOST_MEM_TIMEOUT 4, or OK. A job of length 0 passes those of its ranges (DEDUCED, log entry 75). -/
def State.drvCheck (s : State) (n : Nat) : Nat :=
  if s.drvMode n = 3 then 2
  else if s.drvLen n = 0 then 0
  else if (s.drvMode n ≠ 1 ∧ s.drvBadRange (s.drvSrcHost n) (s.drvSrc n) (s.drvLen n))
      ∨ s.drvBadRange (s.drvDstHost n) (s.drvDst n) (s.drvLen n) then 2
  else if s.drvHost n ∧ ¬ s.hostReach then 4
  else 0

/-- Whether a COPY descends: one space, the ranges intersect, and the destination starts above the source (R331). -/
def State.drvDescends (s : State) (n : Nat) : Bool :=
  s.drvMode n = 0 && s.drvSrcHost n == s.drvDstHost n && s.drvSrc n < s.drvDst n
    && s.drvDst n < s.drvSrc n + s.drvLen n

/-- Words 2 to 9 of the channel's ledger entry (R338). -/
def State.drvWords (s : State) (n done : Nat) : List Nat :=
  [s.fld (Reg.DRV_SRC_LO_ADDR n), s.fld (Reg.DRV_SRC_HI_ADDR n), s.fld (Reg.DRV_DST_LO_ADDR n),
   s.fld (Reg.DRV_DST_HI_ADDR n), s.drvLen n, s.fld (Reg.DRV_FILL_PATTERN n),
   s.drvMode n + s.fld (Reg.DRV_CFG_SRC_HOST n) * 4 + s.fld (Reg.DRV_CFG_DST_HOST n) * 8
     + s.fld (Reg.DRV_CFG_CLASS n) * 16 + s.fld (Reg.DRV_CFG_LIVE n) * 64, done]

/-- DRV_LEDGER_GRANT (R328): the checks; a job that fails one ends with its STATUS and no access; one that passes runs,
with the bytes that host memory has returned for its host ranges. -/
def execDrvLedgerGrant (ch : Nat) (src dst : List Nat) (now : Nat) (s : State) : Host.Outcome State Fault Refusal :=
  let s := s.at now
  match s.grantBucket .dma ch with
  | some b =>
    if (s.drv ch).phase = .asked then
      let e := s.nextEntry
      let st := s.drvCheck ch
      let s := s.grant .dma ch b 1 (s.drvWords ch 0)
      if st ≠ 0 then .next (s.setDrv ch { drv0 with phase := .ended, entry := some e, status := st })
      else
        let d := { drv0 with phase := .running, entry := some e, descending := s.drvDescends ch }
        let src' := if s.drvSrcHost ch then (src.take (s.drvLen ch)).map (fun b => (b % 256, false)) else []
        let dst' := if s.drvMode ch = 2 ∧ s.drvDstHost ch then (dst.take (s.drvLen ch)).map (fun b => (b % 256, false))
          else []
        .next (s.setDrv ch { d with src := src', dst := dst' })
    else .next s
  | none => .next s

/-! ## The transfer -/

/-- The bytes of a range with their poison: of device DRAM, or what host memory returned. -/
def State.drvBytes (s : State) (host : Bool) (a len : Nat) (got : List (Nat × Bool)) : List (Nat × Bool) :=
  if host then got else (upTo a len).map (fun x => ((s.byte x).toNat, s.poisoned (x / 64)))

/-- The source bytes of a job; FILL's are those of its pattern (R329). -/
def State.drvSource (s : State) (n : Nat) : List (Nat × Bool) :=
  if s.drvMode n = 1 then
    (upTo 0 (s.drvLen n)).map (fun i => (s.fld (Reg.DRV_FILL_PATTERN n) / 256 ^ (i % 4) % 256, false))
  else s.drvBytes (s.drvSrcHost n) (s.drvSrc n) (s.drvLen n) (s.drv n).src

/-- Cuts a list of bytes at the 64-byte lines of their destination: each line's offset in the job and its bytes. -/
def cutLines (dst : Nat) : Nat → Nat → List (Nat × Bool) → List (Nat × List (Nat × Bool))
  | 0, _, _ => []
  | fuel + 1, off, l =>
    if l = [] then []
    else
      let k := 64 - (dst + off) % 64
      (off, l.take k) :: cutLines dst fuel (off + k) (l.drop k)

/-- Writes one destination line of a job (R330, R332): in part or whole, poisoned where a byte is drawn from a poisoned
line. -/
def State.drvLine (s : State) (n : Nat) (off : Nat) (l : List (Nat × Bool)) : State :=
  let a := s.drvDst n + off
  let bytes := l.map (fun b => b.1)
  let ep := l.any (fun b => b.2)
  if s.drvDstHost n then s.send (.write a bytes ep)
  else
    let s := s.dramWrite 6 (579 + n) a bytes 0
    if ep then s.setPoison (a / 64) true else s

/-- Writes lines in order. -/
def State.drvLines (s : State) (n : Nat) : List (Nat × List (Nat × Bool)) → State
  | [] => s
  | (off, l) :: r => (s.drvLine n off l).drvLines n r

/-- The first offset whose byte satisfies `ok`. -/
def firstOff (ok : (Nat × Bool) → Bool) : Nat → List (Nat × Bool) → Option Nat
  | _, [] => none
  | k, b :: r => if ok b then some k else firstOff ok (k + 1) r

/-- The lowest poisoned offset of a list of lines. -/
def poisonOff : List (Nat × List (Nat × Bool)) → Option Nat
  | [] => none
  | (off, l) :: r =>
    match firstOff (fun b => b.2) off l, poisonOff r with
    | some x, some y => some (min x y)
    | some x, none => some x
    | none, y => y

/-- The bytes of a list of lines. -/
def linesLen : List (Nat × List (Nat × Bool)) → Nat
  | [] => 0
  | (_, l) :: r => l.length + linesLen r

/-- The offset at which a comparison stops: the first unequal or poisoned byte (R329, R332). -/
def cmpStop : Nat → List (Nat × Bool) → List (Nat × Bool) → Option (Nat × Bool)
  | k, x :: xs, y :: ys => if x.2 || y.2 then some (k, true) else if x.1 ≠ y.1 then some (k, false) else cmpStop (k + 1) xs ys
  | _, _, _ => none

/-- The job has moved the bytes of at most `lines` destination lines in its order, or compared so many bytes, and ends
with a status (R329 to R334) (DEDUCED, log entry 74). -/
def State.drvFinish (s : State) (n lines status : Nat) (aborted : Bool) : State :=
  let d := s.drv n
  let len := s.drvLen n
  let s := if s.drvMode n ≠ 1 ∧ ¬ s.drvSrcHost n ∧ 0 < len then s.accountLines 6 (579 + n) (s.drvSrc n) len else s
  if s.drvMode n = 2 then
    let s := if ¬ s.drvDstHost n ∧ 0 < len then s.accountLines 6 (579 + n) (s.drvDst n) len else s
    let x := (s.drvSource n).take (64 * lines)
    let y := (s.drvBytes (s.drvDstHost n) (s.drvDst n) len d.dst).take (64 * lines)
    let k := min x.length y.length
    match cmpStop 0 x y with
    | some (i, p) => s.setDrv n { d with phase := .ended, status := 0, done := i, first := i, mismatch := true, poison := p }
    | none => s.setDrv n { d with phase := .ended, status := status, done := k, aborted := aborted }
  else
    let all := cutLines (s.drvDst n) (len / 64 + 2) 0 (s.drvSource n)
    let todo := ((if d.descending then all.reverse else all)).take lines
    let s := s.drvLines n todo
    s.setDrv n { d with phase := .ended, status := status, done := linesLen todo, aborted := aborted,
                        first := (poisonOff todo).getD 0xFFFFFFFF, poison := (poisonOff todo).isSome }

/-- More lines than any job has. -/
def allLines : Nat := 2 ^ 32

/-- Whether host memory has returned every byte that the job reads from it. -/
def State.drvReady (s : State) (n : Nat) : Bool :=
  (!s.drvSrcHost n || s.drvLen n ≤ (s.drv n).src.length)
    && (!(s.drvMode n = 2 && s.drvDstHost n) || s.drvLen n ≤ (s.drv n).dst.length)

/-- A host read of the job returns bytes: the source's first, then COMPARE's destination's (R386). -/
def State.drvData (s : State) (n : Nat) (bytes : List Nat) (poison : Bool) : State :=
  let d := s.drv n
  let b := bytes.map (fun x => (x % 256, poison))
  let k := s.drvLen n - d.src.length
  if s.drvSrcHost n then
    s.setDrv n { d with src := d.src ++ b.take k, dst := if s.drvMode n = 2 ∧ s.drvDstHost n then d.dst ++ b.drop k else d.dst }
  else s.setDrv n { d with dst := d.dst ++ b }

/-- A host access of the job fails with HOST_MEM_TIMEOUT (R333): the lines that it wrote before are a free value (DEDUCED, log entry 74). -/
def State.drvHostFail (s : State) (n : Nat) : State :=
  if (s.drv n).phase = .running then
    (if s.drvReady n ∨ ¬ (s.drv n).descending then s.freeNext.drvFinish n (s.freeVal % (s.drvLen n / 64 + 2)) 4 false
     else s.setDrv n { s.drv n with phase := .ended, status := 4 })
  else s

/-- PERST#, D3cold or link down ends every running job that names host memory (R333, R370). -/
def State.drvHostLost (s : State) : List Nat → State
  | [] => s
  | n :: r => (if s.drvHost n then s.drvHostFail n else s).drvHostLost r

/-- DRV_ABORT (R334): a held request is withdrawn; a running job stops at a line boundary, which one is a free value;
START with ABORT is ignored (DEDUCED, log entry 74). -/
def execDrvAbort (ch : Nat) (v : Word) (now : Nat) (s : State) : Host.Outcome State Fault Refusal :=
  let s := s.at now
  if ch < 16 ∧ v.getLsbD 1 then
    if v.getLsbD 0 then .next (s.setFld (Reg.DRV_STATUS_WRITE_IGNORED ch) 1)
    else if (s.drv ch).phase = .asked then
      .next ((s.withdraw .dma ch).setDrv ch { drv0 with phase := .ended, aborted := true })
    else if (s.drv ch).phase = .running then
      .next (s.freeNext.drvFinish ch (s.freeVal % (s.drvLen ch / 64 + 2)) 0 true)
    else .next s
  else .next s

/-- DRV_DONE (R335, R340): a running job whose host reads have returned has made its transfer; the status registers are
written, BUSY clears, the job counts, FS240 + n notes a STATUS other than OK, the pulse leaves and the entry returns.
While in D3hot a job that names host memory waits (R333). -/
def execDrvDone (ch now : Nat) (s : State) : Host.Outcome State Fault Refusal :=
  let s := s.at now
  let p := (s.drv ch).phase
  if ch < 16 ∧ (p = .ended ∨ (p = .running ∧ s.drvReady ch ∧ ¬ (s.drvHost ch ∧ s.d3hot))) then
    let s := if p = .running then s.drvFinish ch allLines 0 false else s
    let d := s.drv ch
    let s := s.setFlds [(Reg.DRV_STATUS_BUSY ch, 0), (Reg.DRV_STATUS_DESCENDING ch, if d.descending then 1 else 0),
      (Reg.DRV_STATUS_STATUS ch, d.status), (Reg.DRV_STATUS_MISMATCH ch, if d.mismatch then 1 else 0),
      (Reg.DRV_STATUS_POISON ch, if d.poison then 1 else 0), (Reg.DRV_STATUS_ABORTED ch, if d.aborted then 1 else 0),
      (Reg.DRV_DONE_BYTES ch, d.done), (Reg.DRV_FIRST_OFF_OFFSET ch, d.first),
      (Reg.DRV_JOBS_COUNT ch, s.fld (Reg.DRV_JOBS_COUNT ch) + 1)]
    let s := if d.status = 0 then s else s.note (240 + ch)
    let s := (s.setDrv ch drv0).pulse (140 + ch)
    .next (match d.entry with
      | some e => s.release e
      | none => s)
  else .next s

end Sys2Proof.Machine
end

