-- ==== Sys2Proof/Machine/HostOps.lean ====
section
/-!
DEFINITION. Host commands (R374 to R393): their words, their records while they hold an entry, how they end, and what a
queue's staging buffer asks for.
-/
namespace Sys2Proof.Machine

/-- A queue pair that has never been enabled. -/
def hq0 : HQueue := ⟨0, 0, true, [], 0, 0⟩

/-- Queue pair q. -/
def State.hq (s : State) (q : Nat) : HQueue := tget hq0 s.hqs q

/-- Sets queue pair q. -/
def State.setHq (s : State) (q : Nat) (x : HQueue) : State := { s with hqs := tset hq0 s.hqs q x }

/-- The command that holds ledger entry e. -/
def State.cmd (s : State) (e : Nat) : Option HCmd := tget none s.cmds e

/-- Sets the command of entry e. -/
def State.setCmd (s : State) (e : Nat) (c : Option HCmd) : State := { s with cmds := tset none s.cmds e c }

/-- The state of a queue: 0 DISABLED, 1 ACTIVE, 2 DRAINING, 3 ERROR. -/
def State.qState (s : State) (q : Nat) : Nat := s.fld (Reg.HIF_Q5_STATE q)

/-- Whether queue pair q is reserved for the management endpoint (R365). -/
def State.isMgmt (s : State) (q : Nat) : Bool := s.on Reg.RNG_MGMT_CFG_MGMT_EN && s.fld Reg.RNG_MGMT_CFG_MGMT_QP = q

/-- Entries of the SQ and the CQ of queue q. -/
def State.sqSize (s : State) (q : Nat) : Nat := atLeast1 (s.fld (Reg.HIF_Q4_SQ_SIZE_M1 q)) + 1
/-- Entries of the CQ. -/
def State.cqSize (s : State) (q : Nat) : Nat := atLeast1 (s.fld (Reg.HIF_Q4_CQ_SIZE_M1 q)) + 1

/-! ## The words of a command (R379) -/

/-- Word k. -/
def cw (w : List Nat) (k : Nat) : Nat := nth 0 w k
def cOpcode (w : List Nat) : Nat := nbits (cw w 0) 0 8
def cChain (w : List Nat) : Bool := nbits (cw w 0) 8 1 = 1
def cFence (w : List Nat) : Bool := nbits (cw w 0) 9 1 = 1
def cCid (w : List Nat) : Nat := nbits (cw w 0) 16 16
def cTarget (w : List Nat) : Nat := nbits (cw w 1) 0 16
def cData (w : List Nat) : Nat := cw w 2 + 2 ^ 32 * cw w 3
def cLen (w : List Nat) : Nat := cw w 4
def cSegs (w : List Nat) : Nat := nbits (cw w 5) 0 9
/-- PARAMk. -/
def cParam (w : List Nat) (k : Nat) : Nat := cw w (6 + k)

/-! ## Staging and HOST requests (R376, R377) -/

/-- Whether a canvas's composition is live (R253): it feeds a live stream or shows an override. -/
def State.cvLive (s : State) (cv : Nat) : Bool :=
  (s.cv cv).ovr.isSome
    || s.streams.any (fun e => e.2.state != 0 && e.2.dir = 1 && e.2.canvas = cv && e.2.cls ≤ 1)

/-- Whether a command is live (R377). -/
def State.cmdLive (s : State) (w : List Nat) : Bool :=
  let o := cOpcode w
  o = 0x21 || o = 0x22 || (o = 0x20 && s.cvLive (cTarget w))
    || (0x10 ≤ o && o ≤ 0x15 && (s.stream (cTarget w)).state != 0 && (s.stream (cTarget w)).cls ≤ 1)

/-- The commands of queue q that hold an entry. -/
def inFlight (q : Nat) : Tbl (Option HCmd) → Nat
  | [] => 0
  | (_, some c) :: r => (if c.q = q then 1 else 0) + inFlight q r
  | (_, none) :: r => inFlight q r

/-- The interface handles the first staged command of queue q: a fenced one waits for every earlier command, another asks
for its HOST entry; a queue has one request at a time. -/
def State.hostAsk (s : State) (q : Nat) : State :=
  match (s.hq q).staged with
  | [] => s
  | x :: _ =>
    if (s.reqOf .host q).isSome ∨ (cFence x.words ∧ inFlight q s.cmds ≠ 0) ∨ (s.on Reg.HIF_CTRL_QUIESCE ∧ x.mgmt.isNone) then s
    else s.ask .host (s.cmdLive x.words) q q

/-- Staged commands of a queue that are not granted are discarded (R375). -/
def State.hostUnstage (s : State) (q : Nat) : State :=
  (s.setHq q { s.hq q with staged := [] }).withdraw .host q

/-! ## How a command ends -/

/-- Whether a command reads host memory: it waits for data, or for the first segment of its chain. -/
def HCmd.reading (c : HCmd) : Bool :=
  let o := cOpcode c.words
  c.fin.isNone &&
    (match c.wait with
     | .data _ _ => true
     | .nothing => o = 0x10 || o = 0x12 || o = 0x20 || o = 0x32 || o = 0x40 || (cChain c.words && (o = 0x13 || o = 0x33))
     | _ => false)

/-- Whether the CQ of queue q is full. -/
def State.cqFull (s : State) (q : Nat) : Bool :=
  (s.fld (Reg.HIF_Q5_CQ_TAIL q) + 1) % s.cqSize q = (s.hq q).cqHead

/-- Whether the completion of a command can be written now (R390). -/
def State.cplReady (s : State) (c : HCmd) : Bool :=
  c.mgmt.isSome || (s.fld Reg.HIF_STATUS_DSTATE != 3 && !s.cqFull c.q)

/-- The command's entry is released, and its queue's next command may go on. -/
def State.cmdGone (s : State) (e : Nat) (c : HCmd) : State := ((s.setCmd e none).release e).hostAsk c.q

/-- A completion is abandoned (R370, R390). -/
def State.cplLost (s : State) (e : Nat) (c : HCmd) : State := (s.bump Cnt.HIF_CPL_LOST).cmdGone e c

/-- A command ends: its completion waits to be written, in STATE WAIT_CQ where it cannot be; after a reset of PD03 it is
abandoned at once (R370). -/
def State.finish (s : State) (e : Nat) (f : HFin) : State :=
  match s.cmd e with
  | some c =>
    let c := { c with fin := some f, wait := .nothing, since := s.time }
    if c.lost then s.cplLost e c
    else if s.cplReady c then s.setCmd e (some c)
    else (s.setCmd e (some c)).setLState e 3
  | none => s

/-- The command ends with a status and no detail or result. -/
def State.endCmd (s : State) (e status : Nat) : State := s.finish e ⟨status, 0, 0, 0, 0⟩

/-- The command ends with a status and a detail (R381). -/
def State.failCmd (s : State) (e status kind detail : Nat) : State := s.finish e ⟨status, kind, detail, 0, 0⟩

/-- The closes that wait for a stream's boundary end (R383). -/
def State.endCloses (s : State) (sid : Nat) : List Nat → State
  | [] => s
  | e :: r =>
    (match s.cmd e with
     | some c => if c.fin.isNone ∧ c.wait = HWait.boundary ∧ cTarget c.words = sid then s.endCmd e 0 else s
     | none => s).endCloses sid r

/-- The entries that commands hold. -/
def State.cmdEntries (s : State) : List Nat := s.cmds.map (fun x => x.1)

/-- The image words of a HOST entry (R393): CID and OPCODE, LINKs followed, bytes moved. -/
def hostWords (w : List Nat) (hops moved : Nat) : List Nat := [cCid w + cOpcode w * 2 ^ 16, hops, moved]

/-- A command's record changes. -/
def State.updCmd (s : State) (e : Nat) (c : HCmd) : State := (s.setCmd e (some c)).setLWords e (hostWords c.words c.hops c.moved)

/-- A failure of host memory or of a chain is recorded (R385, R386): HIF_ERR_LOG. -/
def State.errLog (s : State) (qp kind detail opcode cid hops addr : Nat) (drv : Bool) : State :=
  s.setFlds [(Reg.HIF_ERR_LOG0_QP, qp), (Reg.HIF_ERR_LOG0_KIND, kind), (Reg.HIF_ERR_LOG0_DETAIL, detail),
    (Reg.HIF_ERR_LOG0_OPCODE, opcode), (Reg.HIF_ERR_LOG0_DRV, if drv then 1 else 0), (Reg.HIF_ERR_LOG1_CID, cid),
    (Reg.HIF_ERR_LOG1_HOPS, hops), (Reg.HIF_ERR_LOG2_ADDR_LO, addr)]

end Sys2Proof.Machine
end

