-- ==== Sys2Proof/Machine/Place.lean ====
section
/-!
DEFINITION. What the Shepherd does with Lathes and domains (R16 to R21, R201, R210, R222 to R224): wakes and power-downs,
roles, the guaranteed capacity, spares, and the choice of a Lathe.
-/
namespace Sys2Proof.Machine

/-! ## Power domains -/

/-- The fields of an address's domain that PD02 restores take their kept values (R21). -/
def State.restoreFlds (s : State) (d : Nat) : Tbl Nat → State
  | [] => s
  | (k, v) :: r =>
    let s' :=
      if domainOf (k / 32) = some d then
        match (regFields (k / 32)).find? (fun f => f.lo = k % 32) with
        | some f => s.setFld (fieldAt (k / 32) f) (v - 1)
        | none => s
      else s
    s'.restoreFlds d r

/-- Lathe n as its domain's reset leaves it: PD02 keeps its rung-3 entries, and the Shepherd a push that waits. -/
def State.latheReset (s : State) (n : Nat) : State :=
  let l := s.lth n
  s.setLth n { lathe0 with retry := l.retry, strikes := l.strikes, ladderSince := l.ladderSince, spare := l.spare }

/-- What INL_CV_STATE shows of the canvases of Inlay i that its domain's reset takes to its reset value: PIC_SEQ and STALE
(R21) (DEDUCED, log entry 66). -/
def State.inlayReset (s : State) (i : Nat) : State :=
  { s with canvases := s.canvases.map (fun e => if e.2.inlay = some i then (e.1, { e.2 with picSeq := 0, stale := false }) else e) }

/-- A domain's registers, counters and on-die memories are cleared (R21, R436) (DEDUCED, log entry 66). -/
def State.domainClear (s : State) (d : Nat) : State :=
  let s := { s with flds := tclear (fun k => domainOf (k / 32) == some d) s.flds,
                    cnts := tclear (fun c => domainOf c == some d) s.cnts }
  if 12 ≤ d then s.latheReset (d - 12) else if d = 6 ∨ d = 7 then s.inlayReset (d - 6) else s

/-- A domain leaves OFF or a reset of its own: what R21 restores is restored, and the Shepherd sets the role again
(DEDUCED, log entry 66). -/
def State.domainRestore (s : State) (d : Nat) : State :=
  let s := s.restoreFlds d s.restore
  let s := if 1 ≤ d then s.setFld (Reg.LCM_DOMAIN_NEAR_MISS d) 0 else s
  if 12 ≤ d then s.setFld (Reg.LTH_ROLE_ROLE (d - 12)) (s.role (d - 12)) else s

/-- A domain enters a deeper state: 1 IDLE, 2 RET, 3 OFF (DEDUCED, log entry 66). -/
def State.sleep (s : State) (d st : Nat) : State :=
  if ¬ hasDomain s.part d then s
  else if st = 3 then (s.domainClear d).setFld (pdStateF d) 3
  else s.setFld (pdStateF d) st

/-! ## Roles and capacity -/

/-- Sets bit n of a mask of Lathes. -/
def State.setMask (s : State) (f : Fld) (n : Nat) (b : Bool) : State := if b then s.orFld f (2 ^ n) else s.clrFld f (2 ^ n)

/-- Gives Lathe n a role; the masks agree with LTH_ROLE (R225). -/
def State.setRole (s : State) (n r : Nat) : State :=
  let s := s.setFld (Reg.LTH_ROLE_ROLE n) r
  let s := (s.setMask Reg.SHP_LT_SERVICE_MASK n (r = 0)).setMask Reg.SHP_LT_SPARE_MASK n (r = 1)
  let s := (s.setMask Reg.SHP_LT_MAINT_MASK n (r = 2)).setMask Reg.SHP_LT_RETIRED_MASK n (r = 3)
  if r = 1 then s else s.setMask Reg.SHP_LT_PARKED_MASK n false

/-- Whether Lathe n is parked (R212). -/
def State.parked (s : State) (n : Nat) : Bool := s.inMask Reg.SHP_LT_PARKED_MASK n

/-- The part's Lathes. -/
def State.lathesAll (s : State) : List Nat := upTo 0 (partLathes s.part)

/-- Lathes that are not retired and not in maintenance (R210). -/
def State.healthy (s : State) : List Nat := s.lathesAll.filter (fun n => s.role n ≤ 1)

/-- ID_CAPS1.SERVICE_LATHES of the part. -/
def partService : Part → Nat
  | .lmx7260 => 24 | .lmx7242 => 12 | .lmx7221 => 6

/-- N_lim of a band (R210). -/
def nLim (p : Part) (band : Nat) : Nat :=
  match p with
  | .lmx7260 => nth 12 [24, 18, 12] band
  | .lmx7242 => nth 6 [12, 9, 6] band
  | .lmx7221 => nth 3 [6, 4, 3] band

/-- The refresh loss L of a band, in thousandths. -/
def bandLoss (band : Nat) : Nat := nth 40 [0, 22, 40] band

/-- The band in force. -/
def State.band (s : State) : Nat := s.fld Reg.SHP_TEMP_BAND

/-- N of R210. -/
def State.guarN (s : State) : Nat := min (nLim s.part s.band) s.healthy.length

/-- G in Mpx/s, rounded down (R210). -/
def State.guarG (s : State) : Nat := s.guarN * 625 * (1000 - bandLoss s.band) / 1000

/-- A degradation condition stands (R431). -/
def State.degradeCond (s : State) : Bool :=
  s.on Reg.SHP_STATUS_DEGRADED || !s.on Reg.LCM_SUPPLY_A_GOOD || !s.on Reg.LCM_SUPPLY_B_GOOD
    || !s.on Reg.LCM_FLASH_BANK_A_OK || !s.on Reg.LCM_FLASH_BANK_B_OK

/-- SERVICE and DEGRADED follow the degradation conditions (R431). -/
def State.judgeMode (s : State) : State :=
  if s.mode = 5 ∧ s.degradeCond then s.toMode 6 7
  else if s.mode = 6 ∧ ¬ s.degradeCond then s.toMode 5 8
  else s

/-- SHP_GUAR, DEGRADED and the mode follow the healthy Lathes and the band (R210, R222). -/
def State.reGuar (s : State) : State :=
  let s := s.setFlds [(Reg.SHP_GUAR_N, s.guarN), (Reg.SHP_GUAR_G_MPX, s.guarG)]
  (s.setFld Reg.SHP_STATUS_DEGRADED (if s.healthy.length < partService s.part then 1 else 0)).judgeMode

/-! ## Versions and spares -/

/-- Whether Lathe n holds a decision version: in its control store, or, where that is not loaded, in the master copy that it
loads from (DEDUCED, log entry 63). -/
def State.holdsV (s : State) (n v : Nat) : Bool :=
  if s.fld (Reg.SPN_STATUS_STATE n) = 3 then (s.slotOf n v).isSome
  else match tget none s.manifests (s.fld (Reg.SPN_SRC_SEL n)) with
    | some m => v != 0 && m.versions.contains v
    | none => false

/-- The decision versions of the encode streams whose span holds Lathe n. -/
def neededV (n : Nat) : Tbl Stream → List Nat
  | [] => []
  | (_, x) :: r => if x.state ≠ 0 ∧ x.dir = 1 ∧ x.lanes.contains n then x.version :: neededV n r else neededV n r

/-- The lowest-numbered spare that holds the decision versions of Lathe n (R222, R425) (DEDUCED, log entry 63). -/
def State.pickSpare (s : State) (n : Nat) : Option Nat :=
  firstWith (fun m => m ≠ n && s.role m = 1 && (neededV n s.streams).all (fun v => s.holdsV m v)) s.lathesAll

/-- A spare is woken and takes role SERVICE (R221, R222). -/
def State.promote (s : State) (m : Nat) : State :=
  let s := ((s.setRole m 0).setFld (Reg.LTH_CTRL_DRAIN m) 0).bump Cnt.SHP_PROMOTIONS
  (s.wakeFor (12 + m) s.time []).reGuar

/-- A spare, if there is one, is promoted. -/
def State.promoteOpt (s : State) : Option Nat → State
  | some m => s.promote m
  | none => s

/-! ## The choice of a Lathe (R201) -/

/-- The last reading of Lathe n's sensor, shifted to be positive: an invalid one ranks last (DEDUCED, log entry 58). -/
def State.latheTemp (s : State) (n : Nat) : Nat :=
  match nth none s.shp.temps n with
  | some t => (t + 1000).toNat
  | none => 10000

/-- Whether Lathe n holds no task. -/
def State.latheFree (s : State) (n : Nat) : Bool :=
  (s.lth n).queue.isEmpty && (s.lth n).run.isNone && (s.lth n).retry.isEmpty

/-- The rank of a Lathe for a stream: its previous span first, then ON and IDLE, RET and OFF; then the coolest; then the
lowest number. -/
def State.latheRank (s : State) (x : Stream) (n : Nat) : Nat :=
  (if x.lanes.contains n then 0 else max 1 (s.pd (12 + n))) * 2 ^ 40 + s.latheTemp n * 2 ^ 16 + n

/-- The Lathe of least rank in a list. -/
def State.leastLathe (s : State) (x : Stream) : List Nat → Option Nat
  | [] => none
  | n :: r =>
    match s.leastLathe x r with
    | some m => if s.latheRank x n < s.latheRank x m then some n else some m
    | none => some n

/-- The first eligible Lathe for a reissue, other than those that failed it (R201, R424): in service, holding no task, and for
an encode stream holding V. -/
def State.reissueTo (s : State) (d : List Nat) (tried : List Nat) : Option Nat :=
  s.leastLathe (s.stream (dSid d)) (s.lathesAll.filter (fun n =>
    s.role n = 0 && !tried.contains n && s.latheFree n && (!encOpcode (dOpcode d) || s.holdsV n (dVersion d))))

/-! ## Refresh requests (R161) -/

/-- A counter of every rendition of a stream adds one: encode counter k. -/
def Stream.encCountAll (x : Stream) (k : Nat) : Nat → Stream
  | 0 => x
  | r + 1 => (x.add64 (rendBase r + 0x20 + 8 * k) 1).encCountAll k r

/-- A refresh request reaches a stream (R161): one that is pending merges it; its picture is the first whose ENC_PIC_START is not
dispatched yet. It adds to REQUESTS, and where it merges to REQUESTS_MERGED, of every rendition (DESIGN CHOICE, log entry 132). -/
def Stream.askRefresh (x : Stream) : Stream :=
  let y := x.encCountAll 3 x.rends
  match x.enc.request with
  | some _ => y.encCountAll 4 x.rends
  | none => { y with enc := { y.enc with request := some y.enc.c } }

/-- A refresh request for an open encode stream. -/
def State.refresh (s : State) (sid : Nat) : State :=
  let x := s.stream sid
  if x.state ≠ 0 ∧ x.dir = 1 then s.putStream sid x.askRefresh else s

end Sys2Proof.Machine
end

