-- ==== Sys2Proof/Machine/Spans.lean ====
section
/-!
DEFINITION. What work costs and how long a span takes (R64, R75, R78 to R82, R87, R147, R201, R203, R204): rates, the equivalent rate, the span
model, the W that the Shepherd chooses, and the gaps of row-paced streams.
-/
namespace Sys2Proof.Machine

/-! ## Rates (R78, R79, R147, R203) -/

/-- The factor of R79 in sixteenths, by depth and chroma code. -/
def factor16 (depth chroma : Nat) : Nat := (if 10 < depth then 12 else 16) * (if chroma = 1 then 12 else if chroma = 2 then 8 else 16) / 16

/-- The rate of R78 in Mpx/s. -/
def workRate (dir std effort : Nat) : Nat :=
  if dir = 0 then (if std = 3 then 1100 else 900)
  else if std = 1 then nth 600 [900, 600, 300] effort
  else nth 900 [1350, 900, 450] effort

/-- W of R64. -/
def partSpan (p : Part) : Nat := min 8 (partService p)

/-- Whether a peak of `area` samples per `period` ticks exceeds what W Lathes of a rate give (R64) (DEDUCED, log entry 55). -/
def overCapacity (p : Part) (area period rate f16 : Nat) : Bool := partSpan p * rate * f16 * period < area * 27 * 16

/-- One term of R147 times a thousand, in kpx per second and per tick of the period: `share` in hundredths. -/
def costTerm (area share k rate f16 : Nat) : Nat := area * share * 900 * 16 * 27000 * 1000 / atLeast1 (k * 100 * rate * f16)

/-- The coding terms of the renditions of a stream. -/
def State.codingCost (s : State) (x : Stream) (r : Nat) : Nat :=
  let y := x.rendition r
  costTerm (s.rendW x r * s.rendH x r) (nth 40 [60, 40, 25] y.effort) y.rateDiv (workRate 1 y.std y.effort)
    (factor16 y.depth y.chroma)

/-- EQUIV_KPX (R203). -/
def State.equiv (s : State) (x : Stream) : Nat :=
  let y := x.rendition 0
  let sum :=
    if x.dir = 0 then costTerm (x.maxW * x.maxH) 100 1 (workRate 0 x.std 0) (factor16 x.maxDepth x.maxChroma)
    else costTerm (s.rendW x 0 * s.rendH x 0) (nth 60 [40, 60, 75] y.effort) 1 (workRate 1 y.std y.effort)
        (factor16 y.depth y.chroma) + (upTo 0 x.rends).foldl (fun n r => n + s.codingCost x r) 0
  sum / atLeast1 (x.period * 1000)

/-! ## The span model (R87) -/

/-- When a span ends a picture: `free` is when each lane is free, the next row's first; each row has its issue time and whether it depends on the
row above, whose start and end are `start` and `fin`; `t` is the CTU time. Two CTU times later its last block leaves the entropy stage. -/
def spanEnd (t : Nat) : List Nat → List (Nat × Bool) → Nat → Nat → Nat
  | _, [], _, fin => fin + 2 * t
  | [], _ :: _, _, fin => fin
  | f :: free, (issue, dep) :: rows, start, fin =>
    let b := if dep then max f (start + 2 * t) else f
    let e := if dep then max (b + issue) (fin + t) else b + issue
    spanEnd t (free ++ [e]) rows b e

/-- The picture time of w lanes, in block-size-ths of a CTU time: `n` blocks in each of `rows` rows of `block` lines, the last of `last`, with a
lag of 1 but at the first row of each `tile` rows. -/
def spanUnits (w n rows block last tile : Nat) : Nat :=
  spanEnd block (List.replicate w 0)
    ((upTo 0 rows).map (fun j => (n * (if j + 1 = rows then last else block), j % atLeast1 tile != 0))) 0 0

/-- A picture's part in the work of a span: its blocks a row, its rows, their lines and those of the last, the rows of a tile, the share in
hundredths of the rate, the rate in Mpx/s and its factor in sixteenths (R78, R79, R147). -/
structure Work where
  n : Nat
  rows : Nat
  block : Nat
  last : Nat
  tile : Nat
  share : Nat
  rate : Nat
  f16 : Nat
deriving DecidableEq, Repr

/-- Units of a CTU time in ns, at typical content. -/
def Work.ns (k : Work) (units : Nat) : Nat := units * k.block * 16000 * k.share / (100 * atLeast1 (k.rate * k.f16))

/-- The lines of the last block row of a picture. -/
def lastLines (h block : Nat) : Nat := h - (h - 1) / atLeast1 block * block

/-- The work of a picture of a decode stream: of the sequence in force, else of the largest that it may have. -/
def Stream.decWork (x : Stream) : Work :=
  let g : Nat × Nat × Nat := match x.dec.seq with
    | some q => (q.width, q.height, q.block)
    | none => (x.maxW, x.maxH, if x.std = 3 then 16 else 64)
  let rows := (g.2.1 + g.2.2 - 1) / atLeast1 g.2.2
  ⟨(g.1 + g.2.2 - 1) / atLeast1 g.2.2, rows, g.2.2, lastLines g.2.1 g.2.2, rows, 100, workRate 0 x.std 0, factor16 x.maxDepth x.maxChroma⟩

/-- The work of rendition r in a picture of an encode stream: rendition 0 has the analysis with its coding (R147). -/
def State.encWork (s : State) (x : Stream) (r : Nat) : Work :=
  let g := s.geo x r
  let y := x.rendition r
  ⟨g.blocks, g.rows, g.block, lastLines g.h g.block, if y.std = 2 then s.tileH x r else g.rows,
    if r = 0 then 100 else nth 40 [60, 40, 25] y.effort, workRate 1 y.std y.effort, factor16 y.depth y.chroma⟩

/-- The work of a picture that the renditions `rends` code. -/
def State.works (s : State) (x : Stream) (rends : List Nat) : List Work := if x.dir = 0 then [x.decWork] else rends.map (s.encWork x)

/-- The typical time in ns of a picture on w lanes: its renditions one after another (DEDUCED, log entry 138). -/
def pictureNs (w : Nat) (l : List Work) : Nat := l.foldl (fun n k => n + k.ns (spanUnits w k.n k.rows k.block k.last k.tile)) 0

/-- The same of bound content (R80). -/
def boundNs (w : Nat) (l : List Work) : Nat := pictureNs w l * 144 / 100

/-- What one lane takes, at bound content, for the work that becomes ready in one row period (R80, R201) (DEDUCED, log entry 138). -/
def rowNs : List Work → Nat
  | [] => 0
  | k :: r => (k :: r).foldl (fun n j => n + j.ns (j.n * j.block * j.rows)) 0 * 144 / (100 * atLeast1 k.rows)

/-- A row period in ns: of a canvas, the lines of a block row of rendition 0; of a decoded picture, its share of the picture period
(DEDUCED, log entry 138). -/
def State.rowPeriodNs (s : State) (x : Stream) : Nat :=
  if x.dir = 0 then x.period * 1000 / (27 * atLeast1 x.decWork.rows)
  else
    let g := s.geo x 0
    g.block * g.sc.2 * x.period * 1000 / (27 * atLeast1 (g.sc.1 * g.lines))

/-- The W that the Shepherd chooses for a picture (R201, R205): the smallest, from the least that the stream may have, that keeps pace with the
rows, or ends before the picture-end deadline in `left` ns; W_MAX where none does (DEDUCED, log entry 138). -/
def State.wantSpan (s : State) (x : Stream) (rends : List Nat) (left : Nat) : Nat :=
  let l := s.works x rends
  (firstWith (fun w => if x.cls ≤ 1 then rowNs l ≤ w * s.rowPeriodNs x else pictureNs w l ≤ left) (upTo x.minW (x.wMax + 1 - x.minW))).getD x.wMax

/-- The refresh stall of a multiplier, in thousandths (R302). -/
def stallOf (mult : Nat) : Nat := nth 320 [54, 108, 215, 320] mult

/-- The bound run time in ns of a picture on a Lathe reserved for a stream of direction `dir` (R204): at bound content, with the stall of the
refresh multiplier and two changes of picture (R75). -/
def State.gapNs (s : State) (x : Stream) (rends : List Nat) (w dir : Nat) : Nat :=
  boundNs w (s.works x rends) * 1000 / (1000 - stallOf (s.fld Reg.SHP_TEMP_MULT)) + 2 * (if x.dir = dir then 3000 else 5000)

end Sys2Proof.Machine
end

