-- ==== Sys2Proof/Machine/Sending.lean ====
section
/-!
DEFINITION. Which tasks the Shepherd sends to which Lathe, and when (R76, R83, R87, R96, R99, R144, R165, R182, R195, R199, R201, R202, R204),
and TASK_DISPATCH (R207).
-/
namespace Sys2Proof.Machine

/-! ## Times of a canvas (R182, R229) -/

/-- T_c in ns of a canvas picture whose commit point is past: the latest one's start, back by whole periods (R229)
(PRESUMED, log entry 89). -/
def Canvas.startOf (v : Canvas) (c : Nat) : Nat := v.startAt - (v.c - 1 - c) * v.period * 1000 / 27

/-- T_c of a canvas picture, past or to come. -/
def Canvas.timeOf (v : Canvas) (c : Nat) : Nat :=
  if c < v.c then v.startOf c else v.startAt + (c + 1 - v.c) * v.period * 1000 / 27

/-- Whether a canvas holds the whole of picture c. -/
def Canvas.composed (v : Canvas) (c : Nat) : Bool :=
  v.cur.map (fun p => p.c) ≠ some c && v.surfC.any (fun e => e.2 = c + 1)

/-- Bands that hold the lines of row j of a rendition: for a scaled one two lines more (R245). -/
def RendGeo.bandsOf (g : RendGeo) (j : Nat) : Nat :=
  (min g.cvH (((j + 1) * g.block * g.sc.2 + g.sc.1 - 1) / g.sc.1 + if g.sc = (1, 1) then 0 else 2) + 15) / 16

/-- Whether the lines of row j of rendition r of canvas picture c, and with them its hint maps, are written (R183, R199). -/
def State.rowComposed (s : State) (x : Stream) (r c j : Nat) : Bool :=
  let v := s.cv x.canvas
  v.composed c || (match v.cur with
    | some p => p.c = c && (s.geo x r).bandsOf j ≤ p.bands
    | none => false)

/-- The ledger time in microseconds, modulo 2^32, at which PTP time reaches `ns`. -/
def State.ledgerAt (s : State) (ns : Nat) : Nat := (((s.time : Int) + ((ns : Int) - (s.ptpNs : Int)) / 1000) % 2 ^ 32).toNat

/-- The ready time in ns of row j of rendition r of canvas picture c. -/
def State.readyNs (s : State) (x : Stream) (r c j : Nat) : Nat := (s.cv x.canvas).timeOf c + (s.geo x r).ready x.period j * 1000 / 27

/-- The DEADLINE of row j of rendition r of canvas picture c (R182). -/
def State.rowDeadline (s : State) (x : Stream) (r c j : Nat) : Nat :=
  s.ledgerAt (s.readyNs x r c j + (x.rendition r).lateSlack * 1000)

/-! ## Order and lanes (R83, R99) -/

/-- Whether an opcode opens a picture: DEC_PIC_START or ENC_PIC_START. -/
def isStart (op : Nat) : Bool := op = 0x11 || op = 0x30

/-- Whether an opcode is of a task of one block row. -/
def isRow (op : Nat) : Bool := op = 0x12 || op = 0x14 || op = 0x15 || op = 0x31 || op = 0x32

/-- The key, among what was sent of a picture, of a task's kind and lane: coding rows by rendition, analysis rows 4, starts 5 by rendition,
the parse of a whole picture 6. -/
def sentKey (d : List Nat) : Nat :=
  let op := dOpcode d
  dPicSeq d * 64 + (if op = 0x31 then 32 + dLane d else if isStart op then 40 + dRend d else if op = 0x13 then 48
    else dRend d * 8 + dLane d)

/-- One more than the row last sent of a task's kind and lane, or 0. -/
def Stream.sentOf (x : Stream) (d : List Nat) : Nat := tget 0 x.sent (sentKey d)

/-- Whether a picture's opening task has been sent for a rendition. -/
def Stream.startSent (x : Stream) (seq r : Nat) : Bool := tget 0 x.sent (seq * 64 + 40 + r) != 0

/-- Whether a task comes in its order: a picture opens once and before its rows; block row r goes to lane r mod W, after the rows before it on
that lane, and of an encoded picture none is left out; the parse of a whole picture goes to lane 0 (R83, R85, R99). -/
def Stream.inOrder (x : Stream) (d : List Nat) : Bool :=
  let op := dOpcode d
  let last := x.sentOf d
  let w := dSpanM1 d + 1
  if isStart op then last = 0
  else if op = 0x13 then x.startSent (dPicSeq d) 0 && last = 0 && dLane d = 0
  else if isRow op then
    x.startSent (dPicSeq d) (dRend d) && dRow d % w = dLane d && last ≤ dRow d
      && (!encOpcode op || dRow d = (if last = 0 then dLane d else last - 1 + w))
  else true

/-- Whether analysis row i of a picture has been sent to its lane. -/
def Stream.anaSent (x : Stream) (d : List Nat) (i : Nat) : Bool :=
  decide (i < tget 0 x.sent (dPicSeq d * 64 + 32 + i % (dSpanM1 d + 1)))

/-- The renditions that code the picture of a task. -/
def Stream.rendsOf (x : Stream) (d : List Nat) : List Nat := ((x.enc.decidedOf (dPicSeq d)).map (fun z => z.rends)).getD [0]

/-- The picture-end deadline that a picture waits by, in ledger time plus 2^31: of encode the latest ENC_PIC_END's, of decode the one that its
opening task carries (DEDUCED, log entry 136). -/
def State.endDeadline (s : State) (d : List Nat) : Nat :=
  let x := s.stream (dSid d)
  let dl :=
    match x.enc.decidedOf (dPicSeq d) with
    | some z => if x.dir = 1 then s.rowDeadline x (dRend d) z.c ((s.geo x (dRend d)).rows - 1) else dDeadline d
    | none => dDeadline d
  s.time + (dl + 2 ^ 31 + 2 ^ 32 - s.time % 2 ^ 32) % 2 ^ 32

/-- W of a task: of the task that opens a picture the one that the Shepherd chooses for it (R201); of a picture's other tasks its own, and every
picture that is not ended has the same, since W changes only between pictures (R83). -/
def State.spanHolds (s : State) (x : Stream) (d : List Nat) : Bool :=
  let w := dSpanM1 d + 1
  let opened : Bool := tget 0 x.spans (dPicSeq d) != 0
  x.spans.all (fun e => e.2 = w)
    && (opened || x.spans != [] || w = s.wantSpan x (x.rendsOf d) ((s.endDeadline d - (s.time + 2 ^ 31)) * 1000))

/-- Whether Lathe n holds, or is to be given, tasks of a picture of another SID. -/
def State.othersOn (s : State) (n sid : Nat) : Bool :=
  ((s.lth n).tasks ++ (s.disps.filter (fun e => e.lathe = n)).map (fun e => e.desc)).any
    (fun d => carriesPicture (dOpcode d) && dSid d ≠ sid)

/-- Whether Lathe n is reserved for a row-paced stream other than sid (R204). -/
def State.reservedFrom (s : State) (n sid : Nat) : Bool :=
  s.streams.any (fun e => e.1 != sid && e.2.state != 0 && e.2.cls ≤ 1 && e.2.lanes.contains n)

/-- Whether Lathe n may carry tasks of stream sid that have a version: it is in service, holds no picture of another SID, and of an encode
stream holds the version (R165, R201, R202). -/
def State.mayCarry (s : State) (sid : Nat) (x : Stream) (v n : Nat) : Bool :=
  s.hasLathe n && s.role n = 0 && !s.othersOn n sid && (x.dir = 0 || s.holdsV n v)

/-- When, in ns of PTP time, the next row of a row-paced encode stream is ready on its lane k: of a picture decided, or of the next one. -/
def State.nextRowNs (s : State) (x : Stream) (k : Nat) : Nat :=
  let rows := (s.geo x 0).rows
  let row (z : Decided) : Nat :=
    let sent := tget 0 x.sent (z.c % 65536 * 64 + 32 + k)
    if sent = 0 then k else sent - 1 + x.lanes.length
  match x.enc.decided.find? (fun z => decide (row z < rows)) with
  | some z => s.readyNs x 0 z.c (row z)
  | none => s.readyNs x 0 x.enc.c k

/-- A picture may be placed on a Lathe that is reserved for row-paced streams where its bound run time ends the guard before their next row is
ready (R204); when the next row of a decoded picture comes is not known before, and the gap is then the Shepherd's own judgement
(DESIGN CHOICE, log entry 57). -/
def State.gapFits (s : State) (x : Stream) (d : List Nat) (n : Nat) : Bool :=
  s.streams.all (fun e =>
    e.1 = dSid d || e.2.state = 0 || 2 ≤ e.2.cls || !e.2.lanes.contains n || e.2.dir = 0
      || s.ptpNs + s.gapNs x (x.rendsOf d) (dSpanM1 d + 1) e.2.dir + s.fld Reg.SHP_GUARD_WAKE_GUARD_US * 1000
          ≤ s.nextRowNs e.2 ((e.2.lanes.findIdx? (fun m => m = n)).getD 0))

/-- Whether Lathe n may be a task's lane (R83, R201, R204, R219, R424): the one that is the lane already; another one, where that one has left
service within the picture; or for a new lane the first of those eligible. A Lathe reserved for a row-paced stream is taken in a gap of it. -/
def State.laneFits (s : State) (x : Stream) (d : List Nat) (n : Nat) : Bool :=
  let sid := dSid d
  let can (m : Nat) : Bool := s.mayCarry sid x (dVersion d) m
  let l := x.lanes.take (dSpanM1 d + 1)
  match l.drop (dLane d) with
  | m :: _ => (n = m && !s.othersOn n sid) || (s.role m != 0 && can n)
  | [] => dLane d = l.length && !l.contains n && can n && ((s.reservedFrom n sid && s.gapFits x d n)
      || s.leastLathe x (s.lathesAll.filter (fun m => can m && !l.contains m && !s.reservedFrom m sid)) = some n)

/-! ## Fields (R87, R96, R144, R165, R182) -/

/-- The EFFORT that a task of rendition r may carry for picture c: the rendition's, or before the picture has started the one that waits. -/
def Stream.effortHolds (x : Stream) (r c e : Nat) : Bool :=
  let y := x.rendition r
  e = y.effort || (y.cur.all (fun p => p.c ≠ c) && e = { y with params := mergeItems y.params y.change }.effort)

/-- The fields of a row task of encode: the last row and the slices, L, the input surface and the hint map's tag, and the deadline (R87, R96, R149,
R182). -/
def State.encRowFields (s : State) (x : Stream) (z : Decided) (r : Nat) (d : List Nat) : Bool :=
  let g := s.geo x r
  let j := dRow d
  let y := x.rendition r
  let v := s.cv x.canvas
  let coding : Bool := dOpcode d = 0x32
  let ends : Bool := (j + 1) % atLeast1 y.sliceRows = 0 || j + 1 = g.rows
  let map := (v.surfOf z.input).map (fun k => (nth (⟨0, 0, 0, 0, 0⟩, 0) v.surfs k).2)
  j < g.rows && dPicLast d = decide (j + 1 = g.rows) && dSliceLast d = (coding && ends)
    && (if j = 0 ∨ (coding ∧ y.std = 2 ∧ j % atLeast1 (s.tileH x r) = 0) then dLag d = 0xFF else dLag d = 1 || !coding)
    && some (dSrc d) = (s.inputSurf x r z.input).map (fun u => u.addr)
    && some (dAux d) = map.map (fun a => a + g.firstCellRow j * cellRowBytes g.cvW)
    && dDeadline d = s.rowDeadline x r z.c j

/-- The input of a row task of encode is there (R199): row-paced, once the row's hint maps are written; picture-paced, from the ready time of the
last row of rendition 0. A coding row is not sent before the analysis rows that it waits for (R99). -/
def State.encRowDue (s : State) (x : Stream) (z : Decided) (r : Nat) (d : List Nat) : Bool :=
  (if x.cls ≤ 1 then s.rowComposed x r z.input (dRow d) else s.readyNs x 0 z.c ((s.geo x 0).rows - 1) ≤ s.ptpNs)
    && (dOpcode d != 0x32 || (upTo 0 (anaNeeds (s.geo x 0) (s.geo x r) (dRow d))).all (x.anaSent d))

/-- Whether a task is one of a decided picture of an encode stream (R143, R144, R165, R182). -/
def State.encTaskHolds (s : State) (x : Stream) (d : List Nat) : Bool :=
  match x.enc.decidedOf (dPicSeq d) with
  | none => false
  | some z =>
    let r := dRend d
    let row := isRow (dOpcode d)
    z.rends.contains r && (dOpcode d != 0x31 || r = 0) && dVersion d = z.version && dStd d = (x.rendition r).std
      && x.effortHolds r z.c (dEffort d)
      && (!row || (s.encRowFields x z r d && s.encRowDue x z r d))
      && (dOpcode d != 0x33 || dDeadline d = s.rowDeadline x r z.c ((s.geo x r).rows - 1))

/-- What has arrived of a picture: up to and with the first end of a picture, or all of it; and the rest. -/
def splitMark : List Arrived → List Arrived × List Arrived
  | [] => ([], [])
  | .mark :: r => ([.mark], r)
  | a :: r => (a :: (splitMark r).1, (splitMark r).2)

/-- The bytes of a list of arrived data. -/
def arrivedBytes (l : List Arrived) : Nat :=
  l.foldl (fun n a => match a with
    | .data _ k => n + k
    | _ => n) 0

/-- The coded data of a task of decode has arrived (R199): row-paced, all of the row's segment, or the picture has ended; picture-paced, the
picture has ended. What arrives by another way than the ring is not the Shepherd's to wait for (DEDUCED, log entry 136). -/
def State.dataHere (s : State) (x : Stream) (d : List Nat) : Bool :=
  let all := tget [] s.ring.arrived (dSid d)
  let l := (splitMark all).1
  all = [] || l.contains .mark
    || (x.cls ≤ 1 && (dw d 5 = 0 || dw d 4 + dw d 5 ≤ arrivedBytes l))

/-- Whether a task is one of a decode stream (R87, R96, R199). -/
def State.decTaskHolds (s : State) (x : Stream) (d : List Nat) : Bool :=
  dVersion d = 0 && dStd d = x.std && dRend d = 0
    && (!isRow (dOpcode d) || (if dRow d = 0 then dLag d = 0xFF else dLag d = 1 || (x.std = 2 && dLag d = 0xFF)))
    && (dOpcode d = 0x10 || dOpcode d = 0x16 || s.dataHere x d)

/-- Whether a stream's task is one that the Shepherd has to send, whatever the Lathe (R83, R96, R99, R195, R199); of
a stream that closes, no picture after the running one. -/
def State.taskDue (s : State) (d : List Nat) : Bool :=
  let x := s.stream (dSid d)
  x.state != 0 && (x.closeBy.isNone || tget 0 x.spans (dPicSeq d) != 0) && dCtx d = s.ctxAddr (dSid d) && dLive d = decide (x.cls ≤ 1)
    && decide (dw d 4 = 2 ^ 32 - 1) = decide (dw d 5 = 0)
    && (0x60 ≤ dOpcode d || (encOpcode (dOpcode d) = decide (x.dir = 1) && s.spanHolds x d && x.inOrder d
      && (if x.dir = 1 then s.encTaskHolds x d else s.decTaskHolds x d)))

/-- Whether a stream has a picture that is due and not opened: a decided one, or one of which data has arrived. -/
def State.pictureDue (s : State) (sid : Nat) (x : Stream) : Bool :=
  x.state != 0 && (if x.dir = 1 then x.enc.decided.any (fun z => z.rends.any (fun r => !x.startSent (z.c % 65536) r))
    else x.spans = [] && x.dec.cur.isNone && tget [] s.ring.arrived sid != [])

/-- Whether a picture waits on Lathe n for one of a LIVE-A stream: while the live charges exceed G, LIVE-A goes ahead of LIVE-B (R215). -/
def State.yields (s : State) (d : List Nat) (n : Nat) : Bool :=
  isStart (dOpcode d) && (s.stream (dSid d)).cls = 1 && s.on Reg.SHP_STATUS_LIVE_OVERCOMMIT
    && s.streams.any (fun e => e.2.cls = 0 && e.2.lanes.contains n && s.pictureDue e.1 e.2)

/-- Whether the Shepherd may give Lathe n a task now: a control or patch task at any time; a picture's task where it is due and the Lathe is the
task's lane; never behind a picture of another SID (R202). -/
def State.sendable (s : State) (n : Nat) (d : List Nat) : Bool :=
  !carriesPicture (dOpcode d)
    || (s.taskDue d && !s.yields d n && (if 0x60 ≤ dOpcode d then !s.othersOn n (dSid d) else s.laneFits (s.stream (dSid d)) d n))

/-! ## Sending -/

/-- A task's Lathe joins the span of its stream, at the task's lane; the span is as long as the task says, for the picture (R83, R198)
(DESIGN CHOICE, log entry 57). What is sent is remembered (R99). -/
def Stream.placeLane (x : Stream) (n : Nat) (d : List Nat) : Stream :=
  let l := x.lanes.take (dSpanM1 d + 1)
  let op := dOpcode d
  let kept : Bool := isStart op || isRow op || op = 0x13
  { x with lanes := if dLane d = l.length ∧ ¬ l.contains n then l ++ [n] else l,
           spans := if kept then tset 0 x.spans (dPicSeq d) (dSpanM1 d + 1) else x.spans,
           sent := if kept then tset 0 x.sent (sentKey d) (dRow d + 1) else x.sent }

/-- A picture's task places its Lathe; a picture that begins on a Lathe reserved for another stream is placed in a live gap (R204)
(DESIGN CHOICE, log entry 57). -/
def State.placeTask (s : State) (n : Nat) (d : List Nat) : State :=
  if 0x10 ≤ dOpcode d ∧ dOpcode d < 0x60 then
    let gap : Bool := isStart (dOpcode d) && s.reservedFrom n (dSid d)
    let s := s.setStream (dSid d) ((s.stream (dSid d)).placeLane n d)
    if gap then s.bump Cnt.SHP_GAP_PLACED else s
  else s

/-- A task goes to Lathe n: it places the Lathe, and the Shepherd asks for its entry. -/
def State.sendTask (s : State) (n : Nat) (d : List Nat) : State := (s.placeTask n d).dispatch n d

/-! ## Pictures that wait for a Lathe (R198, R202) -/

/-- Whether a task opens a picture of a picture-paced stream. -/
def State.opens (s : State) (d : List Nat) : Bool :=
  let x := s.stream (dSid d)
  isStart (dOpcode d) && 2 ≤ x.cls && tget 0 x.spans (dPicSeq d) = 0

/-- Whether one waiting picture comes before another: class rank, then deadline, then SID. -/
def State.waitsBefore (s : State) (a b : ReadyPic) : Bool :=
  let ca := (s.stream (dSid a.desc)).cls
  let cb := (s.stream (dSid b.desc)).cls
  ca < cb || (ca = cb && (a.deadline < b.deadline || (a.deadline = b.deadline && dSid a.desc < dSid b.desc)))

/-- A picture put in its place among those that wait. -/
def State.putReady (s : State) (p : ReadyPic) : List ReadyPic → List ReadyPic
  | [] => [p]
  | q :: r => if s.waitsBefore p q then p :: q :: r else q :: s.putReady p r

/-- Whether the Shepherd dispatches a task: in HOLD and QUIET, and for a suspended decode stream, only what finishes the running
picture (R212, R214, R439) (DESIGN CHOICE, log entry 57). -/
def State.mayDispatch (s : State) (d : List Nat) : Bool :=
  let x := s.stream (dSid d)
  !(s.outputsHeld || (carriesPicture (dOpcode d) && x.dir = 0 && decSuspended x.cls (s.levelFor x)))
    || (carriesPicture (dOpcode d) && s.ofRunning d)

/-- Whether Lathe n may be given a task now. -/
def State.mayGive (s : State) (n : Nat) (d : List Nat) : Bool := s.hasLathe n && s.mayDispatch d && s.sendable n d

/-- A waiting picture has its Lathe: the stream's longest wait follows (R198). -/
def Stream.waited (x : Stream) (us : Nat) : Stream := { x with maxWait := max x.maxWait us }

/-- Lathe n is given to the first waiting picture that may use it (R202). -/
def State.serveReady (s : State) (n : Nat) : State :=
  match s.shp.ready.find? (fun p => s.mayGive n p.desc) with
  | none => s
  | some p =>
    let sid := dSid p.desc
    let t := { s with shp := { s.shp with ready := s.shp.ready.filter (fun q => q ≠ p) } }
    (t.setStream sid ((t.stream sid).waited (t.since p.since))).sendTask n p.desc

/-- Each Lathe of a list in turn. -/
def State.serveAll (s : State) : List Nat → State
  | [] => s
  | n :: r => (s.serveReady n).serveAll r

/-- The opening task of a picture waits, unless it waits already. -/
def State.wait (s : State) (d : List Nat) : State :=
  if s.shp.ready.any (fun p => dSid p.desc = dSid d ∧ dPicSeq p.desc = dPicSeq d) then s
  else { s with shp := { s.shp with ready := s.putReady ⟨d, s.endDeadline d, s.time⟩ s.shp.ready } }

/-- TASK_DISPATCH (R202, R207): a task that is due goes to its Lathe, and the Shepherd asks for its entry. A ready picture of a picture-paced
stream waits in its order, and the Lathe goes to the first that may use it. -/
def execTaskDispatch (n : Nat) (desc : List Word) (now : Nat) (s : State) : Host.Outcome State Fault Refusal :=
  let s := s.at now
  let d := desc.map (fun w => w.toNat)
  if s.opens d then
    .next (if s.hasLathe n ∧ s.mayDispatch d ∧ s.taskDue d then (s.wait d).serveReady n else s)
  else .next (if s.mayGive n d then s.sendTask n d else s)

end Sys2Proof.Machine
end

