-- ==== Sys2Proof/Machine/Ladder.lean ====
section
/-!
DEFINITION. Rungs 2 to 4 of the recovery ladder (R423 to R427): reissue and substitution of a task, a Lathe out of service,
and its retirement.
-/
namespace Sys2Proof.Machine

/-- A rung becomes the highest active on Lathe n. -/
def State.rungUp (s : State) (n r : Nat) : State := s.maxFld (Reg.FLT_LT_LADDER_RUNG n) r

/-- The streams whose span holds Lathe n change their span at their next frame boundary (R198, R219). -/
def State.leaveSpan (s : State) (n : Nat) : State :=
  { s with streams := s.streams.map (fun e =>
      if e.2.lanes.contains n then (e.1, { e.2 with migratePending := true }) else e) }

/-! ## A Lathe gives its work up (R424, R425) -/

/-- Each task of a list is pushed at Lathe m, in order, with its entry QUEUED (R424). -/
def State.pushAll (s : State) (m : Nat) : List QTask → State
  | [] => s
  | t :: r => ((s.setLState t.entry 1).tqPush m t false).pushAll m r

/-- The queued tasks of Lathe n move to the first eligible Lathe, in their order; with none they stay (R424, R425)
(DEDUCED, log entry 115). -/
def State.moveQueue (s : State) (n : Nat) : State :=
  let l := s.lth n
  match l.queue ++ l.retry with
  | [] => s
  | t :: rest =>
    match s.reissueTo t.desc (n :: t.tried) with
    | some m => ((s.setLth n { l with queue := [], retry := [] }).pushAll m (t :: rest)).wakeFor (12 + m) s.time []
    | none => s

/-! ## Rung 4 (R222, R425) -/

/-- Whether a sticky source of Lathe n has RETIRE_UNIT (R421, R425). -/
def State.mayRetire (s : State) (n : Nat) : Bool :=
  [128 + n, 206 + n, 352 + n].any (fun k => s.fltSticky k && s.on (fltRetire k))

/-- A promotion by the ladder counts in RUNG4 (DEDUCED, log entry 27). -/
def State.ladderPromote (s : State) : Option Nat → State
  | some m => (s.promote m).bump Cnt.FLT_RUNG4
  | none => s

/-- Rung 4: the Lathe is retired, or stays in maintenance with RETIRE_BLOCKED; a spare is promoted only where rung 3 found
none; with none, and fewer than MIN_LATHES healthy Lathes in service, FS003 is raised (DEDUCED, log entry 27; DEDUCED, log entry 28). -/
def State.rung4 (s : State) (n : Nat) : State :=
  let l := s.lth n
  let s := s.setFld (Reg.FLT_LT_LADDER_RUNG n) 4
  let s := if s.mayRetire n then (s.setRole n 3).bump Cnt.FLT_RUNG4
    else (s.setRole n 2).setFld (Reg.FLT_LT_LADDER_RETIRE_BLOCKED n) 1
  let pick := if l.spare.isNone then s.pickSpare n else none
  let s := (s.ladderPromote pick).setLth n { s.lth n with ladderSince := none }
  let s := ((s.setFld (Reg.LTH_CTRL_DRAIN n) 1).moveQueue n).leaveSpan n
  let s := s.reGuar
  let left := (s.lathesAll.filter (fun m => s.role m = 0)).length
  if l.spare.isNone ∧ pick.isNone ∧ left < atLeast1 (s.fld Reg.FLT_LADDER_CFG_MIN_LATHES) then s.note 3 else s

/-! ## Rung 3 (R425) -/

/-- A maintenance action that runs on Lathe n ends FAILED. -/
def State.endMaint (s : State) (n : Nat) : State :=
  if s.on Reg.SHP_MAINT_START ∧ s.fld Reg.SHP_MAINT_LATHE = n then
    s.setFlds [(Reg.SHP_MAINT_START, 0), (Reg.SHP_MAINT_STATE, 5)]
  else s

/-- Whether Lathe n is the only healthy Lathe that holds a version that one of its streams is pinned to (R427) (DEDUCED, log entry 29). -/
def State.soleHolder (s : State) (n : Nat) : Bool :=
  (neededV n s.streams).any (fun v => s.healthy.all (fun m => m = n || !s.holdsV m v))

/-- Lathe n leaves service: its queued tasks move and it is drained (DEDUCED, log entry 29). -/
def State.leaveService (s : State) (n : Nat) : State :=
  (((s.setRole n 2).moveQueue n).setFld (Reg.LTH_CTRL_DRAIN n) 1).leaveSpan n

/-- The strike window in microseconds (R423) (DEDUCED, log entry 31). -/
def State.strikeWindow (s : State) : Nat := atLeast1 (s.fld Reg.FLT_STRIKE_CFG_STRIKE_WINDOW_MIN) * 60000000

/-- Lathe n enters rung 3, unless it is there already or retired: a spare takes its place, its queued tasks move and it is
drained; where no Lathe can take its streams they stay on it (R427); STRIKE_LIMIT entries within the window spend the rung
(DEDUCED, log entry 27). -/
def State.rung3 (s : State) (n : Nat) : State :=
  let l := s.lth n
  if l.ladderSince.isSome ∨ s.role n = 3 then s
  else
    let strikes := l.strikes.filter (fun t => s.time ≤ t + s.strikeWindow) ++ [s.time]
    let s := s.setFlds [(Reg.FLT_LT_LADDER_STRIKES n, min 31 strikes.length), (Reg.FLT_LT_LADDER_RUNG n, 3)]
    let s := s.bump Cnt.FLT_RUNG3
    let spare := if s.role n = 0 then s.pickSpare n else none
    let stays : Bool := s.soleHolder n && spare.isNone
    let s := (s.ladderPromote spare).endMaint n
    let s := if stays then s else s.leaveService n
    let s := s.setLth n { s.lth n with strikes := strikes, ladderSince := some s.time, spare := spare }
    let s := s.reGuar
    if atLeast1 (s.fld Reg.FLT_LADDER_CFG_STRIKE_LIMIT) ≤ strikes.length then s.rung4 n else s

/-- Rung 3 ends with its RESTART and SELF_TEST passed: the Lathe takes role SPARE (DEDUCED, log entry 28). -/
def State.rung3Passed (s : State) (n : Nat) : State :=
  let s := (s.setRole n 1).setFlds [(Reg.LTH_CTRL_DRAIN n, 0), (Reg.FLT_LT_LADDER_RUNG n, 0)]
  (s.setLth n { s.lth n with ladderSince := none, spare := none }).reGuar

/-! ## Rung 2 (R424, R425) -/

/-- Whether the Shepherd may abandon a run: rung 1 is spent, or the task's limit has passed and no rerun with budget left is
going on; a task that is committing is left alone (R275, R426, R427). -/
def Run.canAbandon (r : Run) : Bool := r.commit.isNone && (r.exhausted || (r.timedOut && r.stepReruns = 0))

/-- A descriptor with its CHECK made to match. -/
def sealDesc (d : List Nat) : List Nat := setNth (crc16 0xFFFF (descBytes d)) d 15

/-- The substitution of a task (R425): a decode row becomes DEC_CONCEAL_ROW (DEDUCED, log entry 115). -/
def substitute (d : List Nat) : List Nat :=
  if dOpcode d = 0x12 ∨ dOpcode d = 0x14 then sealDesc (setNth (dw d 0 - dOpcode d + 0x15) d 0) else d

/-- The task handed on: its next attempt, on Lathes other than those that failed it. -/
def nextAttempt (n : Nat) (t : QTask) : QTask :=
  if t.attempt = 0 then { t with attempt := 1, tried := n :: t.tried }
  else { t with attempt := 2, tried := n :: t.tried, desc := substitute t.desc }

/-- A task, and those queued behind it on Lathe n, go to the first eligible Lathe, or to the same one after a RELOAD. -/
def State.handOn (s : State) (n : Nat) (t : QTask) : State :=
  let l := s.lth n
  match s.reissueTo t.desc t.tried with
  | some m =>
    ((s.setLth n { l with run := none, queue := [], retry := [] }).pushAll m (t :: l.queue ++ l.retry)).wakeFor (12 + m)
      s.time []
  | none =>
    let s := s.setLth n { l with run := none, queue := [], retry := [], lastPic := none }
    let s := s.pushAll n (t :: l.queue ++ l.retry)
    (s.setFlds [(Reg.SPN_CTRL_RELOAD n, 1), (Reg.SPN_STATUS_RETRIED n, 0)]).beginLoad n (s.fld (Reg.SPN_SRC_SEL n)) 1

/-- Rung 2: the attempt is abandoned and its task handed on with its entry; the Lathe enters rung 3 (DESIGN CHOICE, log entry 30). -/
def State.rung2 (s : State) (n : Nat) (r : Run) (cycles : Nat) : State :=
  let t := r.task
  let l := s.lth n
  let res := resultWords (s.freeVal % 256) r.reruns (dTag t.desc) cycles 0 0 0 true
  let s := s.freeNext.setLth n { l with lastRes := res, bsq := { l.bsq with rd := 0 } }
  let s := ((s.bump (Cnt.CNT_ABANDONED n)).bump (Cnt.CYC_BUSY n) cycles).bump Cnt.FLT_RUNG2
  let s := ((s.rungUp n 2).traceRec n 4 t.desc (s.entryPc n t.desc) r.steps).bsqRequest n
  let s := if t.attempt = 0 then s else s.note 2
  let s := if t.attempt ≠ 0 ∧ dOpcode t.desc = 0x32 then s.refresh (dSid t.desc) else s
  ((s.handOn n (nextAttempt n t)).pulse (5 * n + 4)).rung3 n

/-- TASK_ABANDON (R424, R425); a Lathe that it frees goes to the first waiting picture (R202). -/
def execTaskAbandon (n cycles now : Nat) (s : State) : Host.Outcome State Fault Refusal :=
  let s := s.at now
  match (s.lth n).run with
  | some r => if r.canAbandon then .next ((s.rung2 n r cycles).serveReady n) else .next s
  | none => .next s

/-- TASK_TIMEOUT (R102, R427): the task has run longer than LTH_TASK_LIMIT without a commit; one that is committing is not
touched. -/
def execTaskTimeout (n cycles now : Nat) (s : State) : Host.Outcome State Fault Refusal :=
  let s := s.at now
  match (s.lth n).run with
  | some r =>
    if atLeast1 (s.fld (Reg.LTH_TASK_LIMIT_LIMIT_KCYC n)) * 1024 < cycles ∧ r.commit.isNone ∧ ¬ r.timedOut then
      .next ((s.setRun n { r with timedOut := true }).raise (128 + n) (Reg.LTH_FAULT_TASK_TIMEOUT n))
    else .next s
  | none => .next s

/-- MIGRATE_TIMEOUT (R423, R426): MIGRATE_MS after its entry, rung 3 is spent. -/
def execMigrateTimeout (n now : Nat) (s : State) : Host.Outcome State Fault Refusal :=
  let s := s.at now
  match (s.lth n).ladderSince with
  | some t =>
    if t + atLeast1 (s.fld Reg.FLT_LADDER_CFG_MIGRATE_MS) * 1000 ≤ s.time then .next (s.rung4 n) else .next s
  | none => .next s

/-! ## Loads (R279, R280) -/

/-- A load has failed twice: LOAD_FAIL, which enters rung 3 (R423). -/
def State.loadFail (s : State) (n : Nat) : State :=
  (((s.setFlds [(Reg.SPN_STATUS_STATE n, 5), (Reg.SPN_CTRL_RELOAD n, 0)]).traceFreeze n).raise (206 + n)
    (Reg.SPN_FAULT_LOAD_FAIL n)).rung3 n

/-- SPINDLE_LOAD_DONE (R278 to R280): the CRC-64 over the read data is compared with the manifest's; a first failure, an uncorrectable
error among them, repeats the load once, and a second sets LOAD_FAIL. -/
def execSpindleLoadDone (n : Nat) (uncorr : Bool) (s : State) : Host.Outcome State Fault Refusal :=
  if s.hasLathe n ∧ s.fld (Reg.SPN_STATUS_STATE n) = 1 then
    let mc := s.fld (Reg.SPN_STATUS_LOADED_FROM n)
    let k := (s.lth n).loads
    let crc := storeCrc (s.lth n).cs (s.lth n).disp
    let z := s.csPass n
    let s := z.1
    let s := s.setFlds [(Reg.SPN_CRC_LO_CRC_LO n, crc), (Reg.SPN_CRC_HI_CRC_HI n, crc / 2 ^ 32)]
    match tget none s.manifests mc with
    | some m =>
      if m.crc = crc ∧ ¬ uncorr ∧ ¬ z.2 then
        let s := s.loadReady n m
        if k = 2 then .next ((s.setFld (Reg.SPN_STATUS_RETRIED n) 1).raise (180 + n) (Reg.SPN_FAULT_LOAD_RETRIED n))
        else .next s
      else if k = 1 then .next (s.beginLoad n mc 2)
      else .next (s.loadFail n)
    | none => if k = 1 then .next (s.beginLoad n mc 2) else .next (s.loadFail n)
  else .next s

end Sys2Proof.Machine
end

