-- ==== Sys2Proof/Machine/Commit.lean ====
section
/-!
DEFINITION. A task's commit (R91 to R93, R98, R139, R168, R169, R177, R191 to R193, R205, R272): what it does to its
stream's records, its slice, its result, its counters and pulses.
-/
namespace Sys2Proof.Machine

/-! ## The picture's end, in both directions -/

/-- The least W after a picture that did (`bad`) or did not overrun (R205); answers whether FS064 is raised. -/
def Stream.overrunStep (x : Stream) (bad : Bool) : Stream × Bool :=
  if bad then
    if x.minW < x.wMax then ({ x with minW := x.minW + 1, calm := 0, overrun := false, hot := 0 }, false)
    else ({ x with calm := 0, overrun := true, hot := (x.hot + 1) % 64 }, x.hot = 0)
  else if x.calm + 1 = 64 then ({ x with minW := max 1 (x.minW - 1), calm := 0, overrun := false, hot := 0 }, false)
  else ({ x with calm := x.calm + 1, overrun := false, hot := 0 }, false)

/-- The traffic of the picture that ends: its running maximum replaces BW_EST after 16 pictures (R197, R312) (DEDUCED, log entry 45). -/
def State.measure (s : State) (sid : Nat) (x : Stream) : Stream :=
  let now := s.cnt (Cnt.DMC_ACCT sid)
  let used := (now + 2 ^ 64 - x.acct) % 2 ^ 64
  let m := max x.bwMax used
  { x with acct := now, bwMax := m, pics := x.pics + 1, bwEst := if 16 ≤ x.pics + 1 then m else x.bwEst }

/-- A stream becomes CLOSED and leaves its Lathes (R114); its counters return to 0 only when it is opened again. -/
def State.closeStream (s : State) (sid : Nat) : State :=
  let x := s.stream sid
  let s := x.lanes.foldl (fun t n => t.bsqLeave sid n) s
  let v := s.cv x.canvas
  let s := if x.dir = 1 then s.setCv x.canvas { v with copies := [] } else s
  let s := { s with shp := { s.shp with ready := s.shp.ready.filter (fun p => dSid p.desc ≠ sid) } }
  let s := s.setStream sid { x with state := 0, closeBy := none, lanes := [], migratePending := false, spans := [], sent := [],
                                    dec := { x.dec with cur := none } }
  s.saveCtx sid

/-- A stream's frame boundary (R198, R218): its context is in DRAM, and a close that waits takes place. -/
def State.boundary (s : State) (sid : Nat) : State :=
  let s := s.saveCtx sid
  match (s.stream sid).closeBy with
  | some _ => let s := s.closeStream sid; s.endCloses sid s.cmdEntries
  | none => s

/-- The overrun judgement of a picture's end, with its fault source. -/
def State.judgeOverrun (s : State) (sid : Nat) (bad : Bool) : State :=
  let z := (s.stream sid).overrunStep bad
  let s := s.setStream sid z.1
  if z.2 then s.note 64 else s

/-! ## Decode (R138, R139) -/

/-- The damage last detected enters the status record. -/
def Stream.decDamage (x : Stream) (seq : Nat) : Option (Nat × Nat × Nat × Nat) → Stream
  | some (code, row, col, time) =>
    let x := (x.setBits 0x100 16 8 code).setBits 0x104 0 16 seq
    ((x.setBits 0x104 16 9 row).setBits 0x108 0 16 col).setWord 0x10C time
  | none => x

/-- A sequence is refused in band (R67): the status says why, and the queue of Lathe n is flushed (R114). -/
def State.refuseSeq (s : State) (n sid why : Nat) (x : Stream) : State :=
  let x := (x.setBits 0x100 0 8 2).setBits 0x100 8 8 why
  ((s.setStream sid { x with state := 5 }).saveCtx sid).bsqRequest n

/-- DEC_SEQ commits (R67): the sequence is refused, or in force; at a resumption the status shows the last picture's taint (R138). -/
def State.foldSeq (s : State) (n : Nat) (r : Run) (ds : DecSt) : State :=
  let sid := dSid r.task.desc
  let x := ((s.stream sid).decDamage (dPicSeq r.task.desc) r.damage).addAll 0x120 r.acc
  let x := { x with dec := { x.dec with seq := ds.seq, needStart := ds.needStart } }
  if r.lost then s.refuseSeq n sid r.lossCode x
  else
    let st := if x.bits 0x100 24 1 = 1 then 0x0A else 0
    let x := if x.state = 5 then { ((x.setBits 0x100 0 8 st).setBits 0x100 8 8 0) with state := 1 } else x
    (s.setStream sid x).saveCtx sid

/-- Of two damages the one detected later. -/
def laterDamage : Option (Nat × Nat × Nat × Nat) → Option (Nat × Nat × Nat × Nat) → Option (Nat × Nat × Nat × Nat)
  | some a, some b => if b.2.2.2 ≤ a.2.2.2 then some a else some b
  | some a, none => some a
  | none, b => b

/-- A row, or the parse of a picture, commits into its picture. -/
def DecPic.take (p : DecPic) (r : Run) (row : Bool) (now : Nat) : DecPic :=
  let d := r.task.desc
  { p with acc := taddAll p.acc r.acc,
           damage := laterDamage r.damage p.damage,
           taint := p.taint || r.taint, concealed := p.concealed + r.concealed,
           rowsDone := if row then tset false p.rowsDone (dRow d) true else p.rowsDone,
           finalAt := if row ∧ dPicLast d then some now else p.finalAt }

/-- A row task of decode commits. -/
def State.foldDecRow (s : State) (r : Run) (row : Bool) : State :=
  let sid := dSid r.task.desc
  let x := s.stream sid
  s.setStream sid { x with dec := { x.dec with cur := x.dec.cur.map (fun p => p.take r row s.time) } }

/-- DEC_PIC_START commits: the picture is the stream's, or its sequence is refused for a tool that the picture shows (R49). -/
def State.foldDecStart (s : State) (n : Nat) (r : Run) (ds : DecSt) : State :=
  let sid := dSid r.task.desc
  let x := s.stream sid
  if r.lost then s.refuseSeq n sid r.lossCode { x.addAll 0x120 r.acc with dec := ds }
  else s.setStream sid { x with dec := ds, state := if x.state = 5 then 5 else 2 }

/-- What the Shepherd sent of a picture is forgotten (R83, R99). -/
def Stream.forgetPic (x : Stream) (seq : Nat) : Stream :=
  { x with spans := tclear (fun k => k = seq) x.spans, sent := tclear (fun k => k / 64 = seq) x.sent }

/-- DEC_PIC_END of a decoded picture commits: the status record, the counters, the decoded picture buffer and the overrun
judgement: 2 of the last 16 pictures late (R205). -/
def State.foldDecEnd (s : State) (r : Run) (ds : DecSt) : State :=
  let sid := dSid r.task.desc
  let x := s.stream sid
  let cur := x.dec.cur
  let x := x.decDamage (dPicSeq r.task.desc) (laterDamage r.damage (cur.bind (fun p => p.damage)))
  let x := ((x.setBits 0x100 0 8 (if r.taint then 0x0A else 0)).setBits 0x100 8 8 0).setBits 0x100 24 1 (if r.taint then 1 else 0)
  let x := if cur.any (fun p => p.started) then x.setBits 0x100 25 1 1 else x
  let x := (x.setBits 0x110 0 16 (dPicSeq r.task.desc)).addAll 0x120 r.acc
  let x := ({ (s.measure sid x) with dec := ds, lastEnd := s.time, state := 1 }).forgetPic (dPicSeq r.task.desc)
  let s := (s.setStream sid x).judgeOverrun sid (2 ≤ (ds.lateHist.filter (fun b => b)).length)
  s.boundary sid

/-- DEC_PIC_END of a picture that was not decoded commits. -/
def State.foldDecSkip (s : State) (r : Run) : State :=
  let sid := dSid r.task.desc
  let x := s.stream sid
  let acc := match x.dec.cur with
    | some p => taddAll r.acc p.acc
    | none => r.acc
  let x := (x.decDamage (dPicSeq r.task.desc) (x.dec.cur.bind (fun p => p.damage))).addAll 0x120 acc
  let k : Nat := (x.dec.cur.map (fun (p : DecPic) => p.directed)).getD 0
  let x := { x with dec := { x.dec with cur := none, hdr := r.hdr.getD x.dec.hdr }, lastEnd := s.time, state := if x.state = 5 then 5 else 1,
                    picsShed := satAdd (2 ^ 32 - 1) x.picsShed (if k = 0 then 0 else 1) }
  let s := if k = 2 then s.bump Cnt.SHP_PICS_SHED else s
  (s.setStream sid (x.forgetPic (dPicSeq r.task.desc))).boundary sid

/-! ## Encode: the picture's start (R166, R176, R190) -/

/-- The rendition after a picture's ENC_PIC_START: the picture is its current one, and at a point what refers to the pictures before it ends
(R155, R164). -/
def Rend.takeStart (y : Rend) (p : EncPic) (h : Hdr) : Rend :=
  { y with cur := some p, active := true, n := if p.intra then 0 else y.n, refs := if p.intra then [] else y.refs,
           poisoned := if p.cause.isSome then [] else y.poisoned, costs := if p.repin ≠ 0 then [] else y.costs, sent := h,
           point := match p.cause with
             | some q => some (p.c, q)
             | none => y.point }

/-- A change of rate parameters takes effect at canvas picture c (R192, R193): n of them. -/
def Stream.noteChange (x : Stream) (k n c : Nat) : Stream :=
  if n = 0 then x else (x.add64 (rateCnt k + 0x78) n).setBits (rateStat k + 28) 16 16 c

/-- ENC_PIC_START commits: the picture is the rendition's current one; changes that wait for no point take effect, and at a refresh point in the
intra form those that do; a re-pin empties the analysis store (R166). -/
def State.foldEncStart (s : State) (r : Run) (p : EncPic) : State :=
  let sid := dSid r.task.desc
  let k := dRend r.task.desc
  let x := s.stream sid
  let x := (x.takeSoon k p.c).noteChange k ((x.rendition k).soonDue p.c) p.c
  let y0 := x.rendition k
  let point := p.intra && p.cause ≠ some 5
  let y1 := if point then x.takeChange k (s.geo x k) p.full p.c else y0
  let p := if p.repin ≠ 0 ∨ (point ∧ y0.structural p.c) then { p with acc := tadd p.acc 5 1 } else p
  let x := x.setRend k (y1.takeStart p (s.hdrOf x p.input))
  let x := x.noteChange k (if y0.signalled && !y1.signalled then 1 else 0) p.c
  let e := if p.repin ≠ 0 ∧ k = 0 then { x.enc with ana := [] } else x.enc
  s.putStream sid { x with enc := e, state := 2 }

/-! ## Encode: rows -/

/-- The entries of a table that satisfy `mine` give way to those of another. -/
def swapRows (mine : Nat → Bool) (t u : Tbl Nat) : Tbl Nat :=
  (u.filter (fun e => mine e.1)).foldl (fun t e => tset 0 t e.1 e.2) (tclear mine t)

/-- ANA_ROW commits: the row's cells, its records and its place in the progress table; the store keeps D pictures (R145). What it counts counts in
rendition 0's records, MAP_ROWS_MISSING and ROWS_LATE among them (DESIGN CHOICE, log entry 132). -/
def State.foldAna (s : State) (r : Run) (e1 : EncSt) : State :=
  let d := r.task.desc
  let sid := dSid d
  let row := dRow d
  let x := s.stream sid
  match (x.rendition 0).cur with
  | none => s
  | some p =>
    let g := s.geo x 0
    let rows := g.cellRows row
    let mine (k : Nat) : Bool := k / 2 ^ 22 = p.c % 2 && rows.contains (k % 2 ^ 22 / 1024)
    let old (k : Nat) : Bool := decide (k / 512 + x.storeDepth ≤ p.c)
    let key := anaKey p.c row
    let e := { x.enc with ages := swapRows mine x.enc.ages e1.ages, cls := swapRows mine x.enc.cls e1.cls,
                          ana := tset [] (tclear old x.enc.ana) key (tget [] e1.ana key) }
    let late := if isLate (dDeadline d) s.time then 1 else 0
    let y := { x.rendition 0 with cur := some { p with acc := taddAll p.acc r.acc, rateAcc := tadd p.rateAcc 13 late } }
    (s.setStream sid ({ x with enc := e }.setRend 0 y)).setProg (rowKey sid 4 row) (atLeast1 g.blocks)

/-- Two tables, the second over the first. -/
def tmerge {α : Type} [DecidableEq α] (d : α) (t : Tbl α) : Tbl α → Tbl α
  | [] => t
  | (k, v) :: r => tmerge d (tset d t k v) r

/-- What a row's commit adds to its picture; REF_POISON_EVENTS counts one event a row, however many of its regions met a poisoned reference
(DESIGN CHOICE, log entry 132). A frame of AV1 that holds a graphic region allows screen content tools (R154). -/
def EncPic.addRow (p o : EncPic) (std row : Nat) (late wait poison : Bool) : EncPic :=
  { p with bits := tmerge 0 p.bits o.bits, bytes := tset [] p.bytes row (tget [] o.bytes row), regs := tmerge none p.regs o.regs,
           qSum := p.qSum + o.qSum, qN := p.qN + o.qN, active := p.active + o.active, floorRegs := p.floorRegs + o.floorRegs,
           firstFloor := min p.firstFloor o.firstFloor, rowsDone := tset false p.rowsDone row true,
           conceal := p.conceal || o.conceal, acc := tadd (taddAll p.acc o.acc) 14 (if poison then 1 else 0),
           rateAcc := tadd (tadd (taddAll p.rateAcc o.rateAcc) 13 (if late then 1 else 0)) 14 (if wait then 1 else 0), dst := o.dst,
           syn := { p.syn with screen := p.syn.screen || (std = 2 && o.regs.any (fun z => z.2.any (fun q => q.graphic))) } }

/-- ENC_ROW commits. -/
def State.foldEncRow (s : State) (r : Run) (o : EncPic) : State :=
  let d := r.task.desc
  let sid := dSid d
  let x := s.stream sid
  let y := x.rendition (dRend d)
  match y.cur with
  | none => s
  | some p =>
    let p := p.addRow o y.std (dRow d) (isLate (dDeadline d) s.time) (r.acc ≠ []) r.lost
    let s := s.setStream sid (x.setRend (dRend d) { y with cur := some p, poisoned := o.refs.map (fun f => f.c) ++ y.poisoned })
    if r.lost then s.refresh sid else s

/-! ## Slices (R91, R92, R175) -/

/-- The first row of the slice that holds row i. -/
def EncCtx.sliceFirst (k : EncCtx) (i : Nat) : Nat := i / atLeast1 k.y.sliceRows * atLeast1 k.y.sliceRows

/-- The bits of a row. -/
def EncPic.rowBits (p : EncPic) (j : Nat) : Nat := tget 0 p.bits j

/-- A filler unit of n bytes (R175): an FD_NUT NAL unit of HEVC or VVC or an OBU_PADDING of AV1, its payload, and a stop bit (PRESUMED, log entry 50). -/
def fillerUnit (std n : Nat) : List Nat :=
  let head := if std = 0 then [0x4C, 0x01] else if std = 1 then [0x00, 0xC9] else [0x78]
  if n = 0 then [] else (head ++ List.replicate (n - head.length - 1) 0xFF).take (n - 1) ++ [0x80]

/-- The filler bytes of the unit of rows a to z (R175). -/
def EncCtx.filler (k : EncCtx) (a z : Nat) : Nat :=
  k.unitFill (k.fullAt k.pic.rowBits a k.g.rows 0 k.pic.full) (sumOver k.pic.rowBits a (z + 1 - a)) z

/-- Bytes are written behind the slice in its Coop buffer, where it has the room. -/
def State.putBehind (s : State) (h : Option Nat) (len : Nat) (l : List Nat) : State :=
  match h with
  | some h => if len + l.length ≤ poolSize (h % 8) then s.putBytes (s.handleAddr h + len) l else s
  | none => s

/-- Assembled slices are handed on in slice order, each with its filler unit in the slice model (R92, R175)
(DEDUCED, log entry 40; DEDUCED, log entry 41). -/
def State.handSlices (s : State) (sid k : Nat) : Nat → State
  | 0 => s
  | fuel + 1 =>
    let x := s.stream sid
    let y := x.rendition k
    match y.cur, y.ahead.find? (fun l => l.index = y.nextSlice) with
    | some p, some l =>
      let c := s.encCtx x k p
      let a := l.index * atLeast1 y.sliceRows
      let n := if y.model = 1 then c.filler a (c.g.sliceEnd y.sliceRows l.index) else 0
      let fill := fillerUnit y.std n
      let p := { p with fillers := tset 0 p.fillers a (8 * n), out := p.out ++ l.data ++ fill }
      let y := { y with cur := some p, ahead := y.ahead.filter (fun q => q.index ≠ l.index),
                        ready := y.ready ++ [{ l with fill := fill }], nextSlice := y.nextSlice + 1 }
      (((s.putBehind l.handle l.len fill).setStream sid (x.setRend k y)).pulse (5 * l.lathe + 1)).handSlices sid k fuel
    | _, _ => s

/-- The bytes of the slice that ends with a row: its header and its rows in order. -/
def State.sliceBytes (s : State) (r : Run) (hdr : List Nat) : List Nat :=
  let d := r.task.desc
  let x := s.stream (dSid d)
  match (x.rendition (dRend d)).cur, r.enc with
  | some p, some o =>
    let a := (s.encCtx x (dRend d) p).sliceFirst (dRow d)
    hdr ++ ((upTo a (dRow d - a)).map (fun j => tget [] p.bytes j)).flatten ++ tget [] o.bytes (dRow d)
  | _, _ => hdr

/-- The slice lies in its Coop buffer, and waits for its turn. -/
def State.putSlice (s : State) (n : Nat) (r : Run) (hdr : List Nat) (pre : Nat) (handle : Option Nat) : State :=
  let d := r.task.desc
  let sid := dSid d
  let b := s.sliceBytes r hdr
  let s := match handle with
    | some h => s.putBytes (s.handleAddr h) b
    | none => s
  let x := s.stream sid
  let y := x.rendition (dRend d)
  let l : Slice := ⟨dRow d / atLeast1 y.sliceRows, (y.cur.map (fun p => p.c)).getD 0, n, handle, b.length, b, [], dPicLast d, pre⟩
  s.setStream sid (x.setRend (dRend d) { y with ahead := y.ahead ++ [l] })

/-- The first of the rows above a row that must have committed before it does (R91, R92): in HEVC and VVC rows commit in order, in AV1 those of one
tile row; the last row of a slice waits for every row of it. -/
def EncCtx.commitFrom (k : EncCtx) (i : Nat) (last : Bool) : Nat :=
  if k.y.std ≠ 2 then 0 else if last then k.sliceFirst i else i / atLeast1 k.tileH * atLeast1 k.tileH

/-- Whether an encode row may commit. -/
def State.rowCommits (s : State) (r : Run) : Bool :=
  let d := r.task.desc
  let x := s.stream (dSid d)
  match (x.rendition (dRend d)).cur with
  | some p =>
    let a := (s.encCtx x (dRend d) p).commitFrom (dRow d) (dSliceLast d)
    dOpcode d ≠ 0x32 || (upTo a (dRow d - a)).all (fun j => tget false p.rowsDone j)
  | none => true

/-! ## CRC-32 (R168) -/

/-- One bit of the CRC-32 of IEEE 802.3, least significant bit first. -/
def crc32Bit (c : Nat) : Nat := if c % 2 = 0 then c / 2 else Nat.xor (c / 2) 0xEDB88320

/-- One byte of the CRC-32. -/
def crc32Byte (c b : Nat) : Nat :=
  crc32Bit (crc32Bit (crc32Bit (crc32Bit (crc32Bit (crc32Bit (crc32Bit (crc32Bit (Nat.xor c (b % 256)))))))))

/-- The CRC-32 over bytes. -/
def crc32 (l : List Nat) : Nat := 2 ^ 32 - 1 - l.foldl crc32Byte (2 ^ 32 - 1)

/-- The 16-bit containers of a surface: planes Y, Cb, Cr, each in raster order, little-endian. -/
def State.containers (s : State) (u : Surf) : List Nat :=
  ((upTo 0 (planesOf u.format)).map (fun p =>
    ((rectPx 0 0 (planeW u p) (planeH u p)).map (fun q => leBytes ((s.sample u p q.1 q.2).getD 0) 2)).flatten)).flatten

/-! ## Encode: the picture's end (R168, R177, R191 to R193) -/

/-- α of a type before its observation: the INTRA one where the type has none of its own (R188). -/
def Stream.alphaBase (x : Stream) (k t : Nat) : Nat := if x.hist k t ∨ t = 0 ∨ ¬ x.hist k 0 then x.alpha k t else x.alpha k 0

/-- The model of a picture's type after it (R177): `cost` is its X, `mean` the mean quantiser of its non-static regions (DESIGN CHOICE, log entry 48). -/
def Stream.learn (x : Stream) (k : Nat) (p : EncPic) (cost mean : Nat) : Stream :=
  if p.kind = 1 ∨ cost = 0 then x
  else
    let t := p.type
    let base := rateBase k
    let obs : Int := ((p.active * qstep17 mean / 2 / cost : Nat) : Int)
    let a : Int := ((x.alphaBase k t : Nat) : Int)
    let g : Int := if x.obs k t < 2 then 2 else 8
    let a' := min (2 ^ 32 - 1) (a + (obs - a) / g).toNat
    let x := (x.setWord (base + 8 + 4 * t) a').setWord (base + 24 + 4 * t) (min cost (2 ^ 32 - 1))
    let x := if t < 3 then x.setBits (base + 40) (9 * t) 9 p.rq else x.setBits (base + 44) 0 9 p.rq
    (x.setBits (base + 44) (9 + t) 1 1).setBits (base + 44) (13 + 2 * t) 2 (min 2 (x.obs k t + 1))

/-- A signed number as a 32-bit word, held within ±2^31. -/
def word32of (v : Int) : Nat := (clipI (-(2 ^ 31)) (2 ^ 31 - 1) v % 2 ^ 32).toNat

/-- The encode status record (R168). -/
def Stream.encStatus (x : Stream) (k : Nat) (y : Rend) (p : EncPic) (streamCrc reconCrc now : Nat) : Stream :=
  let b := rendBase k
  let w0 := (if p.conceal then 0x0A else 0) + x.version % 256 * 2 ^ 8 + x.target % 256 * 2 ^ 16
    + (if x.target ≠ 0 ∨ y.change ≠ [] then 2 ^ 24 else 0) + (if x.enc.request.isSome then 2 ^ 25 else 0)
    + (if y.poisoned ≠ [] then 2 ^ 26 else 0)
  let ref := y.point.getD (0, 0)
  let x := (x.setWord b w0).setWord (b + 4) (p.c % 65536 + ref.1 % 65536 * 65536)
  let x := (x.setWord (b + 8) (ref.2 % 8 + activeRefs y y.n * 8)).setWord (b + 12) streamCrc
  (x.setWord (b + 16) reconCrc).setWord (b + 20) now

/-- The rate status record (R192); LAST_CHANGE_SEQ follows the changes. -/
def Stream.rateStatus (x : Stream) (k : Nat) (y : Rend) (p : EncPic) (mean bits fill : Nat) : Stream :=
  let b := rateStat k
  let w0 := y.mode % 4 + y.model % 2 * 4 + (if p.kind = 1 then 8 else 0) + (if 0 < p.floorRegs then 16 else 0)
    + (if y.signalled then 32 else 0) + p.type % 4 * 64 + mean % 512 * 256
  let x := ((x.setWord b w0).setWord (b + 4) (bits + fill)).setWord (b + 8) p.target
  let x := ((x.setWord (b + 12) p.full).setWord (b + 16) fill).setWord (b + 20) (x.word (rateBase k + 4))
  let x := x.setWord (b + 24) p.firstFloor
  if p.kind = 0 then x else x.setBits (b + 28) 0 16 p.c

/-- The counters of a picture (R169, R193). -/
def Stream.encCounters (x : Stream) (k : Nat) (p : EncPic) (bits fill : Nat) (above : Bool) : Stream :=
  let one (b : Bool) : Nat := if b then 1 else 0
  let cycle := p.roll.any (fun q => q.2 = 0)
  let enc := tadd (tadd (tadd (tadd p.acc 0 1) 1 (one p.cause.isSome)) 2 (one (p.cause = some 2))) 15 (one cycle)
  let rate := tadd (tadd (tadd (tadd p.rateAcc 0 bits) 1 fill) 2 (if p.type = 0 then bits else 0)) 3 (one (p.type = 0))
  let rate := tadd (tadd (tadd (tadd rate 4 p.qSum) 5 p.qN) 6 (one p.safe)) 10 (one (0 < p.floorRegs))
  let rate := tadd (tadd rate 11 (one (p.kind = 2 || (p.kind = 1 && !above)))) 12 (one (p.kind = 1 && above))
  (x.addAll (rendBase k + 0x20) enc).addAll (rateCnt k) rate

/-- Rendition k has ended picture c: once every rendition has, nothing of it is left (R183). -/
def EncSt.ended (e : EncSt) (c k : Nat) : EncSt :=
  let l := e.decided.map (fun z => if z.c = c then { z with rends := z.rends.filter (fun j => j ≠ k) } else z)
  let l := l.filter (fun z => z.rends ≠ [])
  { e with decided := l, overs := e.overs.filter (fun c => l.any (fun z => z.c = c)) }

/-- What the Shepherd sent of a picture is forgotten once no rendition codes it any more (R83, R99). -/
def Stream.forget (x : Stream) (seq : Nat) : Stream :=
  if x.enc.decided.any (fun z => z.c % 65536 = seq) then x else x.forgetPic seq

/-- The fullness after the last unit of a picture, fillers counted. -/
def EncCtx.after (k : EncCtx) : Nat :=
  let z := k.g.rows - 1
  let a := k.unitFirst z
  k.fullAt k.pic.rowBits a k.g.rows 0 k.pic.full - sumOver k.pic.rowBits a (z + 1 - a) - tget 0 k.pic.fillers a

/-- The picture as it is a reference to those that follow (R155). -/
def EncPic.asRef (p : EncPic) : RefPic := ⟨p.c, p.n, p.dst, p.roll⟩

/-- The records of a rendition after a picture (R168, R169, R177, R191 to R193). -/
def State.endRecords (s : State) (x : Stream) (k : Nat) (c : EncCtx) (mean : Nat) : Stream :=
  let y := c.y
  let p := c.pic
  let bits := sumOver p.rowBits 0 c.g.rows
  let fill := tsum (fun _ v => v) p.fillers
  let debt := x.debt k + ((bits + fill : Nat) : Int) - (arrives y.bitrate (x.rendPeriod k) : Nat)
  let x := x.setWord (rateBase k) c.after
  let x := if y.mode = 1 then x.setWord (rateBase k + 4) (word32of debt) else x
  let x := (x.learn k p c.picCost mean).setBits (rateBase k + 44) 21 1 (if p.kind = 1 then 1 else 0)
  let x := (x.encStatus k y p (crc32 p.out) (crc32 (s.containers (c.surfAt p.dst))) s.time).rateStatus k y p mean bits fill
  x.encCounters k p bits fill (x.enc.overs.contains p.c)

/-- ENC_PIC_END commits: filler in the picture model, FULLNESS and DEBT, the model, the records and the counters, and, with
rendition 0, the overrun judgement of R205. Where no region has a quantiser, their mean is a free value (DESIGN CHOICE, log entry 47). -/
def State.foldEncEnd (s : State) (n : Nat) (r : Run) : State :=
  let sid := dSid r.task.desc
  let k := dRend r.task.desc
  let x := s.stream sid
  let y := x.rendition k
  match y.cur with
  | none => s
  | some p0 =>
    let mean := if p0.qN = 0 then s.freeVal % 512 else p0.qSum / p0.qN
    let s := if p0.qN = 0 then s.freeNext else s
    let c0 := s.encCtx x k p0
    let nf := if y.model = 0 then c0.filler 0 (c0.g.rows - 1) else 0
    let fill := fillerUnit y.std nf
    let p := if y.model = 0 then { p0 with fillers := tset 0 p0.fillers 0 (8 * nf), out := p0.out ++ fill } else p0
    let above := x.enc.overs.contains p.c
    let x := s.endRecords x k (s.encCtx x k p) mean
    let l : Slice := ⟨y.nextSlice, p.c, n, none, 0, [], fill, true, 0⟩
    let y := { y with cur := none, n := y.n + 1, total := y.total + 1, refs := (p.asRef :: y.refs).take 16,
                      nextSlice := 0, ahead := [], ready := if 0 < nf then y.ready ++ [l] else y.ready }
    let x := ({ x.setRend k y with enc := x.enc.ended p.c k }).forget (p.c % 65536)
    let idle := (upTo 0 x.rends).all (fun j => (x.rendition j).cur.isNone)
    let x := { x with state := if idle ∧ x.state = 2 then 1 else x.state, lastEnd := s.time }
    if k ≠ 0 then (s.setStream sid x).boundary sid
    else
      let bad : Bool := if y.structure_ = 3 then decide (0 < tget 0 p.rateAcc 13) else p.kind == 1 && above
      let hist := (x.enc.overHist ++ [bad]).drop (x.enc.overHist.length - 15)
      let x := s.measure sid { x with enc := { x.enc with overHist := hist } }
      ((s.setStream sid x).judgeOverrun sid (4 ≤ (hist.filter (fun b => b)).length)).boundary sid

/-! ## The commit -/

/-- What the task does to its stream's records. -/
def State.fold (s : State) (n : Nat) (r : Run) : State :=
  let op := dOpcode r.task.desc
  match op, r.dec, r.enc, r.encSt with
  | 0x10, some ds, _, _ => s.foldSeq n r ds
  | 0x11, some ds, _, _ => s.foldDecStart n r ds
  | 0x16, some ds, _, _ => s.foldDecEnd r ds
  | 0x16, none, _, _ => s.foldDecSkip r
  | 0x30, _, some p, _ => s.foldEncStart r p
  | 0x31, _, _, some e => s.foldAna r e
  | 0x32, _, some o, _ => s.foldEncRow r o
  | 0x33, _, _, _ => s.foldEncEnd n r
  | _, _, _, _ =>
    if op = 0x12 ∨ op = 0x14 ∨ op = 0x15 then s.foldDecRow r true
    else if op = 0x13 then s.foldDecRow r false
    else s

/-- The damage of a run shows in LTH_DEC_ERR. -/
def State.showDamage (s : State) (n : Nat) (d : List Nat) : Option (Nat × Nat × Nat × Nat) → State
  | some (code, row, col, _) =>
    s.setFlds [(Reg.LTH_DEC_ERR0_CODE n, code), (Reg.LTH_DEC_ERR0_SID n, dSid d), (Reg.LTH_DEC_ERR0_ROW n, row),
      (Reg.LTH_DEC_ERR1_PIC_SEQ n, dPicSeq d), (Reg.LTH_DEC_ERR1_BLOCK n, col)]
  | none => s

/-- Whether a task writes reconstructed samples of a row (R93). -/
def writesRow (op : Nat) : Bool := op = 0x12 || op = 0x14 || op = 0x15 || op = 0x32

/-- The counters of a commit (R105); the spec bounds the stalls by the task's cycles only, and they are free values
(DESIGN CHOICE, log entry 32; DEDUCED, log entry 116; DEDUCED, log entry 118). -/
def State.countCommit (s : State) (n : Nat) (r : Run) (c : CommitIn) (out : Nat) : State :=
  let s := (s.bump (Cnt.CNT_TASKS n)).bump (Cnt.CNT_BLOCKS n) r.blocks
  let s := (s.bump (Cnt.CNT_STATIC n) r.statics).bump (Cnt.CYC_BUSY n) c.cycles
  let s := s.freeNext.bump (Cnt.CYC_DRAM_STALL n) (s.freeVal % (c.cycles + 1))
  let s := s.freeNext.bump (Cnt.CYC_WAIT_DEP n) (s.freeVal % (c.cycles + 1))
  if encOpcode (dOpcode r.task.desc) then s.bump (Cnt.BYTES_OUT n) out else s.bump (Cnt.BYTES_IN n) c.bytes

/-- The buffers of arrived data are freed (DEDUCED, log entry 46). -/
def State.dropArrived (s : State) : List Arrived → State
  | [] => s
  | .data (some h) _ :: r => (s.coopFreeHandle h).dropArrived r
  | _ :: r => s.dropArrived r

/-- The data of a decode stream's oldest picture is consumed or discarded: its buffers are freed (DEDUCED, log entry 46). -/
def State.takePicture (s : State) (sid : Nat) : State :=
  let z := splitMark (tget [] s.ring.arrived sid)
  { s with ring := { s.ring with arrived := tset [] s.ring.arrived sid z.2 } }.dropArrived z.1

/-- The task of Lathe n commits (R91 to R93, R98, R103): `handle` is the buffer of the slice that it ends. The coded words of an encode row leave
the queue (R111) (DEDUCED, log entry 133). A Lathe that is free goes to the first waiting picture that may use it (R202). -/
def State.commitRun (s : State) (n : Nat) (r : Run) (c : CommitIn) (handle : Option Nat) : State :=
  let t := r.task
  let d := t.desc
  let op := dOpcode d
  let out := match r.enc with
    | some o => if op = 0x32 then (tget [] o.bytes (dRow d)).length else 0
    | none => 0
  let slice := op = 0x32 && dSliceLast d
  let s := if slice then s.putSlice n r c.hdr c.pre handle else s
  let s := (s.fold n r).showDamage n d r.damage
  let s := if slice then s.handSlices (dSid d) (dRend d) 512 else s
  let s := if op = 0x16 then s.takePicture (dSid d) else s
  let res := resultWords r.status r.reruns (dTag d) c.cycles (if encOpcode op then out else c.bytes) r.statics r.concealed false
  let q := (s.lth n).bsq
  let s := s.setLth n { s.lth n with lastRes := res, run := none, bsq := if op = 0x32 then { q with words := [] } else q }
  let s := s.countCommit n r c out
  let s := if r.status = 11 then s.raise (128 + n) (Reg.LTH_FAULT_VERSION n) else s
  let s := s.traceRec n 3 d (s.entryPc n d) r.steps
  let s := if r.timedOut then s.bump Cnt.FLT_SUPERSEDED else s
  let s := if (s.lth n).ladderSince.isNone ∧ s.fld (Reg.FLT_LT_LADDER_RUNG n) < 3 then s.setFld (Reg.FLT_LT_LADDER_RUNG n) 0 else s
  let s := (s.release t.entry).pulse (5 * n)
  let s := if writesRow op then s.pulse (5 * n + 2) else s
  let s := if writesRow op ∧ dPicLast d then s.pulse (5 * n + 3) else s
  s.serveReady n

/-- The commit of a run that is done: a row that ends a slice asks the Coop for the slice's buffer first, and waits for it in
STATE COMMITTING (R91, R318, R320) (DEDUCED, log entry 40). -/
def State.tryCommit (s : State) (n : Nat) (r : Run) (c : CommitIn) : State :=
  let d := r.task.desc
  if dOpcode d = 0x32 ∧ dSliceLast d then
    match s.coopRequest (.slice n) (dSid d) (s.sliceBytes r c.hdr).length with
    | (s, .granted h) => s.commitRun n r c (some h)
    | (s, .failed _) => s.commitRun n r c none
    | (s, .waits) => (s.setRun n { r with commit := some c }).setLState r.task.entry 5
  else s.commitRun n r c none

/-- Whether a WAIT_EVENT task's pulse has come (R95). -/
def State.eventCame (s : State) (r : Run) : Bool := dOpcode r.task.desc = 1 && !r.done && r.pos < s.pulsesOf (dLag r.task.desc)

/-- A WAIT_EVENT task whose pulse has come ends. -/
def State.endWait (s : State) (n : Nat) : State :=
  match (s.lth n).run with
  | some r => if s.eventCame r ∧ ¬ r.exhausted then s.ended n r else s
  | none => s

/-- TASK_COMMIT (R91, R92, R95, R98, R272): the routine has ended, or the pulse that it waits for has come, and the task commits once; a coded row
after those that must commit before it. -/
def execTaskCommit (n : Nat) (c : CommitIn) (now : Nat) (s : State) : Host.Outcome State Fault Refusal :=
  let s := (s.at now).endWait n
  match (s.lth n).run with
  | some r => if r.done ∧ ¬ r.exhausted ∧ r.commit.isNone ∧ s.rowCommits r then .next (s.tryCommit n r c) else .next s
  | none => .next s

/-- A run that waits for the pulse of source x (R95). -/
def Run.awaits (r : Run) (x : Nat) : Bool := dOpcode r.task.desc = 1 && !r.done && dLag r.task.desc = x

/-- The tasks that wait for a source's pulse commit, Lathe by Lathe; the cycles that a task waited are a free value. -/
def State.eventRuns (s : State) (x : Nat) : List Nat → State
  | [] => s
  | n :: rest =>
    match (s.lth n).run with
    | some r =>
      if r.awaits x then
        let s := s.ended n r
        (s.freeNext.commitRun n ((s.lth n).run.getD r) ⟨s.freeVal, 0, [], 0⟩ none).eventRuns x rest
      else s.eventRuns x rest
    | none => s.eventRuns x rest

/-- WAIT_EVENT_PULSE (R95, R395): the pulse enters the matrix, and the WAIT_EVENT tasks that name its source commit. -/
def execWaitEventPulse (src now : Nat) (s : State) : Host.Outcome State Fault Refusal :=
  .next (((s.at now).pulse src).eventRuns src s.lathesAll)

end Sys2Proof.Machine
end

