-- ==== Sys2Proof/Machine/EncTiming.lean ====
section
/-!
DEFINITION. When the pictures of an encode stream are decided (R166, R183 to R186, R190, R214): the waits of a re-pin and of
a rate change, and NORMAL, REPEAT and SUBSTITUTE pictures.
-/
namespace Sys2Proof.Machine

/-! ## The waits of R166 and R190 -/

/-- REPIN_WAIT_EXPIRY (R166): the re-pin or change has waited REPIN_WAIT; the encoder places a point for it at the next picture
that R161 allows. -/
def execRepinWaitExpiry (sid now : Nat) (s : State) : Host.Outcome State Fault Refusal :=
  let s := s.at now
  let x := s.stream sid
  match x.enc.repinAt with
  | some t =>
    if x.repinWait * 1000 ≤ s.since t ∧ ¬ x.enc.repinDue then
      .next (s.setStream sid { x with enc := { x.enc with repinDue := true } })
    else .next s
  | none => .next s

/-- RATE_CHANGE_WAIT_EXPIRY (R190): a signalled change has waited REPIN_WAIT, and raises a refresh request once. -/
def execRateChangeWaitExpiry (sid r now : Nat) (s : State) : Host.Outcome State Fault Refusal :=
  let s := s.at now
  let x := s.stream sid
  let y := x.rendition r
  match y.changeAt with
  | some t =>
    if x.repinWait * 1000 ≤ s.since t ∧ y.signalled then
      .next ((s.setStream sid (x.setRend r { y with changeAt := none })).refresh sid)
    else .next s
  | none => .next s

/-! ## Shedding (R214) -/

/-- Whether a level makes canvas picture c of an encode stream a REPEAT: held, or one of the two that is not coded. Picture 0
never is. -/
def encShed (cls level c : Nat) : Bool :=
  c ≠ 0 && (encHeld cls level || (c % 2 = 1 && ((cls = 3 && level = 1) || (cls = 2 && (level = 3 || level = 4)))))

/-! ## What the Inlay has signalled (R183, R186, R249) -/

/-- Condition (b) of R183: the lines of row 0 of rendition 0 of picture c are composed. -/
def State.rowZeroDone (s : State) (x : Stream) (c : Nat) : Bool := s.rowComposed x 0 c 0

/-- Whether canvas picture c has reached its decision limit: the ready time of row 0 of rendition 0 plus LATE_SLACK (R182). -/
def State.limitReached (s : State) (x : Stream) (c : Nat) : Bool :=
  let v := s.cv x.canvas
  v.startAt != 0
    && v.timeOf c + (s.geo x 0).ready x.period 0 * 1000 / 27 + (x.rendition 0).lateSlack * 1000 ≤ s.ptpNs

/-- Condition (a) of R183: every rendition that coded the previous canvas picture has ended it. -/
def EncSt.previousEnded (e : EncSt) : Bool := e.decided.all (fun z => z.c + 1 ≠ e.c)

/-- Whether the stream is open for encoding. -/
def Stream.encoding (x : Stream) : Bool := x.dir = 1 && x.state ≠ 0 && x.closeBy.isNone

/-- The Shepherd decides the next canvas picture of stream sid; what the decision changes of its header reaches DRAM (R197). -/
def State.decidePic (s : State) (sid kind : Nat) : State :=
  let x := s.stream sid
  s.putStream sid (x.decideNext (s.cv x.canvas) kind (s.levelFor x))

/-- PIC_DISPATCH_NORMAL (R183): both conditions hold, and the Shepherd does not let the picture pass. -/
def execPicDispatchNormal (sid now : Nat) (s : State) : Host.Outcome State Fault Refusal :=
  let s := s.at now
  let x := s.stream sid
  if x.encoding ∧ (x.rendition 0).structure_ ≠ 3 ∧ s.inService ∧ x.enc.previousEnded ∧ s.rowZeroDone x x.enc.c
      ∧ ¬ encShed x.cls (s.levelFor x) x.enc.c then
    .next (s.decidePic sid 0)
  else .next s

/-- The next picture of stream sid becomes a REPEAT: by overrun where the picture before has not ended, and counted where the Shepherd lets
it pass (R183, R198). -/
def State.decideRepeat (s : State) (sid : Nat) (shed : Bool) : State :=
  let x := s.stream sid
  let t := s.decidePic sid 1
  let y := t.stream sid
  let y := if x.enc.previousEnded then y else { y with enc := { y.enc with overs := y.enc.overs ++ [x.enc.c] } }
  let y := if shed then { y with picsShed := satAdd (2 ^ 32 - 1) y.picsShed 1 } else y
  let t := t.setStream sid y
  if shed then t.bump Cnt.SHP_PICS_SHED else t

/-- The pictures of the next group that have reached their limit uncomposed will be SUBSTITUTE pictures, whenever the group is dispatched (R186). -/
def State.noteMissed (s : State) (sid : Nat) : State :=
  let x := s.stream sid
  let v := s.cv x.canvas
  let l := (groupOrder x.enc.c).filter (fun c => c ≠ 0 && !v.composed c && s.limitReached x c && !x.enc.missed.contains c)
  s.setStream sid { x with enc := { x.enc with missed := x.enc.missed ++ l } }

/-- DECISION_LIMIT (R183, R185, R186, R214): the decision limit of the next canvas picture is reached. It is a REPEAT where a
condition is unmet or the Shepherd lets it pass; picture 0 never is. -/
def execDecisionLimit (sid now : Nat) (s : State) : Host.Outcome State Fault Refusal :=
  let s := s.at now
  let x := s.stream sid
  let c := x.enc.c
  let shed := encShed x.cls (s.levelFor x) c
  if ¬ x.encoding ∨ ¬ s.inService then .next s
  else if (x.rendition 0).structure_ = 3 then .next (s.noteMissed sid)
  else if ¬ s.limitReached x c then .next s
  else if x.enc.previousEnded ∧ s.rowZeroDone x c ∧ ¬ shed then .next (s.decidePic sid 0)
  else if c = 0 then .next s
  else .next (s.decideRepeat sid shed)

/-! ## REORDER_8 (R155, R186) -/

/-- GROUP_DISPATCH (R186, R214): every picture of the group is composed or has reached its limit, and the group before has
ended. A level that holds the class dispatches nothing, and its release asks for a refresh point. -/
def execGroupDispatch (sid now : Nat) (s : State) : Host.Outcome State Fault Refusal :=
  let s := s.at now
  let x := s.stream sid
  let v := s.cv x.canvas
  let level := s.levelFor x
  let c := x.enc.c
  if ¬ x.encoding ∨ (x.rendition 0).structure_ ≠ 3 ∨ ¬ s.inService ∨ x.enc.decided ≠ [] ∨ (c = 0 ∧ ¬ v.composed 0)
      ∨ (groupOrder c).any (fun k => !v.composed k && !s.limitReached x k) then .next s
  else if encHeld x.cls level then .next (s.putStream sid { x with shed := level })
  else
    let x := if encHeld x.cls x.shed then x.askRefresh else x
    .next (s.putStream sid (x.decideGroup v v.composed level))

end Sys2Proof.Machine
end

