-- ==== Sys2Proof/Machine/Admit.lean ====
section
/-!
DEFINITION. Stream entries (R446, R447): their parameter items, the checks of an open (R62 to R65, R70, R141, R157, R158,
R171), the equivalent rate (R203), the open of a stream and the changes of an open one (R166, R167, R189, R190).
-/
namespace Sys2Proof.Machine

/-! ## Items -/

/-- Whether every value of a list lies in a range. -/
def inRange (lo hi : Nat) (l : List Nat) : Bool := l.all (fun v => lo ≤ v && v ≤ hi)

/-- Whether every value, read as two's complement, lies in a range. -/
def inRangeI (lo hi : Int) (l : List Nat) : Bool := l.all (fun v => lo ≤ signed32 v && signed32 v ≤ hi)

/-- Whether the values of a row of group 0x01 have their number and lie in their table (R197). -/
def generalOk (row : Nat) (v : List Nat) : Bool :=
  v.length = 1 && row ≤ 8 &&
    inRange (nth 0 [0, 0, 0, 1, 1, 0, 1, 0, 0] row) (nth 0 [1, 3, 3, 8, 4, 63, 4294967295, 255, 255] row) v

/-- The same of group 0x02 (R84, R141); PROFILE, LEVEL, DEPTH and CHROMA are left to the checks of R62. BLOCK may have the number of tile
columns as a second value (DEDUCED, log entry 52). -/
def rendOk (row : Nat) (v : List Nat) : Bool :=
  match row with
  | 0 => v.length = 3 && inRange 0 3 (v.take 1)
  | 4 => v.length = 2 && inRange 0 3 (v.drop 1)
  | 5 => (v.length = 1 || (v.length = 2 && (v.drop 1).all (fun n => n = 1 || n = 2 || n = 4))) && inRange 0 1 (v.take 1)
  | 6 => v.length = 1 && inRange 1 4294967295 v
  | 8 => v.length = 1 && inRange 1 4 v
  | _ => v.length = 1 && row ≤ 9 && inRange 0 (nth 0 [0, 5, 2, 2, 0, 1, 0, 3, 0, 1] row) v

/-- The same of group 0x03 (R170). -/
def rateOk3 (row : Nat) (v : List Nat) : Bool :=
  match row with
  | 1 => v.length = 1 && inRange 16000 800000000 v
  | 2 => v.length = 1 && inRange 0 800000000 v
  | 7 => v.length = 2 && inRange 0 63 v
  | 9 => v.length = 1 && inRange 1 60 v
  | _ => v.length = 1 && row ≤ 10 &&
      inRange 0 (nth 0 [2, 0, 0, 4294967295, 4294967295, 1, 63, 0, 1, 0, 1000000] row) v

/-- The same of group 0x04 (R60, R152, R159, R161, R166): the HDR source is NONE, LAYER with its number, or STATIC with ten
values of MDCV and two of CLL (DESIGN CHOICE, log entry 54). -/
def optionOk (row : Nat) (v : List Nat) : Bool :=
  match row with
  | 2 => v.length = 1 && inRangeI (-12) 0 v
  | 3 => v.length = 1 && inRangeI (-6) 0 v
  | 6 => v.length = 1 && inRange 4 120 v
  | 9 => (v.length = 1 && inRange 0 0 v) || (v.length = 2 && inRange 1 1 (v.take 1) && inRange 0 7 (v.drop 1))
      || (v.length = 13 && inRange 2 2 (v.take 1))
  | _ => v.length = 1 && row ≤ 8 && inRange 0 (nth 0 [1, 3, 0, 0, 65532, 65535, 0, 60000, 255] row) v

/-- The same of group 0x05 (R68, R123, R129, R134 to R136) (DEDUCED, log entry 52). -/
def decodeOk (row : Nat) (v : List Nat) : Bool :=
  match row with
  | 1 => v.length = 3 && inRange 0 16383 v
  | 6 => v.length = 4 && inRange 0 3 (v.drop 3)
  | 7 => v.length = 1 && inRange 1 8 v
  | _ => v.length = 1 && row ≤ 8 && inRange 0 (nth 0 [4, 0, 1, 1, 1, 1, 0, 0, 3] row) v

/-- The same of group 0x08 (R358): the destination is its IPv4 address, the low and high words of its MAC, its port, VLAN and
DSCP (DEDUCED, log entry 53). -/
def ringOk (row : Nat) (v : List Nat) : Bool :=
  match row with
  | 0 => v.length = 6 && inRange 0 65535 ((v.drop 2).take 2) && inRange 0 4095 ((v.drop 4).take 1) && inRange 0 63 (v.drop 5)
  | 1 => v.length = 2 && inRange 96 127 (v.drop 1)
  | 2 => v.length = 1 && inRange 256 1460 v
  | 3 => v.length = 1 && inRange 0 255 v
  | _ => false

/-- Whether an item is known, has its number of values, and each lies in its range (R447). -/
def itemOk (i : Item) : Bool :=
  if i.group = 1 then i.index = 0 && generalOk i.row i.values
  else if i.group = 2 then i.index < 4 && rendOk i.row i.values
  else if i.group = 3 then i.index < 4 && rateOk3 i.row i.values
  else if i.group = 4 then i.index = 0 && optionOk i.row i.values
  else if i.group = 5 then i.index = 0 && decodeOk i.row i.values
  else if i.group = 8 then i.index < 4 && ringOk i.row i.values
  else false

/-- Whether a group's items belong to a rendition. -/
def perRend (g : Nat) : Bool := g = 2 || g = 3 || g = 8

/-- The items that satisfy `p`, as a table. -/
def itemTable (p : Item → Bool) : List Item → Tbl Nat
  | [] => []
  | i :: r => if p i then putVals (itemTable p r) i.group i.row 0 i.values else itemTable p r

/-- The stream's own items. -/
def ownItems (items : List Item) : Tbl Nat := itemTable (fun i => !perRend i.group) items

/-- The items of rendition r. -/
def rendItems (r : Nat) (items : List Item) : Tbl Nat := itemTable (fun i => perRend i.group && i.index = r) items

/-- Whether rendition r has every parameter that has no default (R141, R170, R358). -/
def rendWhole (t : Tbl Nat) : Bool :=
  [0, 1, 2, 3, 4, 5, 6, 7, 9].all (fun row => hasParam t 2 row 0)
    && (hasParam t 3 1 0 || (param t 3 0 0 0 = 2 && hasParam t 3 2 0))
    && (!(upTo 0 4).any (fun row => hasParam t 8 row 0) || [0, 1, 3].all (fun row => hasParam t 8 row 0))

/-- The stream that an entry describes, before any check of its values: none where an item is unknown or out of range, or a
parameter without a default is absent (DEDUCED, log entry 52). -/
def draft (items : List Item) : Option Stream :=
  let g := ownItems items
  let dir := param g 1 0 0 0
  let rends := if dir = 1 then param g 1 4 0 0 else 1
  let whole :=
    if dir = 1 then
      [0, 1, 2, 3, 4, 5, 6].all (fun row => hasParam g 1 row 0) && hasParam g 4 8 0
        && (upTo 0 rends).all (fun r => rendWhole (rendItems r items))
        && items.all (fun i => !perRend i.group || i.index < rends)
    else
      [0, 1, 6].all (fun row => hasParam g 1 row 0) && (hasParam g 1 2 0 || hasParam g 5 8 0)
        && (hasParam g 1 3 0 || hasParam g 5 7 0) && hasParam g 5 6 0
  if items.all itemOk && whole then
    some { stream0 with
      dir := dir
      std := if dir = 1 then param (rendItems 0 items) 2 0 0 0 else param g 1 1 0 0
      cls := param g 1 2 0 (param g 5 8 0 0)
      wMax := param g 1 3 0 (param g 5 7 0 1)
      rends := rends
      state := 1
      version := if dir = 1 then param g 4 8 0 0 else 0
      canvas := if dir = 1 then param g 1 5 0 0 else 0
      period := param g 1 6 0 0
      staticFloor := if dir = 1 then param g 1 7 0 0 else 0
      skipFrac := if dir = 1 then 0 else param g 1 8 0 0
      params := g
      rend := if dir = 1 then (upTo 0 rends).foldl (fun t r => tset rend0 t r { rend0 with params := fixMax (rendItems r items) }) []
              else [] }
  else none

/-! ## Admission (R62 to R65, R70) -/

/-- Whether an encoded profile allows a chroma format and depth (R40, R43, R46): a HEVC profile allows every format and depth up
to its own. -/
def profileAllows (std p chroma d : Nat) : Bool :=
  if std = 0 then
    (chroma ≤ (if p ≤ 3 then 0 else if p = 4 then 1 else 2)) && d ≤ (if p = 0 then 8 else if p = 3 ∨ p = 8 then 12 else 10)
  else if std = 1 then (p = 2 || chroma = 0) && d ≤ 10
  else if p = 0 then chroma = 0 && d ≤ 10
  else if p = 1 then chroma = 2 && d ≤ 10
  else chroma = 1 || d = 12

/-- The reason of R62 for which an open of a decode stream is refused, or 0 (R63). -/
def State.decodeReason (s : State) (x : Stream) : Nat :=
  if ¬ sizeOk x.maxW x.maxH then 4
  else if ¬ rateOk x.maxW x.maxH x.period then 5
  else if ¬ depthDec x.std x.maxChroma x.maxDepth then 6
  else if overCapacity s.part (x.maxW * x.maxH) x.period (workRate 0 x.std 0) (factor16 x.maxDepth x.maxChroma) then 0x0A
  else 0

/-- The first check of R171: the bounds of QP. -/
def Rend.qpHolds (y : Rend) : Bool := y.qpMin ≤ y.qpMax && (y.mode != 2 || (y.qpMin ≤ y.targetQp && y.targetQp ≤ y.qpMax))

/-- Whether some rendition of a stream fails a check. -/
def Stream.someBad (x : Stream) (p : Nat → Bool) : Bool := (upTo 0 x.rends).any (fun r => !p r)

/-- The reason STANDARD_ABSENT or PROFILE of R62, which name what the entry asks for, or 0 (DEDUCED, log entry 55). -/
def State.kindReason (s : State) (x : Stream) : Nat :=
  if x.someBad (fun r => canEncode s.part (x.rendition r).std) then 1
  else if x.someBad (fun r => profileEnc (x.rendition r).std (x.rendition r).profile) then 2
  else 0

/-- Any other reason of R62 for which an open of an encode stream is refused, or 0: in the order of the codes (DEDUCED, log entry 55). -/
def State.encodeReason (s : State) (x : Stream) : Nat :=
  let bad (p : Nat → Bool) : Bool := x.someBad p
  if bad (s.levelHolds x) then 3
  else if bad (fun r => sizeOk (s.rendW x r) (s.rendH x r)) then 4
  else if bad (fun r => rateOk (s.rendW x r) (s.rendH x r) (x.rendPeriod r)) then 5
  else if bad (fun r => let y := x.rendition r
      depthEnc y.std y.chroma y.depth && profileAllows y.std y.profile y.chroma y.depth) then 6
  else if bad (fun r => let y := x.rendition r
      !overCapacity s.part (s.rendW x r * s.rendH x r) (x.rendPeriod r) (workRate 1 y.std y.effort)
        (factor16 y.depth y.chroma)) then 0x0A
  else 0

/-! ## Constraints of an encode stream (R141, R157, R158, R161, R170, R171) -/

/-- The rows of the unit that begins at row j, and its floor at a refresh point in the intra form (R180). -/
def EncCtx.unitFloor (k : EncCtx) (j : Nat) : Nat := sumOver k.floor (k.unitFirst j) (k.unitLast j + 1 - k.unitFirst j)

/-- The largest unit floor of a rendition, refresh-point overhead in the first unit. -/
def State.largestFloor (s : State) (x : Stream) (r : Nat) : Nat :=
  let k := s.encCtx x r { encPic0 with intra := true, cause := some 0 }
  (upTo 0 k.g.rows).foldl (fun m j => max m (k.unitFloor j)) 0

/-- The checks of R170 and R171 on a rendition's rate parameters that refuse with BAD_PARAM, after that of QP; only VBR holds BITRATE to
MAX_BITRATE. -/
def State.rateHolds (s : State) (x : Stream) (r : Nat) : Bool :=
  let y := x.rendition r
  let g := s.geo x r
  let b := x.bufferSize r g
  let fl := s.largestFloor x r
  let first := y.ra * x.initialDelay r g / 1000000
  (y.mode != 1 || y.bitrate ≤ y.maxBitrate)
    && fl ≤ arrives y.ra (x.unitTicks r g) && fl ≤ b && fl ≤ first && first ≤ b

/-- Whether a rendition satisfies the constraints of R84, R90, R141, R157 and R158; AV1's tile columns are not asked for. -/
def State.rendHolds (s : State) (x : Stream) (r : Nat) : Bool :=
  let y := x.rendition r
  let z := x.rendition 0
  y.scale.1 * z.scale.2 ≤ z.scale.1 * y.scale.2
    && (r != 0 || y.rateDiv = 1) && (y.block = 64 || y.std = 1 || y.std = 2) && y.sliceRows ≤ s.rendRows x r
    && (if y.std = 2 then y.sliceRows % atLeast1 (s.tileH x r) = 0 && y.tileCols = 1 else (s.geo x r).tilesOk)
    && y.structure_ = z.structure_ && y.rolling = z.rolling && (y.structure_ = 1 || !hasParam y.params 2 8 0)
    && (y.structure_ != 3 || (2 ≤ x.cls && y.rateDiv = 1)) && !(y.std = 2 && y.rolling)

/-- The constraints of an entry that refuse an open with BAD_PARAM. -/
def State.streamHolds (s : State) (x : Stream) : Bool :=
  x.wMax ≤ partSpan s.part &&
    (x.dir = 0 ||
      (x.irapPeriod % atLeast1 x.bigK = 0 && x.version != 0
        && (upTo 0 x.rends).all (fun r => s.rendHolds x r && s.rateHolds x r)))

/-- How an open ends without effect: BAD_PARAM with PAYLOAD (R447) (DESIGN CHOICE, log entry 54). -/
def payloadFail : HFin := ⟨2, 2, 9, 0, 0⟩
/-- BAD_PARAM without a detail (DESIGN CHOICE, log entry 54). -/
def badParam : HFin := ⟨2, 0, 0, 0, 0⟩
/-- OK. -/
def okFin : HFin := ⟨0, 0, 0, 0, 0⟩

/-- A refusal with a reason of R62 (R63). -/
def admission (reason : Nat) : HFin := ⟨if reason = 1 then 1 else 2, 1, reason, 0, 0⟩

/-! ## Opening -/

/-- How the checks of an encode stream end, at its open or at a change of it: none where they all pass. STANDARD_ABSENT and PROFILE come first, then
R171's check of QP, the other reasons of R62 in the order of their codes, LEVEL the first of them as in R171, and last every other constraint
(R62, R63, R171) (DEDUCED, log entry 55). -/
def State.encodeFin (s : State) (x : Stream) : Option HFin :=
  if s.kindReason x ≠ 0 then some (admission (s.kindReason x))
  else if x.someBad (fun r => (x.rendition r).qpHolds) then some badParam
  else if s.encodeReason x ≠ 0 then some (admission (s.encodeReason x))
  else if s.streamHolds x then none else some badParam

/-- The same of any stream. -/
def State.openFin (s : State) (x : Stream) : Option HFin :=
  if x.dir = 1 then s.encodeFin x
  else if s.decodeReason x ≠ 0 then some (admission (s.decodeReason x))
  else if s.streamHolds x then none else some badParam

/-- An accepted stream opens (R63, R162, R188, R193, R359): its records return to 0, each rendition's fullness is that of the
first removal, and its RTP sequence starts at the low 16 bits of the PTP time in microseconds. -/
def State.openRend (s : State) (x : Stream) (r : Nat) : Stream :=
  let y := x.rendition r
  let first := y.ra * x.initialDelay r (s.geo x r) / 1000000
  (x.setRend r { y with ssrc := param y.params 8 1 0 0, rtpSeq := s.ptpNs / 1000 % 65536 }).setWord (rateBase r) first

/-- Every rendition opens. -/
def State.openRends (s : State) (x : Stream) : List Nat → Stream
  | [] => x
  | r :: rest => s.openRends (s.openRend x r) rest

/-- An encode stream's canvas counts its pictures from the open (R143, R229). -/
def State.canvasFrom0 (s : State) (x : Stream) : State :=
  if x.dir = 1 then s.setCv x.canvas { s.cv x.canvas with c := 0 } else s

/-- STREAM_OPEN's entry acts (R63): the outcome, and the state where it is accepted. Of several refusals the first of these is reported: an entry
that describes no stream (PAYLOAD), an SID that is open (TARGET), a reason of R62, another constraint (DESIGN CHOICE, log entry 54; the order among the
reasons of R62 is DEDUCED, log entry 55). -/
def State.openStream (s : State) (sid : Nat) (items : List Item) : State × HFin :=
  match draft items with
  | none => (s, payloadFail)
  | some x =>
    if s.isOpen sid then (s, ⟨2, 3, 3, 0, 0⟩)
    else
      match s.openFin x with
      | some f => (s, f)
      | none =>
        let x := { x with equivKpx := s.equiv x, acct := s.cnt (Cnt.DMC_ACCT sid) }
        let x := s.openRends x (if x.dir = 1 then upTo 0 x.rends else [])
        ((s.canvasFrom0 x).putStream sid x, okFin)

/-! ## Changes of an open stream -/

/-- Whether an item of group 0x03 is signalled in the stream (R189): BITRATE in CBR, MAX_BITRATE, BUFFER_SIZE, MODE, MODEL. -/
def signalledRow (mode row : Nat) : Bool := row = 0 || row = 2 || row = 3 || row = 5 || (row = 1 && mode = 0)

/-- Whether an item may change while the stream is open: the version, the number of renditions and its options (R166, R167); EFFORT, STRUCTURE, NREF and REFRESH and
the rate parameters of a rendition but INITIAL_DELAY; the decode options but the allocation (R68); every item of a rendition that is added. -/
def changeItem (x : Stream) (rends : Nat) (i : Item) : Bool :=
  itemOk i &&
    (if i.group = 1 then x.dir = 1 && i.row = 4
     else if i.group = 4 then x.dir = 1
     else if i.group = 5 then x.dir = 0 && i.row ≤ 5
     else x.dir = 1 && i.index < rends &&
       (x.rends ≤ i.index || (i.group = 2 && (i.row = 3 || i.row = 7 || i.row = 8 || i.row = 9))
         || (i.group = 3 && i.row != 4) || (i.group = 8 && i.row != 3)))

/-- The parameters that rendition r will have once every change accepted has taken effect, with a further table of them. -/
def Rend.future (y : Rend) (t : Tbl Nat) : Tbl Nat :=
  fixMax (mergeItems (mergeItems (y.soon.foldl (fun a e => mergeItems a e.2) y.params) y.change) t)

/-- The stream as it will be once the changes of an entry have taken effect: the checks are made on it. -/
def Stream.futureWith (x : Stream) (rends : Nat) (items : List Item) : Stream :=
  { x with rends := rends, params := mergeItems x.params (ownItems items),
           rend := (upTo 0 rends).foldl (fun t r =>
             tset rend0 t r { rend0 with params := (x.rendition r).future (rendItems r items) }) [] }

/-- The items of a table that wait for a refresh point: of group 0x02, and the signalled ones of group 0x03 (R166, R190). -/
def waits (mode : Nat) (e : Nat × Nat) : Bool :=
  e.1 / 65536 = 2 || (e.1 / 65536 = 3 && signalledRow mode (e.1 / 256 % 256))

/-- Rendition r takes the changes of an entry (R166, R189, R190): pending ones merge. -/
def Stream.changeRend (x : Stream) (time : Nat) (items : List Item) (r : Nat) : Stream :=
  let t := rendItems r items
  let y := x.rendition r
  if t = [] then x
  else
    let late := t.filter (waits y.mode)
    let now := t.filter (fun e => !waits y.mode e)
    let rate := late.any (fun e => e.1 / 65536 = 3)
    let y := if late = [] then y
      else { y with change := mergeItems y.change late, changeFrom := x.enc.c,
                    changeAt := if rate ∧ y.changeAt.isNone then some time else y.changeAt }
    let y := if now = [] then y else { y with soon := y.soon ++ [(x.enc.c, now)] }
    let structural := late.any (fun e => e.1 / 65536 = 2)
    let x := x.setRend r y
    if structural ∧ x.enc.repinAt.isNone then { x with enc := { x.enc with repinAt := some time } } else x

/-- Every rendition that stays takes its changes. -/
def Stream.changeRends (x : Stream) (time : Nat) (items : List Item) : List Nat → Stream
  | [] => x
  | r :: rest => (x.changeRend time items r).changeRends time items rest

/-- The 64 bytes of a rendition's rate state become 0. -/
def Stream.clearRate (x : Stream) (r : Nat) : Stream := (upTo 0 16).foldl (fun (y : Stream) k => y.setWord (rateBase r + 4 * k) 0) x

/-- The renditions added start with their own parameters, and those removed are gone (R167). The rate state of one that is added is as at an open
(R188) (DESIGN CHOICE, log entry 134). -/
def State.addRends (s : State) (x : Stream) (was : Nat) (items : List Item) : List Nat → Stream
  | [] => x
  | r :: rest =>
    let x := if r < was then x
      else s.openRend ((x.setRend r { rend0 with params := fixMax (rendItems r items) }).clearRate r) r
    s.addRends x was items rest

/-- Whether rendition r of stream sid has started decided picture c, or its ENC_PIC_START is queued or on its way. -/
def State.startedAt (s : State) (sid : Nat) (x : Stream) (r c : Nat) : Bool :=
  (x.rendition r).cur.any (fun p => p.c = c)
    || s.allTasks.any (fun d => dOpcode d = 0x30 && dSid d = sid && dRend d = r && dPicSeq d = c % 65536)

/-- The pictures that renditions removed have not started are no longer theirs (R167): a picture that no rendition codes any more is none. -/
def State.dropRends (s : State) (sid : Nat) (x : Stream) (rends : Nat) : Stream :=
  let l := x.enc.decided.map (fun z => { z with rends := z.rends.filter (fun r => r < rends || s.startedAt sid x r z.c) })
  { x with enc := { x.enc with decided := l.filter (fun z => z.rends ≠ []) } }

/-- Whether a rendition at or above the stream's number still has pictures or slices of its own. -/
def Stream.lingers (x : Stream) (r : Nat) : Bool :=
  let y := x.rendition r
  y.cur.isSome || !y.ready.isEmpty || !y.ahead.isEmpty || x.enc.decided.any (fun z => z.rends.contains r)

/-- Whether some present Lathe can load a decision version (R166): its control store or a master copy carries it. -/
def State.loadable (s : State) (v : Nat) : Bool :=
  s.lathesAll.any (fun n => s.role n != 3 && s.holdsV n v)
    || s.manifests.any (fun e => match e.2 with
        | some m => m.versions.contains v
        | none => false)

/-- A target version is set (R166): one equal to V has no effect. -/
def State.setTarget (s : State) (x : Stream) (v : Nat) : Stream × HFin :=
  if v = x.version ∨ v = 0 then (x, okFin)
  else if ¬ s.loadable v then (x, ⟨11, 0, 0, 0, 0⟩)
  else ({ x with target := v, enc := { x.enc with repinAt := some (x.enc.repinAt.getD s.time) } }, okFin)

/-- A refused change is recorded in every rendition's status record (R168). -/
def Stream.recordRefusal (x : Stream) (status : Nat) : List Nat → Stream
  | [] => x
  | r :: rest => (x.setBits (rendBase r) 0 8 status).recordRefusal status rest

/-- An open encode stream's change is refused: its status records say VERSION_MISMATCH of a re-pin and BAD_PARAM of any other change, and DRAM
holds them (R168, R197). -/
def State.refuseChange (s : State) (sid : Nat) (f : HFin) : State × HFin :=
  let x := s.stream sid
  (if x.dir = 1 then s.putStream sid (x.recordRefusal (if f.status = 11 then 11 else 2) (upTo 0 x.rends)) else s, f)

/-- The rate status record shows the changes that wait (R192). -/
def Stream.showPending (x : Stream) : List Nat → Stream
  | [] => x
  | r :: rest => (x.setBits (rateStat r) 5 1 (if (x.rendition r).signalled then 1 else 0)).showPending rest

/-- STREAM_CONFIG's entry acts (R166, R167, R189): checked as a whole under R62 and R171 first; a change refused has no
effect but on the status records, and an accepted one is in DRAM at once (R197). The scaled copies of renditions removed earlier are gone (R142). -/
def State.changeStream (s : State) (sid : Nat) (items : List Item) : State × HFin :=
  let x := s.stream sid
  let g := ownItems items
  let rends := param g 1 4 0 x.rends
  if ¬ s.isOpen sid then (s, ⟨2, 3, 3, 0, 0⟩)
  else if ¬ items.all (changeItem x rends) ∨ ¬ (upTo x.rends (rends - x.rends)).all (fun r => rendWhole (rendItems r items)) then
    s.refuseChange sid payloadFail
  else if x.dir = 0 then
    (s.putStream sid { x with params := mergeItems x.params g }, okFin)
  else
    match s.encodeFin (x.futureWith rends items) with
    | some f => s.refuseChange sid f
    | none =>
      let v := s.setTarget x (param g 4 8 0 0)
      if v.2.status ≠ 0 then s.refuseChange sid v.2
      else
        let opts := g.filter (fun e => e.1 / 65536 = 4 && e.1 / 256 % 256 != 8)
        let x := { v.1 with params := mergeItems v.1.params opts }
        let x := x.changeRends s.time items (upTo 0 (min x.rends rends))
        let x := s.dropRends sid x rends
        let keep := x.rend.filter (fun e => e.1 < rends || x.lingers e.1)
        let y := s.addRends { x with rends := rends, rend := keep } x.rends items (upTo 0 rends)
        let w := s.cv x.canvas
        ((s.setCv x.canvas { w with copies := w.copies.take x.rends }).putStream sid (y.showPending (upTo 0 rends)), okFin)

end Sys2Proof.Machine
end

