-- ==== Sys2Proof/Machine/Layers.lean ====
section
/-!
DEFINITION. Layers and their arithmetic (R231 to R248): layer records, the checks of a stack, colour conversion, the scaler,
blending, and the line buffer.
-/
namespace Sys2Proof.Machine

/-! ## Layer records (R447, R479) -/

/-- How many values each row of group 0x07 has; SOURCE has 2 or 6. -/
def layerCount (row : Nat) (k : Nat) : Bool :=
  if row = 0 then k = 2 || k = 6 else if row = 1 then k = 4 else if row = 2 ∨ row = 3 then k = 2 else row ≤ 9 && k = 1

/-- The items of a layer record as a table; none where an item is unknown or has the wrong number of values. -/
def layerItems (n : Nat) : List Item → Option (Tbl Nat)
  | [] => some []
  | i :: r =>
    match layerItems n r with
    | none => none
    | some t =>
      if i.group = 7 ∧ i.index = n ∧ layerCount i.row i.values.length then some (putVals t 7 i.row 0 i.values) else none

/-- Whether a format code of R232 is read. -/
def formatOk (f : Nat) : Bool := f ≤ 5 || (8 ≤ f && f ≤ 10)

/-- A crop of a record: none is FULL. -/
def cropOf (t : Tbl Nat) : Option Rect :=
  let w := param t 7 1 2 0
  let h := param t 7 1 3 0
  if w = 0 ∧ h = 0 then none else some ⟨param t 7 1 0 0, param t 7 1 1 0, w, h⟩

/-- The layer that a record describes: none where a parameter without a default is absent or a value lies outside its range
(DETAIL PAYLOAD). CSC, SYNC and Z default to NONE, PICTURE and the layer's own index, and a graphic layer's size to its crop. -/
def layerOf (n : Nat) (items : List Item) : Option Layer :=
  match layerItems n items with
  | none => none
  | some t =>
    let video := param t 7 0 0 0 = 0
    let crop := cropOf t
    let dx := signed32 (param t 7 2 0 0)
    let dy := signed32 (param t 7 2 1 0)
    let cw := (crop.map (fun c => c.w)).getD 0
    let ch := (crop.map (fun c => c.h)).getD 0
    let dw := param t 7 3 0 (if video then 0 else cw)
    let dh := param t 7 3 1 (if video then 0 else ch)
    let format := param t 7 4 0 15
    let alpha := param t 7 5 0 16383
    let hint := param t 7 6 0 (if video then 0 else 1)
    let csc := param t 7 7 0 0xFFFFFFFF
    let sync := param t 7 8 0 0
    let z := param t 7 9 0 n
    let surf : Surf := ⟨param t 7 0 1 0 + 2 ^ 32 * (param t 7 0 2 0 % 8), param t 7 0 4 0, param t 7 0 5 0, format, param t 7 0 3 0⟩
    let ok := hasParam t 7 0 0 && hasParam t 7 0 1 && param t 7 0 0 0 ≤ 1 && (video || hasParam t 7 0 5) && hasParam t 7 2 0
      && -8192 ≤ dx && dx ≤ 8191 && -8192 ≤ dy && dy ≤ 8191 && 0 < dw && 0 < dh && alpha ≤ 16383 && sync ≤ 1 && z ≤ 7
      && (csc ≤ 15 || csc = 0xFFFFFFFF) && (if video then hint = 0 || hint = 2 else hint = 1 || hint = 2)
      && (if video then param t 7 0 1 0 < 512
          else formatOk format && crop.isSome && (if 8 ≤ format then surf.pitch % 256 = 0 else surf.pitch = 0))
    if ok then
      some ⟨video, if video then param t 7 0 1 0 else 0, if video then ⟨0, 0, 0, 0, 0⟩ else surf, crop, dx, dy, dw, dh, alpha,
        hint, if csc ≤ 15 then some csc else none, sync, z⟩
    else none

/-! ## The geometry of a layer -/

/-- The format that a video layer's stream gives it: its sequence's, or its configured maximum before the first (R231). -/
def Stream.layerFormat (x : Stream) : Nat :=
  match x.dec.seq with
  | some q => q.chroma
  | none => x.maxChroma

/-- A layer's format. -/
def State.layerFormat (s : State) (l : Layer) : Nat := if l.video then (s.stream l.sid).layerFormat else l.surf.format

/-- A layer's crop as the line buffer sees it: FULL is the stream's configured maximum (R231, R243). -/
def State.cropMax (s : State) (l : Layer) : Rect :=
  match l.crop with
  | some c => c
  | none => let x := s.stream l.sid; ⟨0, 0, x.maxW, x.maxH⟩

/-- Subsampling of plane p of a format: across and down. -/
def planeSx (f p : Nat) : Nat := if planeSub f p then subX f else 1
/-- Down. -/
def planeSy (f p : Nat) : Nat := if planeSub f p then subY f else 1

/-! ## Checks of a stack (R228, R231, R232, R239, R240) -/

/-- Whether a layer's size satisfies R231 and R242. -/
def State.layerSizeOk (s : State) (l : Layer) : Bool :=
  let c := s.cropMax l
  if l.video then c.w ≤ 8 * l.dw && l.dw ≤ 8 * c.w && c.h ≤ 8 * l.dh && l.dh ≤ 8 * c.h else l.dw = c.w && l.dh = c.h

/-- Whether a layer satisfies R231, R232 and R240 on a canvas of a chroma format. -/
def State.layerOk (s : State) (chroma : Nat) (l : Layer) : Bool :=
  let f := s.layerFormat l
  let c := s.cropMax l
  let sx := max (planeSx f 1) (planeSx chroma 1)
  let sy := max (planeSy f 1) (planeSy chroma 1)
  s.layerSizeOk l
    && c.x % sx = 0 && c.w % sx = 0 && l.dx % sx = 0 && l.dw % sx = 0
    && c.y % sy = 0 && c.h % sy = 0 && l.dy % sy = 0 && l.dh % sy = 0
    && (l.video || !(f = 5 || 8 ≤ f) || l.csc.isSome)

/-- Whether the z positions of n layers list each exactly once (R239). -/
def zOk (ls : List Layer) : Bool := (upTo 0 ls.length).all (fun z => (ls.filter (fun l => l.z = z)).length = 1)

/-- Whether a stack satisfies R231, R232 and R239; `least` is the fewest layers it may have. -/
def State.stackOk (s : State) (cv : Canvas) (least : Nat) (ls : List Layer) : Bool :=
  least ≤ ls.length && ls.length ≤ 8 && ls.all (s.layerOk cv.chroma) && (!cv.tableOrder || zOk ls)

/-- The checks of a stack when a commit is applied: R231 and R239 (R250). -/
def State.stackStillOk (s : State) (cv : Canvas) (ls : List Layer) : Bool :=
  2 ≤ ls.length && ls.length ≤ 8 && ls.all s.layerSizeOk && (!cv.tableOrder || zOk ls)

/-- A stack after a commit's records: each replaces its layer, or adds the next one; none where a record is not one, names a
layer beyond the next, or is named twice. -/
def applyRecs (ls : List Layer) : List LayerRec → List Nat → Option (List Layer)
  | [], _ => some ls
  | r :: rest, seen =>
    match layerOf r.layer r.items with
    | some l =>
      if seen.contains r.layer then none
      else if r.layer < ls.length then applyRecs (setNth l ls r.layer) rest (r.layer :: seen)
      else if r.layer = ls.length then applyRecs (ls ++ [l]) rest (r.layer :: seen)
      else none
    | none => none

/-! ## The line buffer (R243, R244) -/

/-- The line-buffer bytes of a layer. -/
def State.lineBuf (s : State) (l : Layer) : Nat :=
  let c := s.cropMax l
  if ¬ l.video ∨ c.h = l.dh then 0
  else
    let rv := max 1 ((c.h + l.dh - 1) / atLeast1 l.dh)
    let f := s.layerFormat l
    (6 + rv) * c.w * 2 + (if f = 3 then 0 else (4 + rv) * (c.w / planeSx f 1) * 2 * 2)

/-- The line-buffer bytes of a stack. -/
def State.stackBuf (s : State) (ls : List Layer) : Nat := ls.foldl (fun n l => n + s.lineBuf l) 0

/-- Whether some layer asks for a widest crop above 8,192 samples. -/
def State.tooWide (s : State) (ls : List Layer) : Bool := ls.any (fun l => l.video && 8192 < (s.cropMax l).w)

/-- The pool's use in Inlay i, without canvas cv. -/
def State.poolUse (s : State) (i cv : Nat) : Tbl Canvas → Nat
  | [] => 0
  | (k, c) :: r => (if k ≠ cv ∧ c.inlay = some i then s.stackBuf c.layers else 0) + s.poolUse i cv r

/-- Whether a stack of canvas cv fits the pool of its Inlay. -/
def State.bufFits (s : State) (i cv : Nat) (ls : List Layer) : Bool :=
  !s.tooWide ls && s.poolUse i cv s.canvases + s.stackBuf ls ≤ s.fld (Reg.INL_LB_POOL_BYTES i)

/-- INL_LB_USED follows the stacks. -/
def State.showBuf (s : State) (i : Nat) : State := s.setFld (Reg.INL_LB_USED_BYTES i) (s.poolUse i 64 s.canvases)

/-! ## Colour conversion (R240) -/

/-- A 16-bit number read as two's complement. -/
def signed16 (v : Nat) : Int := if v % 2 ^ 16 < 2 ^ 15 then ((v % 2 ^ 16 : Nat) : Int) else ((v % 2 ^ 16 : Nat) : Int) - 2 ^ 16

/-- Word w of CSC slot k of Inlay i. -/
def State.cscWord (s : State) (i k w : Nat) : Nat := s.fld (Reg.INL_CSC_VALUE i k w)

/-- Output j of a slot for three inputs (DEDUCED, log entry 82). -/
def State.cscOut (s : State) (i k j : Nat) (a b c : Nat) : Nat :=
  let term (n : Nat) (v : Nat) : Int := signed16 (s.cscWord i k (3 * j + n)) * ((v : Int) - (s.cscWord i k (9 + n) % 2 ^ 14 : Nat))
  (max 0 (min 16383 ((term 0 a + term 1 b + term 2 c + 8192) / 16384 + (s.cscWord i k (12 + j) % 2 ^ 14 : Nat)))).toNat

/-! ## The scaler (R242) -/

/-- The band of a ratio: ≤ 1, ≤ 2, ≤ 4, ≤ 8. -/
def ratioBand (src dst : Nat) : Nat := if src ≤ dst then 0 else if src ≤ 2 * dst then 1 else if src ≤ 4 * dst then 2 else 3

/-- A signed 10-bit coefficient (DEDUCED, log entry 82). -/
def State.coef (s : State) (i band phase tap : Nat) : Int :=
  let v := s.fld (Reg.INL_SCL_COEF_COEF i (1408 * band + 22 * phase + tap))
  if v < 512 then (v : Int) else (v : Int) - 1024

/-- The source position of destination sample k, in 16.16 fixed point (DEDUCED, log entry 82). -/
def srcPos (src dst k : Nat) : Int := (((2 * k + 1) * src * 65536 / (2 * atLeast1 dst) : Nat) : Int) - 32768

/-- One output of a filter of `taps` taps, from `t0` on, over a line of `src` samples: lost where a tap is. A line that is not
scaled passes unchanged (DEDUCED, log entry 82). -/
def State.filter1 (s : State) (i t0 taps src dst k : Nat) (f : Nat → Option Nat) : Option Nat :=
  if src = dst then f k
  else
    let p := srcPos src dst k
    let base := p / 65536
    let phase := (p % 65536).toNat / 1024
    let term (t : Nat) : Option Int :=
      let q := base + (t : Int) - ((taps / 2 : Nat) : Int) + 1
      (f (heldIn q src)).map (fun v => s.coef i (ratioBand src dst) phase (t0 + t) * (v : Int))
    let sum := (upTo 0 taps).foldl (fun a t => match a, term t with
      | some x, some y => some (x + y)
      | _, _ => none) (some 0)
    sum.map (fun v => (max 0 (min 16383 ((v + 128) / 256))).toNat)

/-- Sample (x, y) of a plane scaled from sw × sh to dw × dh: vertically first, then horizontally. -/
def State.scaled (s : State) (i : Nat) (luma : Bool) (sw sh dw dh x y : Nat) (f : Nat → Nat → Option Nat) : Option Nat :=
  let col (u : Nat) : Option Nat := s.filter1 i (if luma then 0 else 14) (if luma then 6 else 4) sh dh y (fun v => f u v)
  s.filter1 i (if luma then 6 else 18) (if luma then 8 else 4) sw dw x col

/-! ## A layer's samples on its canvas (R233, R240) -/

/-- The line of a picture whose ROW_FINAL has arrived (R93, R233). -/
def holdBack (std : Nat) : Nat := nth 4 [4, 4, 8, 3] std

/-- Whether line y of a decoded picture is final. -/
def Stream.lineFinal (x : Stream) (p : DpbPic) (y : Nat) : Bool :=
  match x.dec.cur, x.dec.seq with
  | some c, some q =>
    if c.id = p.id ∧ c.poc = p.poc then
      let b := atLeast1 q.block
      let r := y / b
      let last := (c.surf.h + b - 1) / b - 1
      tget false c.rowsDone r && (y % b < b - holdBack x.std || r = last || tget false c.rowsDone (r + 1))
    else true
  | _, _ => true

/-- What layer l of a canvas reads at sample (u, v) of plane p of its source, by what it shows. -/
def State.srcSample (s : State) (l : Layer) (sh : Shown) (p u v : Nat) : Option Nat :=
  if l.video then
    match sh.pic with
    | none => none
    | some pic =>
      if pic.surf.format = 3 ∧ p ≠ 0 then some 0x2000
      else
        let x := s.stream l.sid
        if l.sync = 1 ∧ ¬ x.lineFinal pic (v * planeSy pic.surf.format p) then
          match sh.before with
          | some old => s.sample old.surf p u v
          | none => s.sample pic.surf p u v
        else s.sample pic.surf p u v
  else if l.surf.format = 3 ∧ p ≠ 0 then some 0x2000
  else s.sample l.surf p u v

/-- The crop in force: FULL follows the picture shown. -/
def layerCrop (l : Layer) (sh : Shown) : Rect :=
  match l.crop, sh.pic with
  | some c, _ => c
  | none, some p => ⟨0, 0, p.surf.w, p.surf.h⟩
  | none, none => ⟨0, 0, 0, 0⟩

/-- The format in force. -/
def shownFormat (l : Layer) (sh : Shown) : Nat :=
  if l.video then (sh.pic.map (fun p => p.surf.format)).getD 0 else l.surf.format

/-- Steps 1 and 2 of R240: sample (x, y) of plane p of a layer, scaled to its size, in its own chroma format. -/
def State.step2 (s : State) (i : Nat) (l : Layer) (sh : Shown) (p x y : Nat) : Option Nat :=
  let c := layerCrop l sh
  let f := shownFormat l sh
  let sx := planeSx f p
  let sy := planeSy f p
  s.scaled i (p = 0) (c.w / sx) (c.h / sy) (l.dw / sx) (l.dh / sy) x y
    (fun u v => s.srcSample l sh p (c.x / sx + u) (c.y / sy + v))

/-- Step 3: the CSC slot, on the co-sited samples of the three planes. -/
def State.step3 (s : State) (i : Nat) (l : Layer) (sh : Shown) (p x y : Nat) : Option Nat :=
  match l.csc with
  | none => s.step2 i l sh p x y
  | some k =>
    let f := shownFormat l sh
    let at_ (j : Nat) : Option Nat :=
      s.step2 i l sh j (x * planeSx f p / planeSx f j) (y * planeSy f p / planeSy f j)
    match at_ 0, at_ 1, at_ 2 with
    | some a, some b, some c => some (s.cscOut i k p a b c)
    | _, _, _ => none

/-- The mean of samples, round half up; lost where one is. -/
def meanOf (l : List (Option Nat)) : Option Nat :=
  let sum := l.foldl (fun a v => match a, v with
    | some x, some y => some (x + y)
    | _, _ => none) (some 0)
  sum.map (fun v => (v + l.length / 2) / atLeast1 l.length)

/-- Step 4: plane p at (x, y) of the layer in the canvas's chroma format. -/
def State.step4 (s : State) (i chroma : Nat) (l : Layer) (sh : Shown) (p x y : Nat) : Option Nat :=
  let f := shownFormat l sh
  let sx := planeSx f p
  let sy := planeSy f p
  let cx := planeSx chroma p
  let cy := planeSy chroma p
  if sx ≤ cx ∧ sy ≤ cy then
    let nx := cx / sx
    let ny := cy / sy
    if nx * ny = 1 then s.step3 i l sh p x y
    else meanOf ((rectPx (x * nx) (y * ny) nx ny).map (fun q => s.step3 i l sh p q.1 q.2))
  else if l.video then
    s.scaled i false (l.dw / sx) (l.dh / sy) (l.dw / cx) (l.dh / cy) x y (fun u v => s.step3 i l sh p u v)
  else s.step3 i l sh p (x * cx / sx) (y * cy / sy)

/-- The alpha of a luma position of the layer. -/
def State.lumaAlpha (s : State) (l : Layer) (sh : Shown) (x y : Nat) : Option Nat :=
  if l.video ∨ l.surf.format ≤ 3 then some 16383
  else let c := layerCrop l sh; s.srcSample l sh 3 (c.x + x) (c.y + y)

/-- The alpha of plane p at (x, y): the mean of the co-sited alphas on a subsampled plane. -/
def State.planeAlpha (s : State) (chroma : Nat) (l : Layer) (sh : Shown) (p x y : Nat) : Option Nat :=
  let cx := planeSx chroma p
  let cy := planeSy chroma p
  meanOf ((rectPx (x * cx) (y * cy) cx cy).map (fun q => s.lumaAlpha l sh q.1 q.2))

/-! ## Blending (R241) -/

/-- The weight of a sample of alpha α under GLOBAL_ALPHA. -/
def blendA (alpha global : Nat) : Nat := ((alpha + alpha / 2 ^ 13) * (global + global / 2 ^ 13) + 8192) / 2 ^ 14

/-- The canvas value under a sample of weight a. -/
def blend (v dst a : Nat) : Nat := (v * a + dst * (16384 - a) + 8192) / 2 ^ 14

/-- Where a canvas position lies in a layer's rectangle on a plane, if it does. -/
def inLayer (chroma : Nat) (l : Layer) (p x y : Nat) : Option (Nat × Nat) :=
  let cx := planeSx chroma p
  let cy := planeSy chroma p
  let u : Int := (x : Int) - l.dx / (cx : Int)
  let v : Int := (y : Int) - l.dy / (cy : Int)
  if 0 ≤ u ∧ u < ((l.dw / cx : Nat) : Int) ∧ 0 ≤ v ∧ v < ((l.dh / cy : Nat) : Int) then some (u.toNat, v.toNat) else none

/-- What layer l contributes at (x, y) of plane p: its value and weight; a lost sample is fully transparent (R238). -/
def State.layerAt (s : State) (i chroma : Nat) (l : Layer) (sh : Shown) (p x y : Nat) : Nat × Nat :=
  match inLayer chroma l p x y with
  | none => (0, 0)
  | some q =>
    match s.step4 i chroma l sh p q.1 q.2, s.planeAlpha chroma l sh p q.1 q.2 with
    | some v, some a => (v, blendA a l.alpha)
    | _, _ => (0, 0)

/-- Whether a source sample of layer l at (x, y) of plane p is lost. -/
def State.layerLost (s : State) (i chroma : Nat) (l : Layer) (sh : Shown) (p x y : Nat) : Bool :=
  match inLayer chroma l p x y with
  | none => false
  | some q =>
    (!l.video || sh.pic.isSome)
      && ((s.step4 i chroma l sh p q.1 q.2).isNone || (s.planeAlpha chroma l sh p q.1 q.2).isNone)

/-- Puts a layer at its z position. -/
def zInsert (x : Nat × Layer) : List (Nat × Layer) → List (Nat × Layer)
  | [] => [x]
  | y :: r => if y.2.z ≤ x.2.z then y :: zInsert x r else x :: y :: r

/-- The layers of a stack from bottom to top, each with its index (R239). -/
def bottomUp (table : Bool) (ls : List Layer) : List (Nat × Layer) :=
  let l := (upTo 0 ls.length).zip ls
  if table then l.foldl (fun a x => zInsert x a) [] else l

end Sys2Proof.Machine
end

