-- ==== Sys2Proof/Machine/Heads.lean ====
section
/-!
DEFINITION. The display heads (R255, R259 to R263): the mode's checks, frame starts with genlock, tears, link training and HPD, and
the samples that a head sends.
-/
namespace Sys2Proof.Machine

/-- A head that has sent nothing. -/
def head0 : Head := ⟨none, none, none, 0, 0, false, 0, true, 0, false, 0, [], 0⟩

/-- Head d. -/
def State.head (s : State) (d : Nat) : Head := tget head0 s.heads d

/-- Sets head d. -/
def State.setHead (s : State) (d : Nat) (h : Head) : State := { s with heads := tset head0 s.heads d h }

/-! ## The mode (R259, R260) -/

/-- The codes of MAX_RATE: 5 to 7 behave as 4. -/
def rateCode (v : Nat) : Nat := min v 4

/-- The codes of MAX_LANES: 3 behaves as 2. -/
def laneCode (v : Nat) : Nat := min v 2

/-- Payload bits per second of one lane at a rate: DisplayPort's 8b/10b rates, and 128b/132b for UHBR10. -/
def laneBits (r : Nat) : Nat := nth 0 [1296000000, 2160000000, 4320000000, 6480000000, 9696969696] (rateCode r)

/-- The link symbol clock at a rate, in Hz (PRESUMED, log entry 83). -/
def symbolClock (r : Nat) : Nat := nth 1 [162000000, 270000000, 540000000, 810000000, 312500000] (rateCode r)

/-- The panel depth P. -/
def panelDepth (v : Nat) : Nat := nth 8 [6, 8, 10, 12] v

/-- Bits per pixel × 16 of head d: DSC's, or those of the encoding at the panel depth. -/
def State.bpp16 (s : State) (d : Nat) : Nat :=
  let e := s.fld (Reg.DP_CTRL_ENCODING d)
  let p := panelDepth (s.fld (Reg.DP_CTRL_DEPTH d))
  if s.on (Reg.DP_CTRL_DSC_EN d) then s.fld (Reg.DP_CTRL_DSC_BPP_X16 d)
  else if e ≤ 1 then 48 * p
  else if e = 2 then 32 * p
  else 24 * p

/-- Whether the pixel rate fits the link at MAX_RATE and MAX_LANES. -/
def State.fitsLink (s : State) (d : Nat) : Bool :=
  let v := s.cv d
  s.fld (Reg.DP_HTIMING0_HTOTAL d) * v.lines * 27000000 * s.bpp16 d
    ≤ 16 * v.period * laneBits (s.fld (Reg.DP_CTRL_MAX_RATE d)) * 2 ^ laneCode (s.fld (Reg.DP_CTRL_MAX_LANES d))

/-- The checks at enable (R260): those listed and no other. A DSC_BPP_X16 outside 128 to 384 counts as written, and DSC's other limits are
not checked (DESIGN CHOICE, log entry 140). -/
def State.modeOk (s : State) (d : Nat) : Bool :=
  let v := s.cv d
  let ht := s.fld (Reg.DP_HTIMING0_HTOTAL d)
  let hs := s.fld (Reg.DP_HTIMING0_HSYNC_START d)
  let vs := s.fld (Reg.DP_VTIMING_VSYNC_START d)
  v.inlay.isSome && 0 < v.period && v.width + 32 ≤ ht && v.width ≤ hs && hs + s.fld (Reg.DP_HTIMING1_HSYNC_WIDTH d) ≤ ht
    && v.height ≤ vs && vs + s.fld (Reg.DP_VTIMING_VSYNC_WIDTH d) ≤ v.lines && s.fitsLink d

/-- Nvid: 32,768, and × 1,001 / 1,000 rounded for the 1/1.001 families (R262) (PRESUMED, log entry 83). -/
def nvidOf (period : Nat) : Nat := if period % 1001 = 0 ∧ period ≠ 0 then 32801 else 32768

/-- The nominal Mvid of head d at its trained rate: pixel rate × Nvid / link symbol clock (R260, R262). -/
def State.mvidNominal (s : State) (d : Nat) : Nat :=
  let v := s.cv d
  s.fld (Reg.DP_HTIMING0_HTOTAL d) * v.lines * 27000000 * nvidOf v.period
    / (atLeast1 v.period * symbolClock (s.fld (Reg.DP_STATUS_RATE d)))

/-- The head's output stops (R263). -/
def State.headStop (s : State) (d : Nat) : State :=
  (s.setFlds [(Reg.DP_STATUS_LINK_UP d, 0), (Reg.DP_STATUS_GENLOCKED d, 0)]).setHead d { s.head d with resume := false }

/-- DP_CTRL takes a written word: a mode that fails a check is refused, ENABLE stays 0 and MODE_REFUSED sets (R260). PD05 sleeps only with
every head off, so a head leaves RET or OFF by being enabled: it shows BACKGROUND until its canvas composes a picture (R255) (DEDUCED, log
entry 140). -/
def State.dpCtrl (s : State) (d : Nat) (v : Word) : State :=
  let was := s.on (Reg.DP_CTRL_ENABLE d)
  let s := s.plainWrite (0xA8000 + 0x400 * d) v 0 [0]
  if bitsOf v 0 1 = 0 then (s.swSet (Reg.DP_CTRL_ENABLE d) 0).headStop d
  else if was then s
  else if s.modeOk d then
    ((s.swSet (Reg.DP_CTRL_ENABLE d) 1).setFlds [(Reg.DP_STATUS_MODE_REFUSED d, 0), (Reg.DP_NVID_NVID d, nvidOf (s.cv d).period)]).setHead d
      { s.head d with blank := true }
  else s.setFld (Reg.DP_STATUS_MODE_REFUSED d) 1

/-- HEAD_ENABLE (R2, R259, R260): a write of DP_CTRL. -/
def execHeadEnable (d : Nat) (v : Word) (s : State) : Host.Outcome State Fault Refusal :=
  .next (if s.hasHead d then s.onWrite .host (0xA8000 + 0x400 * d) v (fun s => s.dpCtrl d v) else s)

/-! ## Frames (R255, R262) -/

/-- The picture that a frame of head d scans out: the most recent whose band 0 is written; its surface and number. None, so BACKGROUND,
where the head waits for its canvas's next picture. -/
def State.scanPic (s : State) (d : Nat) : Option (Nat × Nat) :=
  let v := s.cv d
  if (s.head d).blank then none
  else match v.cur, v.last, v.lastPic with
  | some p, l, c => if 0 < p.bands then some (p.surf, p.c) else match l, c with
    | some l, some c => some (l, c)
    | _, _ => none
  | none, some l, some c => some (l, c)
  | none, _, _ => none

/-- A number as a 32-bit word, two's complement, saturating. -/
def satWord (v : Int) : Nat := (max (-(2 ^ 31)) (min (2 ^ 31 - 1) v) % 2 ^ 32).toNat

/-- Mvid after an adjustment of head d: a free value within 200 ppm of the nominal and 10 ppm per second of the last one
(PRESUMED, log entry 83). -/
def State.mvidNext (s : State) (d : Nat) : Nat :=
  let nom := s.mvidNominal d
  let cur := s.fld (Reg.DP_MVID_MVID d)
  let slew := nom * 10 * s.since (s.head d).mvidAt / 10 ^ 12
  let lo := max (nom - nom * 200 / 10 ^ 6) (cur - slew)
  let hi := min (nom + nom * 200 / 10 ^ 6) (cur + slew)
  if hi < lo then clamp (nom - nom * 200 / 10 ^ 6) (nom + nom * 200 / 10 ^ 6) cur else lo + s.freeVal % (hi - lo + 1)

/-- HEAD_FRAME_START (R255, R262, R263): a head with a trained link chooses the picture it scans out and adjusts Mvid toward T_c;
`err` is the phase error of line 0 in ns. -/
def execHeadFrameStart (d : Nat) (err : Int) (now : Nat) (s : State) : Host.Outcome State Fault Refusal :=
  let s := s.at now
  let h := s.head d
  if ¬ (s.hasHead d ∧ s.on (Reg.DP_CTRL_ENABLE d) ∧ (h.resume ∨ s.on (Reg.DP_STATUS_LINK_UP d))) then .next s
  else
    let locked := s.on Reg.RNG_PTP_STATUS_LOCKED
    let big : Bool := decide (1000000 < err) || decide (err < -1000000)
    let mvid := if locked then s.mvidNext d else s.mvidNominal d
    let near : Bool := decide (-1000 ≤ err) && decide (err ≤ 1000)
    let pic := s.scanPic d
    let h' : Head := { h with shown := pic.map (fun p => p.1), before := h.shown, behind := (s.cv d).last, pic := (pic.map (fun p => p.2)).getD h.pic,
                              frameAt := s.time, torn := false, frame := (h.frame + 1) % 4, resume := false, mvidAt := s.time }
    let t := (s.freeNext.setHead d h').setFlds
      [(Reg.DP_STATUS_LINK_UP d, 1), (Reg.DP_GENLOCK_ERR_NS d, satWord err), (Reg.DP_STATUS_GENLOCKED d, if near then 1 else 0)]
    .next (if locked && big then t.bump (Cnt.DP_RESYNCS d) else t.setFld (Reg.DP_MVID_MVID d) mvid)

/-- Whether head d scans out canvas picture c in a frame that has not torn. -/
def State.scanning (s : State) (d c : Nat) : Bool :=
  let h := s.head d
  s.hasHead d && s.on (Reg.DP_CTRL_ENABLE d) && s.on (Reg.DP_STATUS_LINK_UP d) && h.shown.isSome && h.pic = c && !h.torn

/-- The head of a canvas meets a band of its picture that is written after it needs the band's first line: the frame tears (R255). -/
def State.headTear (s : State) (cv c band : Nat) : State :=
  let v := s.cv cv
  let need := (s.head cv).frameAt + 16 * band * v.period / (27 * atLeast1 v.lines)
  if s.scanning cv c ∧ need < s.time then
    (s.setHead cv { s.head cv with torn := true, tornAt := 16 * band }).bump (Cnt.DP_TEARS cv)
  else s

/-- VBLANK (R255, R395): the frame is sent and VBLANK emitted; a frame whose picture still lacks a band has torn. -/
def execVblank (d : Nat) (s : State) : Host.Outcome State Fault Refusal :=
  if ¬ (s.hasHead d ∧ s.on (Reg.DP_CTRL_ENABLE d) ∧ s.on (Reg.DP_STATUS_LINK_UP d)) then .next s
  else
    let late : Bool := match (s.cv d).cur with
      | some p => s.scanning d p.c
      | none => false
    let from_ : Nat := ((s.cv d).cur.map (fun p => 16 * p.bands)).getD 0
    let s := if late then (s.setHead d { s.head d with torn := true, tornAt := from_ }).bump (Cnt.DP_TEARS d) else s
    .next ((s.bump (Cnt.DP_FRAMES d)).pulse (136 + d))

/-! ## The link (R263) -/

/-- HPD_LOSS (R263, R264): the head's output stops; while enabled LINK_FAIL sets. -/
def execHpdLoss (d : Nat) (s : State) : Host.Outcome State Fault Refusal :=
  if ¬ s.hasHead d then .next s
  else
    let t := (s.headStop d).setFld (Reg.DP_STATUS_HPD d) 0
    .next (if s.on (Reg.DP_CTRL_ENABLE d) then t.raise (98 + d) (Reg.DP_STATUS_LINK_FAIL d) else t)

/-- HPD_RETURN (R259, R263): the EDID is read, and link training begins. -/
def execHpdReturn (d : Nat) (edid : List Nat) (s : State) : Host.Outcome State Fault Refusal :=
  if ¬ s.hasHead d then .next s
  else .next ((s.setFld (Reg.DP_STATUS_HPD d) 1).setHead d { s.head d with edid := (edid.take 256).map (fun b => b % 256) })

/-- LINK_TRAINING_DONE (R263): the trained head resumes at its next frame start at its nominal Mvid; a training that failed stops the
output and sets LINK_FAIL. Trainings after the first count. -/
def execLinkTrainingDone (d : Nat) (ok : Bool) (rate lanes : Nat) (s : State) : Host.Outcome State Fault Refusal :=
  if ¬ (s.hasHead d ∧ s.on (Reg.DP_CTRL_ENABLE d) ∧ s.on (Reg.DP_STATUS_HPD d)) then .next s
  else
    let n := (s.head d).trainings
    let s := s.setHead d { s.head d with trainings := n + 1 }
    let s := if n = 0 then s else s.bump (Cnt.DP_RETRAINS d)
    if ok then
      let s := s.setFlds
        [(Reg.DP_STATUS_RATE d, min (rateCode rate) (rateCode (s.fld (Reg.DP_CTRL_MAX_RATE d)))),
         (Reg.DP_STATUS_LANES d, min (laneCode lanes) (laneCode (s.fld (Reg.DP_CTRL_MAX_LANES d))))]
      .next ((s.setFld (Reg.DP_MVID_MVID d) (s.mvidNominal d)).setHead d { s.head d with resume := true, mvidAt := s.time })
    else .next ((s.headStop d).raise (98 + d) (Reg.DP_STATUS_LINK_FAIL d))

/-! ## The samples that a head sends (R255, R261) -/

/-- The 4×4 dither matrix. -/
def ditherB (y x : Nat) : Nat := nth 0 (nth [] [[0, 8, 2, 10], [12, 4, 14, 6], [3, 11, 1, 9], [15, 7, 13, 5]] (y % 4)) (x % 4)

/-- A 14-bit sample reduced to panel depth P with dither at (x, y) in frame f, or rounded as R57 rounds. -/
def reduceTo (dither : Bool) (P f x y w : Nat) : Nat :=
  if dither then min ((w + ditherB (y + f) (x + f) * 2 ^ (14 - P) / 16) / 2 ^ (14 - P)) (2 ^ P - 1) else toDepth P w

/-- The canvas sample (x, y) of plane p that head d scans out: from the line on where its frame tore, the previous canvas picture's (R255).
BACKGROUND before the first picture, and where a tile is lost (DESIGN CHOICE, log entry 140). -/
def State.scanSample (s : State) (d p x y : Nat) : Nat :=
  let v := s.cv d
  let h := s.head d
  let line := y * (if planeSub v.chroma p then subY v.chroma else 1)
  match if h.torn ∧ h.tornAt ≤ line then h.behind else h.shown with
  | none => v.background p
  | some k => (s.sample (nth (⟨0, 0, 0, 0, 0⟩, 0) v.surfs k).1 p x y).getD (v.background p)

/-- A chroma sample at luma position (x, y): 2-tap linear interpolation between co-sited samples, round half up. -/
def State.chromaUp (s : State) (d p x y : Nat) : Nat :=
  let v := s.cv d
  let sx := if planeSub v.chroma p then subX v.chroma else 1
  let sy := if planeSub v.chroma p then subY v.chroma else 1
  let w := (v.width + sx - 1) / sx
  let h := (v.height + sy - 1) / sy
  let row (r : Nat) : Nat :=
    if x % sx = 0 then s.scanSample d p (x / sx) r
    else (s.scanSample d p (x / sx) r + s.scanSample d p (min (x / sx + 1) (w - 1)) r + 1) / 2
  if y % sy = 0 then row (y / sy) else (row (y / sy) + row (min (y / sy + 1) (h - 1)) + 1) / 2

/-- Component p that head d sends for pixel (x, y) of its canvas picture, at a position where the encoding carries it; a link whose chroma
is coarser than the canvas's takes the co-sited sample (DESIGN CHOICE, log entry 140). -/
def State.headOut (s : State) (d p x y : Nat) : Nat :=
  let e := s.fld (Reg.DP_CTRL_ENCODING d)
  let at_ (q : Nat) : Nat := if q = 0 then s.scanSample d 0 x y else s.chromaUp d q x y
  let w := if e = 0 then s.cscOut ((s.cv d).inlay.getD 0) (s.fld (Reg.DP_CTRL_CSC d)) p (at_ 0) (at_ 1) (at_ 2) else at_ p
  reduceTo (s.on (Reg.DP_CTRL_DITHER d)) (panelDepth (s.fld (Reg.DP_CTRL_DEPTH d))) (s.head d).frame x y w

end Sys2Proof.Machine
end

