-- ==== Sys2Proof/Machine/Inlay.lean ====
section
/-!
DEFINITION. The Inlays (R227 to R258): commit points, composition in bands with hint maps, commits and fences, and emergency
overrides.
-/
namespace Sys2Proof.Machine

/-! ## Canvases and what they show -/

/-- What a layer shows before it has taken a picture. -/
def shown0 : Shown := ⟨none, 0, none, false⟩

/-- An override set that no image holds. -/
def ovrSet0 : OvrSet := ⟨[], false⟩

/-- Override set k. -/
def State.ovrSet (s : State) (k : Nat) : OvrSet := tget ovrSet0 s.ovrSets k

/-- The stack that an override set gives a canvas. -/
def OvrSet.stack (o : OvrSet) (cv : Nat) : List Layer := ((o.canvases.find? (fun e => e.1 = cv)).map (fun e => e.2)).getD []

/-- The stack that a canvas composes: an override's, or its own (R258). -/
def State.stackOf (s : State) (cv : Nat) : List Layer :=
  match (s.cv cv).ovr with
  | some k => (s.ovrSet k).stack cv
  | none => (s.cv cv).layers

/-- The open encode stream that a canvas feeds (R227). -/
def State.feeds (s : State) (cv : Nat) : Option (Nat × Stream) :=
  s.streams.find? (fun e => e.2.state != 0 && e.2.dir = 1 && e.2.canvas = cv)

/-- Half a canvas's picture period, in ns. -/
def Canvas.halfNs (v : Canvas) : Nat := v.period * 500 / 27

/-- The first start of a canvas not before a PTP time in ns: an alignment point, a whole number of periods after the epoch, plus
OFFSET (R229) (PRESUMED, log entry 89). -/
def Canvas.alignAfter (v : Canvas) (ns : Nat) : Nat :=
  let p := atLeast1 v.period * 1000
  ((ns * 27 - v.offset * 1000 + p - 1) / p * p + v.offset * 1000) / 27

/-- T_c at its commit point, 4 lines ahead of it, in ns of PTP time (R229): the nearest start, and none that lies less than half a
period after the start before it (R354) (PRESUMED, log entry 89). -/
def State.startNs (s : State) (v : Canvas) : Nat :=
  let t := s.ptpNs + 4 * v.period * 1000 / (27 * atLeast1 v.lines) - v.halfNs
  v.alignAfter (if v.startAt = 0 then t else max t (v.startAt + v.halfNs))

/-- The bands of a canvas. -/
def Canvas.bands (v : Canvas) : Nat := (v.height + 15) / 16

/-! ## Whether a canvas surface is still held by the encoder (R145, R157, R184, R186, R254) -/

/-- Whether every ANA_ROW of canvas picture c has committed. -/
def State.anaDone (s : State) (sid : Nat) (x : Stream) (c : Nat) : Bool :=
  match (x.rendition 0).cur with
  | some p => p.c = c && (upTo 0 (s.geo x 0).rows).all (fun i => s.prog (rowKey sid 4 i) != 0)
  | none => false

/-- Whether the encoder holds the surface of canvas picture c: it is undecided, or the input of a picture that has not ended, or the analysis
of a picture that follows it has not read it, or its REORDER_8 group is not coded. -/
def State.surfHeld (s : State) (c : Nat) : Option (Nat × Stream) → Bool
  | none => false
  | some (sid, x) =>
    x.enc.c ≤ c + 1
      || x.enc.decided.any (fun z => z.input = c)
      || x.enc.decided.any (fun z => z.prev = c && z.rends.contains 0 && !s.anaDone sid x z.c)
      || ((x.rendition 0).structure_ = 3 && x.enc.decided ≠ [] && x.enc.c ≤ c + 8)

/-- The index of the next canvas surface. -/
def Canvas.nextSurf (v : Canvas) : Nat :=
  match v.last with
  | some k => (k + 1) % atLeast1 v.surfs.length
  | none => 0

/-! ## Commits (R250, R251) -/

/-- The rectangle of a layer on its canvas. -/
def Layer.rect (l : Layer) : CvRect := ⟨l.dx, l.dy, l.dw, l.dh⟩

/-- A dirty rectangle of a graphic layer on the canvas: what lies in the crop, moved with it. -/
def Layer.dirtyRect (l : Layer) (d : Rect) : CvRect :=
  let c := l.crop.getD ⟨0, 0, 0, 0⟩
  let x0 := max d.x c.x
  let y0 := max d.y c.y
  ⟨l.dx + (x0 - c.x : Nat), l.dy + (y0 - c.y : Nat), min (d.x + d.w) (c.x + c.w) - x0, min (d.y + d.h) (c.y + c.h) - y0⟩

/-- The rectangles of the canvas that a layer record changes (R247): the old and the new place of a layer whose parameters change,
and a graphic layer's dirty rectangles, or all of it without any. -/
def recRects (old : Option Layer) (l : Layer) (r : LayerRec) : List CvRect :=
  (if old = some l then [] else (old.map (fun o => o.rect)).toList ++ [l.rect])
    ++ (if l.video then [] else if r.dirty = [] then [l.rect] else r.dirty.map l.dirtyRect)

/-- The rectangles that a commit's records change. -/
def commitRects (ls : List Layer) (rs : List LayerRec) : List CvRect :=
  (rs.map (fun r => match layerOf r.layer r.items with
    | some l => recRects ls[r.layer]? l r
    | none => [])).flatten

/-- What the layers of a stack show after a commit: a layer with another source starts anew. -/
def keepShown (old new : List Layer) (t : Tbl Shown) : Tbl Shown :=
  t.filter (fun e => match old[e.1]?, new[e.1]? with
    | some a, some b => a.video && b.video && a.sid = b.sid
    | _, _ => false)

/-- A commit takes effect on its canvas's own stack and completes with OK (R251); COMMIT_APPLIED is emitted (R395). -/
def State.applyCommit (s : State) (i cv : Nat) (m : Commit) (ls : List Layer) : State :=
  let v := s.cv cv
  let s := s.setCv cv { v with layers := ls, shows := keepShown v.layers ls v.shows,
                               rects := if v.ovr.isSome then v.rects else v.rects ++ commitRects v.layers m.recs }
  let s := ((s.showBuf i).bump (Cnt.INL_COMMITS_APPLIED i)).endCmd m.own 0
  let s := if cv < 32 then s.orFld Reg.EVM_CV_APPLIED_LO_CANVAS (2 ^ cv) else s.orFld Reg.EVM_CV_APPLIED_HI_CANVAS (2 ^ (cv - 32))
  s.pulse (132 + 3 * i)

/-- The commits of a canvas's queue in order (R250, R251): a ready one is checked against the stack as it stands, and applied or
discarded; one that waited too long is discarded; the first other one stops the evaluation. With `hold` only those that waited
too long are taken (R439) (DEDUCED, log entry 79). -/
def State.evalCommits (s : State) (i cv : Nat) (hold : Bool) : List Commit → State
  | [] => s
  | m :: rest =>
    let v := s.cv cv
    let s' := s.setCv cv { v with queue := rest }
    if m.fences.all (fun f => f.2) ∧ ¬ hold then
      match applyRecs v.layers m.recs [] with
      | none => ((s'.bump (Cnt.INL_COMMITS_REFUSED i)).endCmd m.own 2).evalCommits i cv hold rest
      | some ls =>
        if ¬ s.stackStillOk v ls then ((s'.bump (Cnt.INL_COMMITS_REFUSED i)).endCmd m.own 2).evalCommits i cv hold rest
        else if ¬ s.bufFits i cv ls then
          (((s'.bump (Cnt.INL_COMMITS_REFUSED i)).raise (96 + i) (Reg.INL_FAULT_LINEBUF i)).endCmd m.own 5).evalCommits i cv hold rest
        else (s'.applyCommit i cv m ls).evalCommits i cv hold rest
    else if ¬ m.fences.all (fun f => f.2) ∧ atLeast1 (s.fld (Reg.INL_COMMIT_TIMEOUT_MS i)) * 1000 ≤ s.since m.entered then
      (((s'.bump (Cnt.INL_COMMITS_TIMEOUT i)).raise (96 + i) (Reg.INL_FAULT_FENCE_TIMEOUT i)).endCmd m.own 6).evalCommits i cv hold
        rest
    else s.bump (Cnt.INL_COMMITS_DEFERRED i)

/-! ## Overrides (R256 to R258) -/

/-- SWITCHING follows the canvases that have not reached their commit point. -/
def State.showSwitching (s : State) : State :=
  s.setFld Reg.INL_OVR_STATUS_SWITCHING (if s.canvases.any (fun e => e.2.switch.isSome) then 1 else 0)

/-- A canvas takes the override switch that waits for its commit point: every cell is CHANGED, and the option of the set asks for a
refresh point (R258) (DEDUCED, log entry 79). -/
def State.takeSwitch (s : State) (i cv : Nat) : State :=
  let v := s.cv cv
  match v.switch with
  | none => s
  | some tgt =>
    if tgt = v.ovr then (s.setCv cv { v with switch := none }).showSwitching
    else
      let opt (k : Option Nat) : Bool := match k with
        | some k => (s.ovrSet k).refresh
        | none => false
      let ask := if tgt.isSome then opt tgt else opt v.ovr
      let s := (s.setCv cv { v with switch := none, ovr := tgt, all := true }).showSwitching
      let s := if tgt.isSome then s.bump (Cnt.INL_OVERRIDES i) else s
      match ask, s.feeds cv with
      | true, some (sid, _) => s.refresh sid
      | _, _ => s

/-- The canvases' switches after a trigger of set k: named ones switch to it, those of another set are released. -/
def trigCanvases (k : Nat) (named : List Nat) : Tbl Canvas → Tbl Canvas
  | [] => []
  | (n, v) :: r =>
    (n, if named.contains n then { v with switch := some (some k) }
        else if v.ovr.isSome ∨ v.switch.isSome then { v with switch := some none } else v) :: trigCanvases k named r

/-- Override set k is triggered; `source` is 0 register, 1 command, 2 GPIO. -/
def State.ovrTrigger (s : State) (k source : Nat) : State :=
  let named := (s.ovrSet k).canvases.map (fun e => e.1)
  let s := { s with canvases := trigCanvases k named s.canvases }
  (s.setFlds [(Reg.INL_OVR_STATUS_ACTIVE, 1), (Reg.INL_OVR_STATUS_ACTIVE_SET, k), (Reg.INL_OVR_STATUS_SOURCE, source)]).showSwitching

/-- The active override is released. -/
def State.ovrRelease (s : State) : State :=
  if s.on Reg.INL_OVR_STATUS_ACTIVE then
    ({ s with canvases := trigCanvases 0 [] s.canvases }.setFld Reg.INL_OVR_STATUS_ACTIVE 0).showSwitching
  else s

/-- The other fields of a write of INL_OVR_CTRL. -/
def State.ovrCtrl (s : State) (v : Word) : State := s.plainWrite 0xA0020 v 0 [3, 4]

/-- INL_OVR_CTRL takes a written word (R257, R264): TRIGGER activates the set, RELEASE releases; a write of both is ignored. -/
def State.ovrWrite (s : State) (v : Word) : State :=
  if bitsOf v 3 1 = 1 ∧ bitsOf v 4 1 = 1 then s
  else if bitsOf v 3 1 = 1 then (s.ovrCtrl v).ovrTrigger (bitsOf v 0 3) 0
  else if bitsOf v 4 1 = 1 then (s.ovrCtrl v).ovrRelease
  else s.ovrCtrl v

/-- OVERRIDE_TRIGGER_WRITE (R257, R264): a write of TRIGGER. -/
def execOverrideTriggerWrite (v : Word) (now : Nat) (s : State) : Host.Outcome State Fault Refusal :=
  .next ((s.at now).onWrite .host 0xA0020 v (fun s => s.ovrWrite v))

/-- OVERRIDE_RELEASE_WRITE (R257, R264): a write of RELEASE. -/
def execOverrideReleaseWrite (v : Word) (now : Nat) (s : State) : Host.Outcome State Fault Refusal :=
  .next ((s.at now).onWrite .host 0xA0020 v (fun s => s.ovrWrite v))

/-- Whether GPIO g is the one that triggers: a pin set as an output never does (R257, R478). -/
def State.ovrGpio (s : State) (g : Nat) : Bool :=
  g < 16 && s.on Reg.INL_OVR_CTRL_GPIO_EN && s.fld Reg.INL_OVR_CTRL_GPIO_SEL = g && !(s.fld Reg.EVM_GPIO_DIR_DIR).testBit g

/-- OVERRIDE_GPIO_ASSERT (R257): the debounced assertion activates GPIO_SET. -/
def execOverrideGpioAssert (g now : Nat) (s : State) : Host.Outcome State Fault Refusal :=
  let s := s.at now
  .next (if s.ovrGpio g then s.ovrTrigger (s.fld Reg.INL_OVR_CTRL_GPIO_SET) 2 else s)

/-- OVERRIDE_GPIO_DEASSERT (R257): the deassertion releases, with GPIO_RELEASE = 1. -/
def execOverrideGpioDeassert (g now : Nat) (s : State) : Host.Outcome State Fault Refusal :=
  let s := s.at now
  .next (if s.ovrGpio g ∧ s.on Reg.INL_OVR_CTRL_GPIO_RELEASE then s.ovrRelease else s)

/-! ## Commit points (R251, R253, R254) -/

/-- A canvas picture is dropped (R254) (DEDUCED, log entry 80). -/
def State.dropPic (s : State) (i : Nat) : State :=
  (s.bump (Cnt.INL_PICS_DROPPED i)).raise (96 + i) (Reg.INL_FAULT_DROPPED i)

/-- The next canvas picture's number advances; the start of the one whose commit point it is, is known (R229) (DEDUCED, log entry 80). -/
def State.nextPic (s : State) (cv : Nat) : State :=
  s.setCv cv { s.cv cv with c := (s.cv cv).c + 1, startAt := s.startNs (s.cv cv) }

/-- The picture that a video layer takes at a commit point (R233): the latest complete one, or with SYNC = ROW the one whose rows
have begun to arrive, with the picture before it; none before the stream has completed a picture. -/
def Stream.picFor (x : Stream) (sync : Nat) : Option DpbPic × Option DpbPic :=
  match x.dec.cur with
  | some p =>
    if sync = 1 ∧ p.shown ∧ ¬ p.skip ∧ p.rowsDone ≠ [] ∧ x.dec.prev.isSome then (some ⟨p.id, p.poc, p.surf, p.refSurf, [], p.taint, x.dec.hdr⟩, x.dec.prev) else (x.dec.prev, none)
  | none => (x.dec.prev, none)

/-- The pictures that the open decode streams offer at a commit point, by SID * 2 + SYNC. -/
def offered : Tbl Stream → Tbl (Option DpbPic × Option DpbPic)
  | [] => []
  | (k, x) :: r =>
    if x.dir = 0 ∧ x.state ≠ 0 then tset (none, none) (tset (none, none) (offered r) (2 * k) (x.picFor 0)) (2 * k + 1) (x.picFor 1)
    else offered r

/-- COMMIT_POINT (R251 to R254, R257, R439): a COMP request that still waits is withdrawn and its picture dropped; the override
switches; the picture is dropped, or its COMP entry asked for, and where a bucket can serve it the commits are evaluated. -/
def execCommitPoint (cv now : Nat) (s : State) : Host.Outcome State Fault Refusal :=
  let s := s.at now
  match (s.cv cv).inlay with
  | none => .next s
  | some i =>
    if ¬ (s.inService ∨ s.outputsHeld) then .next s
    else
      let s := if (s.cv cv).asked.isSome then
          ((s.withdraw .comp cv).setCv cv { s.cv cv with asked := none, judged := false }).dropPic i
        else s
      let s := s.takeSwitch i cv
      let v := s.cv cv
      if s.outputsHeld ∧ v.ovr.isNone then .next (((s.evalCommits i cv true v.queue).dropPic i).nextPic cv)
      else if v.cur.isSome ∨ 2 ≤ v.delivering.length
          ∨ (tget 0 v.surfC v.nextSurf ≠ 0 ∧ s.surfHeld (tget 0 v.surfC v.nextSurf - 1) (s.feeds cv)) then
        .next ((s.dropPic i).nextPic cv)
      else
        let s := (s.ask .comp (s.cvLive cv) cv cv).setCv cv { v with asked := some v.c, judged := false, taken := offered s.streams }
        let s := if (s.servable .comp cv).isSome then
            let s := s.evalCommits i cv false v.queue
            s.setCv cv { s.cv cv with judged := true }
          else s
        .next (s.nextPic cv)

/-- Whether two pictures are one. -/
def samePic (a b : Option DpbPic) : Bool := a.map (fun p => (p.id, p.poc, p.surf)) = b.map (fun p => (p.id, p.poc, p.surf))

/-- Whether the colour that a stream signals differs from a canvas's in primaries or transfer (R230). -/
def Stream.mismatches (x : Stream) (v : Canvas) : Bool :=
  match x.dec.seq with
  | some q => q.primaries ≠ v.colour 0 || q.transfer ≠ v.colour 1
  | none => false

/-- Whether layer k of a canvas has shown one picture for 1 s or more (R233). -/
def State.layerStale (s : State) (v : Canvas) (k : Nat) (l : Layer) : Bool :=
  let h := tget shown0 v.shows k
  l.video && h.pic.isSome && decide (1000000 ≤ s.since h.since)

/-- Whether some video layer of a canvas has. -/
def State.anyStale (s : State) (v : Canvas) : Bool :=
  ((upTo 0 v.layers.length).zip v.layers).any (fun e => s.layerStale v e.1 e.2)

/-- The video layers of a stack take the pictures of the commit point; one that goes on with its picture has the metadata that DEC_PIC_END
attached to it meanwhile (R60); STALE falls where none is stale any more. -/
def State.takePics (s : State) (i cv : Nat) : List (Nat × Layer) → State
  | [] => s.setCv cv { s.cv cv with stale := (s.cv cv).stale && s.anyStale (s.cv cv) }
  | (k, l) :: rest =>
    let v := s.cv cv
    let old := tget shown0 v.shows k
    let t := tget (none, none) v.taken (2 * l.sid + l.sync)
    if ¬ l.video then s.takePics i cv rest
    else if t.1.isNone ∨ samePic t.1 old.pic then
      (s.setCv cv { v with shows := tset shown0 v.shows k { old with pic := t.1.orElse (fun _ => old.pic), fresh := false } }).takePics i cv rest
    else
      let s := s.setCv cv { v with shows := tset shown0 v.shows k ⟨t.1, s.time, t.2, true⟩ }
      let s := if (s.stream l.sid).mismatches v then s.bump (Cnt.INL_COLOUR_MISMATCH i) else s
      s.takePics i cv rest

/-- The metadata of the picture that each video layer of a canvas shows (R60); an override's layers are not the canvas's
(DEDUCED, log entry 84). -/
def Canvas.shownHdr (v : Canvas) : Tbl Hdr :=
  if v.ovr.isSome then []
  else v.shows.foldl (fun t e => match e.2.pic with
    | some p => tset noHdr t e.1 p.hdr
    | none => t) []

/-- COMP_GRANT (R253): the entry is granted; commits not yet evaluated are evaluated now, and composition starts. -/
def execCompGrant (cv now : Nat) (s : State) : Host.Outcome State Fault Refusal :=
  let s := s.at now
  match (s.cv cv).inlay, (s.cv cv).asked, s.grantBucket .comp cv with
  | some i, some c, some b =>
    let e := s.nextEntry
    let s := s.grant .comp cv b 1 [c % 65536]
    let s := if (s.cv cv).judged then s else s.evalCommits i cv s.outputsHeld (s.cv cv).queue
    let s := if (s.cv cv).ovr.isSome then s else s.takePics i cv ((upTo 0 (s.cv cv).layers.length).zip (s.cv cv).layers)
    let v := s.cv cv
    let pic : CvPic := { c := c, entry := e, start := v.startOf c, surf := v.nextSurf, bands := 0, live := s.cvLive cv,
                         allChanged := v.all || c = 0 || v.lastPic ≠ some (c - 1) }
    .next (s.setCv cv { v with asked := none, judged := false, cur := some pic, picSeq := c % 65536,
                               surfC := tset 0 v.surfC v.nextSurf (c + 1), surfHdr := tset [] v.surfHdr v.nextSurf v.shownHdr })
  | _, _, _ => .next s

/-! ## Bands (R245 to R249) -/

/-- What is composed: the Inlay, the canvas, its stack from bottom to top with what each layer shows, and the picture. -/
structure CompCtx where
  i : Nat
  v : Canvas
  stack : List (Layer × Shown)
  pic : CvPic
  hints : Bool
deriving DecidableEq, Repr

/-- The context of a canvas's running picture. -/
def State.compCtx (s : State) (i cv : Nat) (p : CvPic) : CompCtx :=
  let v := s.cv cv
  let own := v.ovr.isNone
  ⟨i, v, (bottomUp v.tableOrder (s.stackOf cv)).map (fun e => (e.2, if own then tget shown0 v.shows e.1 else shown0)), p,
    (s.feeds cv).isSome && !s.outputsHeld⟩

/-- The composed sample (x, y) of plane p (R241). -/
def State.compose (s : State) (k : CompCtx) (p x y : Nat) : Nat :=
  k.stack.foldl (fun d e => let z := s.layerAt k.i k.v.chroma e.1 e.2 p x y; blend z.1 d z.2) (k.v.background p)

/-- The samples of plane p in a cell. -/
def Canvas.cellPx (v : Canvas) (p row col : Nat) : List (Nat × Nat) :=
  let sx := planeSx v.chroma p
  let sy := planeSy v.chroma p
  let x0 := 16 * col / sx
  let y0 := 16 * row / sy
  rectPx x0 y0 (min (16 / sx) (v.width / sx - x0)) (min (16 / sy) (v.height / sy - y0))

/-- Whether a test holds at some sample of a cell. -/
def Canvas.cellAny (v : Canvas) (row col : Nat) (f : Nat → Nat → Nat → Bool) : Bool :=
  (upTo 0 3).any (fun p => (v.cellPx p row col).any (fun q => f p q.1 q.2))

/-- Whether a layer contributes to a cell (R248). -/
def State.contributes (s : State) (k : CompCtx) (row col : Nat) (e : Layer × Shown) : Bool :=
  k.v.cellAny row col (fun p x y => (s.layerAt k.i k.v.chroma e.1 e.2 p x y).2 != 0)

/-- Whether a source sample of a cell is lost. -/
def State.cellPoison (s : State) (k : CompCtx) (row col : Nat) : Bool :=
  k.stack.any (fun e => k.v.cellAny row col (fun p x y => s.layerLost k.i k.v.chroma e.1 e.2 p x y))

/-- Whether a rectangle touches a cell (DEDUCED, log entry 81). -/
def CvRect.touches (r : CvRect) (row col : Nat) : Bool :=
  decide (0 < r.w) && decide (0 < r.h) && decide (r.x < ((16 * col + 16 : Nat) : Int)) && decide (((16 * col : Nat) : Int) < r.x + r.w)
    && decide (r.y < ((16 * row + 16 : Nat) : Int)) && decide (((16 * row : Nat) : Int) < r.y + r.h)

/-- CHANGED of a cell (R247). A canvas without a stream has no hint map, and all of it is composed (DEDUCED, log entry 81). -/
def State.cellChanged (s : State) (k : CompCtx) (row col : Nat) : Bool :=
  !k.hints || k.pic.allChanged || k.v.rects.any (fun r => r.touches row col)
    || k.stack.any (fun e => e.1.video && e.2.fresh && s.contributes k row col e)
    || tget false k.v.poison (cellKey (k.pic.c + 1) row col) || s.cellPoison k row col

/-- CLASS of a cell (R248). -/
def State.cellClass (s : State) (k : CompCtx) (row col : Nat) : Nat :=
  k.stack.foldl (fun a e => if e.1.hint < a ∧ s.contributes k row col e then e.1.hint else a) 2

/-- The canvas surface at an index. -/
def Canvas.surf (v : Canvas) (k : Nat) : Surf × Nat := nth (⟨0, 0, 0, 0, 0⟩, 0) v.surfs k

/-- The samples of tile (tx, ty) of plane p: composed, or in a cell not CHANGED copied from the previous canvas surface; a copy of a
lost tile is lost (R238). -/
def State.canvasTile (s : State) (k : CompCtx) (changed : List Bool) (p tx ty : Nat) : Option (List Nat) :=
  let u := (k.v.surf k.pic.surf).1
  let sx := planeSx k.v.chroma p
  let at_ (j : Nat) : Option Nat :=
    let x := min (32 * tx + j % 32) (planeW u p - 1)
    let y := min (4 * ty + j / 32) (planeH u p - 1)
    if nth true changed (x * sx / 16) then some (s.compose k p x y)
    else s.sample (k.v.surf (k.v.last.getD k.pic.surf)).1 p x y
  (upTo 0 128).foldr (fun j a => match at_ j, a with
    | some v, some l => some (v :: l)
    | _, _ => none) (some [])

/-- The tiles of plane p that band `row` covers. -/
def Canvas.bandTiles (v : Canvas) (u : Surf) (p row : Nat) : List (Nat × Nat) :=
  let sy := planeSy v.chroma p
  let t0 := 16 * row / sy / 4
  let t1 := min ((planeH u p + 3) / 4) ((16 * (row + 1) / sy + 3) / 4)
  rectPx 0 t0 ((planeW u p + 31) / 32) (t1 - t0)

/-- The samples of a band are written to the canvas surface; `src` is the state whose surfaces are read. -/
def State.writeBand (s src : State) (k : CompCtx) (changed : List Bool) (row : Nat) : State :=
  let u := (k.v.surf k.pic.surf).1
  (upTo 0 3).foldl (fun t p => (k.v.bandTiles u p row).foldl (fun t q =>
    t.setTile u p (q.2 * ((planeW u p + 31) / 32) + q.1) (src.canvasTile k changed p q.1 q.2)) t) s

/-- The hint-map cell row of a band (R149) (DEDUCED, log entry 81). -/
def State.writeHints (s src : State) (k : CompCtx) (changed : List Bool) (row : Nat) : State :=
  let n := cellsAcross k.v.width
  let cells := ((upTo 0 n).zip changed).map (fun z => (if z.2 then 1 else 0) + 2 * src.cellClass k row z.1)
  let pad := List.replicate (cellRowBytes k.v.width - 4 - n) 0
  s.putBytes ((k.v.surf k.pic.surf).2 + row * cellRowBytes k.v.width)
    (leBytes (2 ^ 31 + row % 4096 * 65536 + k.pic.c % 65536) 4 ++ cells ++ pad)

/-! ### The lines that a band reads -/

/-- The source lines of a layer's crop that canvas lines [a, b) read: those of the filter's taps where it is scaled (R242). -/
def srcLines (l : Layer) (sh : Shown) (a b : Nat) : List Nat :=
  let c := layerCrop l sh
  let v0 := max 0 ((a : Int) - l.dy)
  let v1 := min ((l.dh : Nat) : Int) ((b : Int) - l.dy)
  if v1 ≤ v0 ∨ c.h = 0 then []
  else if c.h = l.dh then upTo (c.y + v0.toNat) (v1 - v0).toNat
  else
    let lo := heldIn (srcPos c.h l.dh v0.toNat / 65536 - 2) c.h
    let hi := heldIn (srcPos c.h l.dh (v1.toNat - 1) / 65536 + 3) c.h
    upTo (c.y + lo) (hi + 1 - lo)

/-- Lines that are not yet final when a band reads them (R233). -/
def State.staleLines (s : State) (k : CompCtx) (row : Nat) : Nat :=
  k.stack.foldl (fun n e => match e.2.pic with
    | some p =>
      if e.1.video ∧ e.1.sync = 1 then
        n + ((srcLines e.1 e.2 (16 * row) (min k.v.height (16 * row + 16))).filter (fun y => !(s.stream e.1.sid).lineFinal p y)).length
      else n
    | none => n) 0

/-- POISON tiles among those that a band reads (R238): the tiles of the lines read, across the crop. -/
def State.poisonTiles (s : State) (k : CompCtx) (row : Nat) : Nat :=
  k.stack.foldl (fun n e =>
    let u := if e.1.video then (e.2.pic.map (fun p => p.surf)).getD ⟨0, 0, 0, 0, 0⟩ else e.1.surf
    if 8 ≤ u.format ∨ (e.1.video ∧ e.2.pic.isNone) then n
    else
      let c := layerCrop e.1 e.2
      let ys := srcLines e.1 e.2 (16 * row) (min k.v.height (16 * row + 16))
      n + ((upTo 0 (planesOf u.format)).map (fun p =>
        let sx := planeSx u.format p
        let tys := (ys.map (fun y => y / planeSy u.format p / 4)).eraseDups
        let txs := upTo (c.x / sx / 32) (((c.x + c.w + sx - 1) / sx + 31) / 32 - c.x / sx / 32)
        (tys.map (fun ty => (txs.filter (fun tx => (s.tile u p (ty * ((planeW u p + 31) / 32) + tx)).isNone)).length)).sum)).sum) 0

/-! ### Scaled copies (R245) -/

/-- Sample (x, y) of plane p of a copy at scale sc of a canvas surface: the 4-tap chroma filter of the ratio's band on every plane. -/
def State.copySample (s : State) (i : Nat) (u : Surf) (sc : Nat × Nat) (p x y : Nat) : Option Nat :=
  let band := ratioBand sc.2 sc.1
  let filt (t0 size k : Nat) (f : Nat → Option Nat) : Option Nat :=
    let pos := srcPos sc.2 sc.1 k
    let term (t : Nat) : Option Int :=
      (f (heldIn (pos / 65536 + (t : Int) - 1) size)).map (fun v => s.coef i band ((pos % 65536).toNat / 1024) (t0 + t) * (v : Int))
    ((upTo 0 4).foldl (fun a t => match a, term t with
      | some x, some y => some (x + y)
      | _, _ => none) (some 0)).map (fun v => (max 0 (min 16383 ((v + 128) / 256))).toNat)
  filt 18 (planeW u p) x (fun q => filt 14 (planeH u p) y (fun r => s.sample u p q r))

/-- Writes block row j of a copy. -/
def State.copyRow (s : State) (i : Nat) (u d : Surf) (sc : Nat × Nat) (block j : Nat) : State :=
  (upTo 0 (planesOf d.format)).foldl (fun t p =>
    let h := block / planeSy d.format p
    let t0 := h * j / 4
    let t1 := min ((planeH d p + 3) / 4) ((h * (j + 1) + 3) / 4)
    (rectPx 0 t0 ((planeW d p + 31) / 32) (t1 - t0)).foldl (fun t q =>
      t.setTile d p (q.2 * ((planeW d p + 31) / 32) + q.1)
        ((upTo 0 128).foldr (fun n a =>
          match s.copySample i u sc p (min (32 * q.1 + n % 32) (planeW d p - 1)) (min (4 * q.2 + n / 32) (planeH d p - 1)), a with
          | some v, some l => some (v :: l)
          | _, _ => none) (some []))) t) s

/-- The block rows of the scaled copies whose lines are composed once lines [0, b) are, and were not with [0, a). -/
def State.writeCopies (s : State) (k : CompCtx) (a b : Nat) : Option (Nat × Stream) → State
  | none => s
  | some (_, x) =>
    (upTo 0 x.rends).foldl (fun t r =>
      let g := s.geo x r
      if g.sc = (1, 1) then t
      else
        let need (j : Nat) : Nat := min g.cvH (((j + 1) * g.block * g.sc.2 + g.sc.1 - 1) / g.sc.1 + 2)
        let rows := (upTo 0 g.rows).filter (fun j => a < need j && need j ≤ b)
        rows.foldl (fun t j =>
          t.copyRow k.i (k.v.surf k.pic.surf).1 (nth ⟨0, 0, 0, 0, 0⟩ (nth [] k.v.copies r) k.pic.surf) g.sc g.block j) t) s

/-- The marks of the cells of a band that were poisoned. -/
def markPoison (c row : Nat) (bad : List Bool) (t : Tbl Bool) : Tbl Bool :=
  ((upTo 0 bad.length).zip bad).foldl (fun t z => tset false t (cellKey c row z.1) z.2) t

/-- The last band is written: the picture is composed, and its entry waits for delivery (R253). -/
def State.picComposed (s : State) (i cv : Nat) (p : CvPic) : State :=
  let v := s.cv cv
  let s := s.setCv cv { v with cur := none, delivering := v.delivering ++ [p], last := some p.surf, lastPic := some p.c, rects := [],
                               all := false }
  let s := if cv < 4 ∧ (s.head cv).blank then s.setHead cv { s.head cv with blank := false } else s
  ((s.bump (Cnt.INL_PICS_COMPOSED i)).setLState p.entry 2).pulse (131 + 3 * i)

/-- The due time of the next band of a picture, in ns of PTP time: its last line's, 8 lines earlier on a canvas that drives a head
(R249). -/
def State.bandDue (s : State) (cv : Nat) (p : CvPic) : Nat :=
  let v := s.cv cv
  let lead := if cv < 4 ∧ s.hasHead cv ∧ s.on (Reg.DP_CTRL_ENABLE cv) then 8 else 0
  p.start + (16 * p.bands + 16 - lead) * v.period * 1000 / (27 * atLeast1 v.lines)

/-- BAND_DONE (R233, R238, R240 to R249, R254): the next band of a canvas's running picture is composed and written with its
hint-map cell row. Across canvases the bands come in the order of the commands (DESIGN CHOICE, log entry 140). -/
def execBandDone (cv now : Nat) (s : State) : Host.Outcome State Fault Refusal :=
  let s := s.at now
  match (s.cv cv).inlay, (s.cv cv).cur with
  | some i, some p =>
    let k := s.compCtx i cv p
    let row := p.bands
    if k.v.bands ≤ row then .next s
    else
      let cols := upTo 0 (cellsAcross k.v.width)
      let changed := cols.map (fun col => s.cellChanged k row col)
      let bad := cols.map (fun col => s.cellPoison k row col)
      let lost := s.poisonTiles k row
      let t := s.writeBand s k changed row
      let t := if k.hints then t.writeHints s k changed row else t
      let t := if k.hints then t.writeCopies k (16 * row) (min k.v.height (16 * row + 16)) (s.feeds cv) else t
      let t := (t.bump (Cnt.INL_CELLS_COPIED i) (changed.filter (fun b => !b)).length).bump (Cnt.INL_ROWS_STALE i) (s.staleLines k row)
      let t := if lost = 0 then t else (t.bump (Cnt.INL_TILES_POISON i) lost).raise (96 + i) (Reg.INL_FAULT_POISON i)
      let t := if s.bandDue cv p < s.ptpNs then (t.bump (Cnt.INL_BANDS_LATE i)).raise (96 + i) (Reg.INL_FAULT_BAND_LATE i) else t
      let t := t.headTear cv p.c row
      let q := { p with bands := row + 1 }
      let t := t.setCv cv { t.cv cv with cur := some q, poison := markPoison p.c row bad (t.cv cv).poison }
      let t := (t.setLWords p.entry [p.c % 65536 + (row + 1) % 65536 * 65536]).pulse (130 + 3 * i)
      .next (if row + 1 = k.v.bands then t.picComposed i cv q else t)
  | _, _ => .next s

/-- COMP_DELIVERED (R27): the last line of the canvas's oldest composed picture is delivered, and its entry released. -/
def execCompDelivered (cv now : Nat) (s : State) : Host.Outcome State Fault Refusal :=
  let s := s.at now
  match (s.cv cv).delivering with
  | p :: rest => .next ((s.setCv cv { s.cv cv with delivering := rest }).release p.entry).judge
  | [] => .next s

/-- Latches a fence in the commits that wait for it. -/
def latchFence (src : Nat) : Tbl Canvas → Tbl Canvas
  | [] => []
  | (n, v) :: r =>
    let q := v.queue.map (fun m => { m with fences := m.fences.map (fun f => if f.1 = src then (f.1, true) else f) })
    (n, { v with queue := q }) :: latchFence src r

/-- FENCE_LATCH (R252): the pulse is latched for every queued commit that names its source; with none it is discarded. -/
def execFenceLatch (src : Nat) (s : State) : Host.Outcome State Fault Refusal :=
  .next { s with canvases := latchFence src s.canvases }

/-- LAYER_STALE (R233): a video layer of the canvas has shown one picture for 1 s or more. -/
def execLayerStale (cv now : Nat) (s : State) : Host.Outcome State Fault Refusal :=
  let s := s.at now
  .next (if s.anyStale (s.cv cv) then s.setCv cv { s.cv cv with stale := true } else s)

end Sys2Proof.Machine
end

