-- ==== Sys2Proof/Machine/Records.lean ====
section
/-!
DEFINITION. Configuration records (R446, R447): their bytes, canvases and their surfaces (R227, R228), layers and commits as
they reach a canvas's queue (R250), and override sets (R256).
-/
namespace Sys2Proof.Machine

/-! ## Bytes of records and items -/

/-- The 32-bit values of a list of bytes, `n` of them. -/
def words32 : Nat → List Nat → List Nat
  | 0, _ => []
  | n + 1, l => leNat (l.take 4) :: words32 n (l.drop 4)

/-- The items that bytes hold: each a 4-byte header and its values; none where they do not end with one. -/
def parseItems : Nat → List Nat → Option (List Item)
  | _, [] => some []
  | 0, _ => none
  | fuel + 1, l =>
    let h := leNat (l.take 4)
    let k := nbits h 24 8
    if l.length < 4 + 4 * k then none
    else
      match parseItems fuel (l.drop (4 + 4 * k)) with
      | none => none
      | some r => some (⟨nbits h 0 8, nbits h 8 8, nbits h 16 8, words32 k (l.drop 4)⟩ :: r)

/-- The TYPE, body and rest of the record that bytes begin with; none where the header or the body is not whole, or the
reserved bytes are not 0. -/
def parseRecord (l : List Nat) : Option (Nat × List Nat × List Nat) :=
  let n := leNat ((l.drop 4).take 4)
  if l.length < 8 + n ∨ leNat ((l.drop 2).take 2) ≠ 0 then none
  else some (leNat (l.take 2), (l.drop 8).take n, l.drop (8 + (n + 7) / 8 * 8))

/-- The SID and items of a payload that is one record of a type. -/
def parseStream (type : Nat) (l : List Nat) : Option (Nat × List Item) :=
  match parseRecord l with
  | some (t, body, rest) =>
    if t = type ∧ rest = [] ∧ 4 ≤ body.length ∧ leNat ((body.drop 2).take 2) = 0 then
      (parseItems body.length (body.drop 4)).map (fun is => (leNat (body.take 2), is))
    else none
  | none => none

/-- Dirty rectangles: X, Y, W and H of 16 bits each. -/
def parseRects : Nat → List Nat → List Rect
  | 0, _ => []
  | n + 1, l =>
    ⟨leNat (l.take 2), leNat ((l.drop 2).take 2), leNat ((l.drop 4).take 2), leNat ((l.drop 6).take 2)⟩ :: parseRects n (l.drop 8)

/-- The layer records of a CANVAS_COMMIT (R383): `n` records for canvas cv, each with its dirty rectangles. -/
def parseCommit (cv : Nat) : Nat → List Nat → Option (List LayerRec)
  | 0, l => if l = [] then some [] else none
  | n + 1, l =>
    match parseRecord l with
    | some (t, body, rest) =>
      let k := leNat (rest.take 2)
      if t ≠ 4 ∨ body.length < 4 ∨ leNat (body.take 2) ≠ cv ∨ rest.length < 2 + 8 * k ∨ 64 < k then none
      else
        match parseItems body.length (body.drop 4), parseCommit cv n (rest.drop (2 + 8 * k)) with
        | some is, some r => some (⟨leNat ((body.drop 2).take 2), is, parseRects k (rest.drop 2)⟩ :: r)
        | _, _ => none
    | none => none

/-! ## Canvases (R227, R228) -/

/-- Whether an item of group 0x06 is known, has its number of values, and each lies in its range. -/
def canvasItemOk (i : Item) : Bool :=
  let v := i.values
  i.group = 6 && i.index = 0 &&
    (match i.row with
     | 0 => v.length = 2 && inRange 64 8192 v && v.all (fun n => n % 2 = 0)
     | 1 => v.length = 1 && inRange 0 2 v
     | 2 => v.length = 1 && inRange 112500 27000000 v
     | 3 => v.length = 1 && inRange 0 16383 v
     | 4 => v.length = 1 && inRange 0 26999999 v
     | 5 => v.length = 3 && inRange 0 16383 v
     | 6 => v.length = 4 && inRange 0 255 (v.take 3) && inRange 0 1 (v.drop 3)
     | 7 => v.length = 1 && inRange 0 1 v
     | 8 => v.length = 1 && inRange 2 8 v
     | _ => false)

/-- Whether the parameters of a canvas hold together (R51, R52, R228). -/
def Canvas.holds (v : Canvas) : Bool :=
  sizeOk v.width v.height && rateOk v.width v.height v.period && v.height + 8 ≤ v.lines && v.lines ≤ 16383
    && v.offset < v.period

/-- Whether a row of group 0x06 sizes an allocation: WIDTH and HEIGHT, CHROMA, SURFACES. -/
def allocRow (row : Nat) : Bool := row = 0 || row = 1 || row = 8

/-- Whether an entry of a canvas's parameters is of a row that sizes an allocation. -/
def allocEntry (e : Nat × Nat) : Bool := allocRow (e.1 / 256 % 256)

/-- A CANVAS record (R228, R445): in LOAD all of it acts; in service what changes no allocation acts at once, and the rest at the
next start, as does a canvas that has no surfaces yet. -/
def State.canvasRec (s : State) (load : Bool) (cv : Nat) (items : List Item) : State × HFin :=
  let t := itemTable (fun _ => true) items
  if 64 ≤ cv then (s, ⟨2, 3, 3, 0, 0⟩)
  else if ¬ items.all canvasItemOk ∨ ¬ hasParam t 6 0 0 ∨ ¬ hasParam t 6 2 0 then (s, payloadFail)
  else if ¬ ({ canvas0 with cfg := t } : Canvas).holds then (s, badParam)
  else if load then (s.setCv cv { s.cv cv with cfg := t }, okFin)
  else
    let v := s.cv cv
    if v.inlay.isNone then (s, okFin)
    else
      let w := { v with cfg := mergeItems (v.cfg.filter allocEntry) (t.filter (fun e => !allocEntry e)) }
      if w.holds then (s.setCv cv w, okFin) else (s, badParam)

/-! ### Allocation (R228, R245, R149) -/

/-- Allocates a Veneer surface at the next free device address (DESIGN CHOICE, log entry 77). -/
def State.allocSurf (s : State) (w h format : Nat) : State × Surf :=
  let u : Surf := ⟨align256 s.heap, w, h, format, 0⟩
  ({ s with heap := u.addr + surfBytes u }, u)

/-- The pictures that a stream's references need. -/
def Stream.refPics (x : Stream) : Nat :=
  let y := x.rendition 0
  nth 1 [1, y.nref, 2, 8] y.structure_

/-- SURFACES of a canvas (R228) (DESIGN CHOICE, log entry 77). -/
def State.surfCount (s : State) (cv : Nat) : Nat :=
  param (s.cv cv).cfg 6 8 0 (match s.feeds cv with
    | some (_, x) => min 8 (2 + x.refPics)
    | none => 3)

/-- Allocates n canvas surfaces with a hint map each. -/
def State.allocCv (s : State) (cv : Nat) : Nat → State
  | 0 => s
  | n + 1 =>
    let v := s.cv cv
    let r := s.allocSurf v.width v.height v.chroma
    let s := r.1
    let hint := (s.heap + 31) / 32 * 32
    let s := { s with heap := hint + v.bands * cellRowBytes v.width }
    let v := s.cv cv
    (s.setCv cv { v with surfs := v.surfs ++ [(r.2, hint)] }).allocCv cv n

/-- Allocates n scaled copies of a size. -/
def State.allocList (s : State) (w h format : Nat) : Nat → State × List Surf
  | 0 => (s, [])
  | n + 1 =>
    let r := s.allocSurf w h format
    let q := r.1.allocList w h format n
    (q.1, r.2 :: q.2)

/-- Allocates the scaled copies of the renditions of the stream that a canvas feeds, beside those that it has. -/
def State.allocCopies (s : State) (cv : Nat) (x : Stream) : List Nat → State
  | [] => s
  | r :: rest =>
    let v := s.cv cv
    if r < v.copies.length then s.allocCopies cv x rest
    else
      let n := if (x.rendition r).scale = (1, 1) then 0 else v.surfs.length
      let q := s.allocList (s.rendW x r) (s.rendH x r) v.chroma n
      (q.1.setCv cv { v with copies := v.copies ++ [q.2] }).allocCopies cv x rest

/-- The copies of the canvas of an open encode stream. -/
def State.streamCopies (s : State) (sid : Nat) : State :=
  let x := s.stream sid
  if x.dir = 1 ∧ x.state ≠ 0 ∧ (s.cv x.canvas).surfs ≠ [] then s.allocCopies x.canvas x (upTo 0 x.rends) else s

/-- A configured canvas has its Inlay and its surfaces at the end of LOAD (R227, R228): which Inlay is a free value
(DESIGN CHOICE, log entry 76). -/
def State.placeCanvas (s : State) (cv : Nat) : State :=
  let v := s.cv cv
  if v.cfg = [] then s
  else
    let i := s.freeVal % partInlays s.part
    let s := s.freeNext.setCv cv { v with inlay := some i, surfs := [], copies := [] }
    let s := if cv < 32 then s.orFld (Reg.INL_CV_MASK_LO_MASK i) (2 ^ cv) else s.orFld (Reg.INL_CV_MASK_HI_MASK i) (2 ^ (cv - 32))
    let s := (s.allocCv cv (s.surfCount cv)).showBuf i
    match s.feeds cv with
    | some (sid, _) => s.streamCopies sid
    | none => s

/-! ## Layers and commits (R231, R250) -/

/-- A LAYER record in LOAD: it sets a layer of its canvas's own stack, or adds the next one. -/
def State.layerLoad (s : State) (cv : Nat) (r : LayerRec) : State × HFin :=
  let v := s.cv cv
  if 64 ≤ cv ∨ v.cfg = [] then (s, ⟨2, 3, 3, 0, 0⟩)
  else match layerOf r.layer r.items, applyRecs v.layers [r] [] with
    | none, _ => (s, payloadFail)
    | some _, none => (s, badParam)
    | some l, some ls =>
      if ls.length ≤ 8 ∧ s.layerOk v.chroma l then (s.setCv cv { v with layers := ls }, okFin) else (s, badParam)

/-- The stack that a canvas will have once its queued commits are applied. -/
def queuedStack (ls : List Layer) : List Commit → List Layer
  | [] => ls
  | m :: rest => queuedStack ((applyRecs ls m.recs []).getD ls) rest

/-- A commit reaches a canvas's queue (R250): the first check that fails ends it; else it waits (none). -/
def State.commitIn (s : State) (own cv : Nat) (recs : List LayerRec) (fences : List Nat) : State × Option HFin :=
  let v := s.cv cv
  match v.inlay with
  | none => (s, some ⟨2, 3, 3, 0, 0⟩)
  | some i =>
    let refuse (f : HFin) : State × Option HFin := (s.bump (Cnt.INL_COMMITS_REFUSED i), some f)
    if recs.any (fun r => (layerOf r.layer r.items).isNone) then refuse payloadFail
    else
      match applyRecs (queuedStack v.layers v.queue) recs [] with
      | none => refuse badParam
      | some ls =>
        if ¬ s.stackOk v 2 ls then refuse badParam
        else if 8 ≤ v.queue.length then refuse ⟨8, 0, 0, 0, 0⟩
        else (s.setCv cv { v with queue := v.queue ++ [⟨own, recs, fences.map (fun f => (f, false)), s.time⟩] }, none)

/-- A LAYER record in service acts as a commit that no command waits for (R445). -/
def State.layerService (s : State) (cv : Nat) (r : LayerRec) : State × HFin :=
  let q := s.commitIn (2 ^ 17) cv [r] []
  (q.1, q.2.getD okFin)

/-! ## Override sets (R256) -/

/-- The stack that layer records describe, and how it is refused where they do not. -/
def ovrStack (recs : List LayerRec) : Option (List Layer) := applyRecs [] recs []

/-- Whether a canvas's entry of an override set holds: a configured canvas, and 1 to 8 graphic layers that satisfy R231 and R232. -/
def State.ovrHolds (s : State) (e : Nat × List LayerRec) : Bool :=
  match ovrStack e.2 with
  | some ls => e.1 < 64 && (s.cv e.1).cfg != [] && ls.all (fun l => !l.video) && s.stackOk (s.cv e.1) 1 ls
  | none => false

/-- An OVERRIDE_SET record: replaces the set. Its OVR_REFRESH option is a free value, for no record codes it
(DESIGN CHOICE, log entry 78). -/
def State.ovrRec (s : State) (set : Nat) (canvases : List (Nat × List LayerRec)) : State × HFin :=
  if 8 ≤ set ∨ canvases = [] ∨ canvases.any (fun e => e.2.any (fun r => (layerOf r.layer r.items).isNone)) then (s, payloadFail)
  else if canvases.all s.ovrHolds then
    let o : OvrSet := ⟨canvases.map (fun e => (e.1, (ovrStack e.2).getD [])), s.freeVal % 2 = 1⟩
    ({ s.freeNext with ovrSets := tset ovrSet0 s.ovrSets set o }, okFin)
  else (s, badParam)

/-! ## Records in service (R445) -/

/-- A record of a CONFIG image that is accepted in service acts as its command would; REG_WRITE and SURFACE act at the next start. -/
def State.serviceRec (s : State) : CfgRec → State × HFin
  | .regWrite _ => (s, okFin)
  | .surface _ _ => (s, okFin)
  | .canvas cv items => s.canvasRec false cv items
  | .layer cv r => s.layerService cv r
  | .stream sid items => let q := s.openStream sid items; (q.1.streamCopies sid, q.2)
  | .streamChange sid items => let q := s.changeStream sid items; (q.1.streamCopies sid, q.2)
  | .overrideSet k cs => s.ovrRec k cs
  | .otpSettings .. => (s, okFin)
  | .lifecycle _ _ => (s, okFin)

end Sys2Proof.Machine
end

