-- ==== Sys2Proof/Machine/RingOps.lean ====
section
/-!
DEFINITION. The ring unit's ports, packets that hold NET entries (R360, R361), and the bypass's states (R344 to R346).
-/
namespace Sys2Proof.Machine

/-- A port that has sent and received nothing. -/
def port0 : Port := ⟨[], [], [], [], none, [], [], [], false, 0, false⟩

/-- Port p: 0 EAST, 1 WEST. -/
def State.port (s : State) (p : Nat) : Port := tget port0 s.ring.ports p

/-- Sets port p. -/
def State.setPort (s : State) (p : Nat) (x : Port) : State := { s with ring := { s.ring with ports := tset port0 s.ring.ports p x } }

/-- The packet that holds NET entry e. -/
def State.net (s : State) (e : Nat) : Option NetEnt := tget none s.ring.nets e

/-- Sets the packet of a NET entry. -/
def State.setNet (s : State) (e : Nat) (x : Option NetEnt) : State := { s with ring := { s.ring with nets := tset none s.ring.nets e x } }

/-- The packets of a rendition that are cut and wait. -/
def State.cut (s : State) (sid r : Nat) : List CutPkt := tget [] s.ring.cuts (sid * 4 + r)

/-- Sets them. -/
def State.setCut (s : State) (sid r : Nat) (l : List CutPkt) : State :=
  { s with ring := { s.ring with cuts := tset [] s.ring.cuts (sid * 4 + r) l } }

/-- The state of the bypass by its codes (R346): 0 BYPASSED, 1 CHECKING, 2 HOLDOFF, 3 SWITCHING_IN, 4 INSERTED, 5 DRAINING,
6 SWITCHING_OUT, 7 FAULT. -/
def State.bypass (s : State) : Nat := s.fld Reg.RNG_BYPASS_STATUS_STATE

/-- Whether port p's link is up. -/
def State.linkUp (s : State) (p : Nat) : Bool := s.on (Reg.RNG_PORT_STATUS_LINK_UP p)

/-- Whether a port sends frames at all: its link is up and the node is in the ring (R346) (DEDUCED, log entry 87). -/
def State.portSends (s : State) (p : Nat) : Bool := s.linkUp p && (s.bypass = 4 || s.bypass = 5)

/-- The transmit queue of a rendition (R358); none where it does not go onto the ring (DEDUCED, log entry 53). -/
def Rend.txq (y : Rend) : Option Nat := if hasParam y.params 8 3 0 then some (param y.params 8 3 0 0 % 256) else none

/-- PAYLOAD_MAX. -/
def Rend.payloadMax (y : Rend) : Nat := param y.params 8 2 0 1400

/-- Appends a message of this node's own to the order-1 or the order-5 list of each port whose link is up. -/
def State.ownSend (s : State) (first : Bool) (m : RingMsg) : List Nat → State
  | [] => s
  | p :: rest =>
    let x := s.port p
    let s := if s.portSends p then
        s.setPort p (if first then { x with ctl := x.ctl ++ [m] } else { x with reply := x.reply ++ [m] })
      else s
    s.ownSend first m rest

/-- Both ports. -/
def bothPorts : List Nat := [0, 1]

/-! ## NET entries (R360, R361) -/

/-- Sets the ORIGIN of a held entry. -/
def State.setLOrigin (s : State) (n origin : Nat) : State :=
  match s.lent n with
  | some e => { s with ldg := { s.ldg with entries := tset none s.ldg.entries n (some { e with origin := origin }) } }
  | none => s

/-- Whether a Coop handle is still named by a packet or a slice of a rendition. -/
def State.handleUsed (s : State) (sid r h : Nat) : Bool :=
  let y := (s.stream sid).rendition r
  s.ring.nets.any (fun e => match e.2 with
      | some n => n.sid = sid && n.r = r && n.pkt.handle = some h
      | none => false)
    || (s.cut sid r).any (fun k => k.handle = some h) || y.ready.any (fun l => l.handle = some h)
    || y.ahead.any (fun l => l.handle = some h)

/-- The buffer of a slice is freed once no packet of it remains (R322, R360). -/
def State.freeSlice (s : State) (sid r : Nat) : Option Nat → State
  | none => s
  | some h => if s.handleUsed sid r h then s else s.coopFreeHandle h

/-- Whether queue q is full on a port whose link is up (R360). -/
def State.txqFull (s : State) (q : Nat) : Bool :=
  bothPorts.any (fun p => s.linkUp p && min 4096 (atLeast1 (s.fld (Reg.RNG_TXQ_CFG1_QUEUE_PKTS q))) ≤ (tget [] (s.port p).txq q).length)

/-- The next cut packet of a rendition asks for its NET entry, unless a request of it waits or its queue is full (R360). -/
def State.netAsk (s : State) (sid r : Nat) : State :=
  match s.cut sid r, ((s.stream sid).rendition r).txq with
  | _ :: _, some q =>
    if (s.reqOf .net (sid * 4 + r)).isSome ∨ s.txqFull q then s else s.ask .net (s.liveSid sid) q (sid * 4 + r)
  | _, _ => s

/-- A copy of NET entry e for port p is gone (R360): the entry shows what remains, and is released with the last copy
(DEDUCED, log entry 85). -/
def State.copyGone (s : State) (e p : Nat) : State :=
  match s.net e with
  | none => s
  | some n =>
    let m := if p = 0 then { n with east := false } else { n with west := false }
    if m.east ∨ m.west then
      let s := (s.setNet e (some m)).setLState e 3
      if m.west then s.setLOrigin e (n.q + 2 ^ 15) else s
    else (((s.setNet e none).release e).freeSlice n.sid n.r n.pkt.handle).netAsk n.sid n.r

/-- A copy is dropped: one of a live stream raises FS110 (R361). -/
def State.copyDrop (s : State) (e p : Nat) : State :=
  let live := (s.net e).any (fun n => n.live)
  let s := if live then s.raise 110 Reg.RNG_STATUS_LIVE_DROP else s
  s.copyGone e p

/-- The copies of a list are dropped. -/
def State.copiesDrop (s : State) (p : Nat) : List TxCopy → State
  | [] => s
  | c :: rest => (s.copyDrop c.entry p).copiesDrop p rest

/-- Every waiting copy of a port is dropped (R361) (DEDUCED, log entry 87). -/
def State.portDrain (s : State) (p : Nat) : State :=
  let x := s.port p
  let all := (x.txq.map (fun e => e.2)).flatten
  (s.setPort p { x with txq := [] }).copiesDrop p all

/-! ## The bypass (R344 to R346) -/

/-- Whether the bypass is requested open (R344). -/
def State.bypOpen (s : State) : Bool := 5 ≤ s.mode && s.mode ≤ 10 && !s.on Reg.RNG_BYPASS_CTRL_FORCE_BYPASS

/-- The bypass enters a state, which pulses BYPASS_STATE (R367); a node that leaves INSERTED no longer sees the ring open (R345). -/
def State.bypTo (s : State) (st : Nat) : State :=
  let s := if s.bypass = 4 then s.status 106 Reg.RNG_STATUS_RING_OPEN 0 else s
  let s := s.setFld Reg.RNG_BYPASS_STATUS_STATE st
  { s with ring := { s.ring with since := s.time, retried := false } }.pulse 160

/-- The bypass is requested open: from BYPASSED it starts CHECKING. -/
def State.bypRequest (s : State) : State :=
  if s.bypass = 0 ∧ s.bypOpen then
    let s := s.bypTo 1
    { s with ring := { s.ring with closed := false } }
  else s

/-- A planned closure (R344, R346): an inserted node drains, and one that has not switched stays BYPASSED (DEDUCED, log entry 86). -/
def State.bypPlanned (s : State) : State :=
  if s.bypass = 4 then ((s.bypTo 5).portDrain 0).portDrain 1
  else if s.bypass = 1 ∨ s.bypass = 2 then s.bypTo 0
  else s

/-- A forced closure: both switches are driven to BYPASS at once. -/
def State.bypForced (s : State) : State :=
  if 3 ≤ s.bypass ∧ s.bypass ≤ 5 then s.bypTo 6
  else if s.bypass = 1 ∨ s.bypass = 2 then s.bypTo 0
  else s

end Sys2Proof.Machine
end

