-- ==== Sys2Proof/Machine/Resets.lean ====
section
/-!
DEFINITION. Resets of PD03 (R370) and of the whole module but PD00 (R431, R433, R438), and what a change of mode brings with it
(R344, R439, R440).
-/
namespace Sys2Proof.Machine

/-! ## PD03 (R370) -/

/-- Whether an address lies in the HIF_Q words of the management queue. -/
def State.mgmtWord (s : State) (a : Nat) : Bool :=
  s.on Reg.RNG_MGMT_CFG_MGMT_EN && decide (0x51000 ≤ a) && (a - 0x51000) / 0x40 = s.fld Reg.RNG_MGMT_CFG_MGMT_QP
    && decide ((a - 0x51000) % 0x40 < 0x20)

/-- The HIF_ registers take their reset values, but for HIF_APERTURE, those of the management queue and, with `link`, the link's
state (DESIGN CHOICE, log entry 100). -/
def State.hifClear (s : State) (link : Bool) : State :=
  let lose (k : Nat) : Bool :=
    let a := k / 32
    a / 0x10000 = 5 && a != 0x5000C && !s.mgmtWord a && !(link && a = 0x50004 && k % 32 < 8)
  { s with flds := tclear lose s.flds, cnts := tclear (fun c => c / 0x10000 = 5) s.cnts }

/-- What the fetched commands of host queues do at a reset of PD03 (R370): one that only waits to report, or for host data that
can no longer come, is abandoned now; the others run on and are abandoned at their end. -/
def State.cmdsLost (s : State) : List Nat → State
  | [] => s
  | e :: r =>
    (match s.cmd e with
     | some c =>
       if c.mgmt.isSome then s
       else if c.reading ∨ c.fin.isSome then s.cplLost e c
       else s.setCmd e (some { c with lost := true })
     | none => s).cmdsLost r

/-- Every host queue goes to DISABLED and loses what it has staged. -/
def State.queuesLost (s : State) : List Nat → State
  | [] => s
  | q :: r => if s.isMgmt q then s.queuesLost r else ((s.withdraw .host q).setHq q hq0).queuesLost r

/-- PD03 is reset (R370); the Bellwether's target TH goes offline with it (PRESUMED, log entry 10). -/
def State.pd03Reset (s : State) (link : Bool) : State :=
  let s := (s.queuesLost (upTo 0 64)).hifClear link
  let s := s.cmdsLost s.cmdEntries
  let s := { s with vecs := [], pmeEn := false, pmeStatus := false, bars := [] }
  ((s.drvHostLost (upTo 0 16)).setFld Reg.HIF_STATUS_SRIS (s.fld Reg.LCM_OTP_SRIS)).goOffline 4

/-- The link trains: its speed and width are free values (DESIGN CHOICE, log entry 100). -/
def State.hostLink (s : State) : State :=
  let sp := 1 + s.freeVal % 5
  let wd := 2 ^ (s.freeNext.freeVal % 4)
  s.freeNext.freeNext.setFlds [(Reg.HIF_STATUS_LINK_UP, 1), (Reg.HIF_STATUS_SPEED, sp), (Reg.HIF_STATUS_WIDTH, wd),
    (pdStateF 3, 0)]

/-! ## The module (R431, R433, R438) -/

/-- The register values of a part at reset that differ from the tables' (R210, R225). -/
def partFlds : Part → Tbl Nat
  | .lmx7260 => []
  | .lmx7242 =>
    [(Reg.SHP_GUAR_G_MPX.key, 7500), (Reg.SHP_GUAR_N.key, 12), (Reg.SHP_LT_SERVICE_MASK.key, 0x0FFF),
     (Reg.SHP_LT_SPARE_MASK.key, 0x3000)]
  | .lmx7221 =>
    [(Reg.SHP_GUAR_G_MPX.key, 3750), (Reg.SHP_GUAR_N.key, 6), (Reg.SHP_LT_SERVICE_MASK.key, 0x3F),
     (Reg.SHP_LT_SPARE_MASK.key, 0x40)]

/-- The machine right after reset, for each part. -/
def State.resetOf (p : Part) : State := { State.reset with part := p, flds := partFlds p }

/-- Whether a register field outlives a reset of every domain but PD00: the mode, OTP and flash values, the supplies, the starts,
and the switches of the bypass. -/
def keptField (k : Nat) : Bool :=
  let a := k / 32
  let lo := k % 32
  a = 4 || a = 8 || (0x1000C ≤ a && a ≤ 0x10020) || a = 0x10004 || a = 0x10028 || (0x10030 ≤ a && a ≤ 0x1003C)
    || (a = 0x10024 && lo = 5) || (0x10100 ≤ a && a < 0x10198 && lo = 14)
    || (a = 0x60028 && lo < 6) || ((a = 0x60018 || a = 0x6001C) && lo = 2) || (a = 0x60030) || (a = 0x60034 && lo = 0)

/-- Merges kept fields into those of a part; the first value of a field is the one it holds. -/
def putFlds (t : Tbl Nat) : Tbl Nat → Tbl Nat
  | [] => t
  | (k, v) :: r => tins k v (tdel k (putFlds t r))

/-- Every domain but PD00 is reset: what OTP, flash, DRAM (until the wipe) and PD00 hold stays, and the commands that come from
outside still come. -/
def State.coldState (s : State) : State :=
  { State.resetOf s.part with
      time := s.time, freeCtr := s.freeCtr, pending := s.pending, toHost := s.toHost, toRing := s.toRing, perst := s.perst
      ldg := ⟨[], [], s.ldg.free⟩
      dram := { Dram.reset with mem := s.dram.mem, poison := s.dram.poison, errs := s.dram.errs, saved := s.dram.saved }
      flt := ⟨if s.bypass = 7 then [(109, true)] else [], [], [], [], [], [], 0, s.flt.flash, none⟩
      flds := putFlds (partFlds s.part) (s.flds.filter (fun e => keptField e.1))
      ring := { Ring.reset with since := s.ring.since, retried := s.ring.retried,
                                ports := s.ring.ports.map (fun e => (e.1, { port0 with ident := e.2.ident })) }
      life := { s.life with start := s.time, servedSince := none, maintSince := none, coolSince := none, restart := none, low := [] } }

/-- The module returns to RESET for a reason of R431, with a forced closure of the bypass. -/
def State.moduleReset (s : State) (reason : Nat) : State := (s.coldState.toMode 1 reason).bypForced

/-- RESTART or a life-cycle transition (R431): an inserted node closes its bypass first, and restarts when it is closed. -/
def State.askRestart (s : State) (reason : Nat) : State :=
  if s.bypass = 4 ∨ s.bypass = 5 then { s with life := { s.life with restart := some reason } }.bypPlanned
  else s.moduleReset reason

/-- Domains go OFF. -/
def State.domainsOff (s : State) : List Nat → State
  | [] => s
  | d :: r => (s.sleep d 3).domainsOff r

/-- The wipe of DRAM (R309, R436): every line reads zero and none is poisoned (DEDUCED, log entry 112). -/
def State.wipeDram (s : State) : State := { s with dram := { s.dram with mem := [], poison := [], errs := [] } }

/-- In RETIRED, once the bypass is closed, only PD00 to PD03 are powered (R442), and every domain but PD00 starts anew; a scrapped
module is wiped (R436). CC1 to CC3 are held in reset, so T1 to T3 are offline (R411), and PD03, which serves HQ0, has its link; R442 is
followed where R16 lists no OFF (DEDUCED, log entries 112 and 125). -/
def State.retireDone (s : State) : State :=
  let s := (s.coldState.domainsOff (upTo 4 34)).setFlds
    [(Reg.BWT_TGT_STATE_OFFLINE 1, 1), (Reg.BWT_TGT_STATE_OFFLINE 2, 1), (Reg.BWT_TGT_STATE_OFFLINE 3, 1)]
  let s := if s.fld Reg.LCM_LC_STATE = 4 then s.wipeDram else s
  if s.perst then s else s.hostLink

/-- RETIRED is entered (R442), with a planned closure if the node is inserted. -/
def State.retire (s : State) (reason : Nat) : State :=
  let s := (s.toMode 11 reason).bypPlanned
  if s.bypass = 0 then s.retireDone else s

/-- What waits for the bypass to be closed, once it is BYPASSED: RETIRED, a restart; else it is asked open again where the mode
asks so. -/
def State.bypClosed (s : State) : State :=
  if s.mode = 11 then s.retireDone
  else match s.life.restart with
    | some reason => s.moduleReset reason
    | none => s.bypRequest

/-! ## Service and the held modes (R431, R439, R440) -/

/-- SERVICE, or DEGRADED where a condition stands. -/
def State.serviceMode (s : State) : Nat := if s.degradeCond then 6 else 5

/-- An open decode stream restarts at its next start point, and an encode stream with a refresh point (R440). -/
def Stream.resume (x : Stream) : Stream :=
  if x.state = 0 then x
  else if x.dir = 0 then { x with dec := { x.dec with needStart := max 1 x.dec.needStart } }
  else x.askRefresh

/-- Every stream resumes. -/
def resumeStreams : Tbl Stream → Tbl Stream
  | [] => []
  | (k, x) :: r => (k, x.resume) :: resumeStreams r

/-- Every canvas resumes with every cell CHANGED. -/
def resumeCanvases : Tbl Canvas → Tbl Canvas
  | [] => []
  | (k, v) :: r => (k, { v with all := true }) :: resumeCanvases r

/-- The module returns from QUIET or HOLD to service (R440). -/
def State.resumeService (s : State) (reason : Nat) : State :=
  let s := s.toMode s.serviceMode reason
  let s := { s with streams := resumeStreams s.streams, canvases := resumeCanvases s.canvases,
                    life := { s.life with coolSince := none } }
  s.bypRequest

/-- Streams that a host command closes do so at once in a held mode (R439): there is no picture to wait for. -/
def Stream.idle (x : Stream) : Bool := x.dec.cur.isNone && (upTo 0 x.rends).all (fun r => (x.rendition r).cur.isNone)

end Sys2Proof.Machine
end

