-- ==== Sys2Proof/Machine/BypassCmds.lean ====
section
/-!
DEFINITION. The ring seen open or closed, the bypass and the ports' links (R341 to R346).
-/
namespace Sys2Proof.Machine

/-- RING_CHECK_MS in microseconds. -/
def State.checkUs (s : State) : Nat := atLeast1 (s.fld Reg.RNG_BYPASS_CFG_CHECK_100MS) * 100000

/-- Whether a bypassed node sees the ring closed (R345) (DEDUCED, log entry 86). -/
def State.seenClosed (s : State) (both oneWay : Nat) : Bool :=
  let n := s.fld Reg.RNG_BYPASS_CFG_RING_NODES
  oneWay = 0 && (n = 0 || n ≤ both + 1)

/-- Remembers how the ring was last seen (DEDUCED, log entry 86). -/
def State.setClosed (s : State) (b : Bool) : State := { s with ring := { s.ring with closed := b } }

/-- RING_CHECK_WINDOW (R345, R346): the end of a window in which supervision sources were heard. A bypassed node that has checked
for a full window holds off, and one that holds off returns to checking where the ring is open; a member sees RING_OPEN, and a
draining one that sees the ring closed switches out. -/
def execRingCheckWindow (both oneWay : Nat) (ownE ownW : Bool) (now : Nat) (s : State) : Host.Outcome State Fault Refusal :=
  let s := s.at now
  let st := s.bypass
  if 4 ≤ st ∧ st ≤ 5 then
    let closed := ownE && ownW
    let s := (s.setClosed closed).status 106 Reg.RNG_STATUS_RING_OPEN (if st = 4 ∧ ¬ closed then 1 else 0)
    .next (if st = 5 ∧ closed then s.bypTo 6 else s)
  else
    let closed := s.seenClosed both oneWay
    let full : Bool := s.checkUs ≤ s.since s.ring.since
    let s := (s.setClosed closed).setFlds [(Reg.RNG_BYPASS_STATUS_SOURCES, min 255 (both + oneWay)),
      (Reg.RNG_BYPASS_STATUS_ONE_WAY, if oneWay = 0 then 0 else 1)]
    .next (if st = 1 ∧ closed ∧ full then s.bypTo 2 else if st = 2 ∧ ¬ closed then s.bypTo 1 else s)

/-- SUPERVISION_SEND (R345): the node's supervision frames join the order-1 frames of both ports. -/
def execSupervisionSend (now : Nat) (s : State) : Host.Outcome State Fault Refusal :=
  .next ((s.at now).ownSend true .supervision bothPorts)

/-- HOLDOFF_EXPIRY (R346): INSERT_SLOT × SLOT_MS have passed with the ring still seen closed. -/
def execHoldoffExpiry (now : Nat) (s : State) : Host.Outcome State Fault Refusal :=
  let s := s.at now
  let wait := s.fld Reg.RNG_BYPASS_CFG_INSERT_SLOT * atLeast1 (s.fld Reg.RNG_BYPASS_CFG_SLOT_100MS) * 100000
  .next (if s.bypass = 2 ∧ s.ring.closed ∧ wait ≤ s.since s.ring.since then s.bypTo 3 else s)

/-- The node is in the ring: each port trains, and the wait of its link begins; a closure that is still requested follows. -/
def State.inserted (s : State) : State :=
  let s := (s.bypTo 4).setFlds [(Reg.RNG_PORT_STATUS_LINK_LATE 0, 0), (Reg.RNG_PORT_STATUS_LINK_LATE 1, 0)]
  if s.bypOpen then s else s.bypPlanned

/-- Both switches are sensed in BYPASS. -/
def State.switchedOut (s : State) : State :=
  let fault : Bool := s.bypass = 7
  let s := s.bypTo 0
  (if fault then s.level 109 false else s).bypClosed

/-- SWITCH_SENSED (R343, R346) (DESIGN CHOICE, log entry 122). -/
def execSwitchSensed (pos now : Nat) (s : State) : Host.Outcome State Fault Refusal :=
  let s := (s.at now).setFld Reg.RNG_BYPASS_STATUS_POSITION pos
  let p := s.fld Reg.RNG_BYPASS_STATUS_POSITION
  .next (if s.bypass = 3 ∧ p = 3 then s.inserted else if (s.bypass = 6 ∨ s.bypass = 7) ∧ p = 0 then s.switchedOut else s)

/-- SWITCH_TIMEOUT (R346): 10 ms without the switches sensed; one retry, then FAULT. -/
def execSwitchTimeout (now : Nat) (s : State) : Host.Outcome State Fault Refusal :=
  let s := s.at now
  if (s.bypass = 3 ∨ s.bypass = 6) ∧ 10000 ≤ s.since s.ring.since then
    if s.ring.retried then .next ((s.bypTo 7).level 109 true)
    else .next { s with ring := { s.ring with retried := true, since := s.time } }
  else .next s

/-- BYPASS_FAULT_RETRY (R346): in FAULT the switches are driven to BYPASS once per second until both are sensed there. -/
def execBypassFaultRetry (pos now : Nat) (s : State) : Host.Outcome State Fault Refusal :=
  let s := s.at now
  if s.bypass = 7 then
    let s := s.setFld Reg.RNG_BYPASS_STATUS_POSITION pos
    .next (if s.fld Reg.RNG_BYPASS_STATUS_POSITION = 0 then s.switchedOut else s)
  else .next s

/-- FORCE_BYPASS (R344): a write of RNG_BYPASS_CTRL; FORCE_BYPASS = 1 makes a planned closure, and 0 takes the request back. -/
def execForceBypass (v : Word) (now : Nat) (s : State) : Host.Outcome State Fault Refusal :=
  let s := (s.at now).plainWrite 0x60024 v 0
  .next (if s.on Reg.RNG_BYPASS_CTRL_FORCE_BYPASS then s.bypPlanned else s.bypRequest)

/-- WITHDRAW_WAIT_EXPIRY (R346). -/
def execWithdrawWaitExpiry (now : Nat) (s : State) : Host.Outcome State Fault Refusal :=
  let s := s.at now
  .next (if s.bypass = 5 ∧ atLeast1 (s.fld Reg.RNG_BYPASS_CTRL_WITHDRAW_WAIT_S) * 1000000 ≤ s.since s.ring.since then s.bypTo 6
    else s)

/-- LINK_WAIT_EXPIRY (R346): a port without a link LINK_WAIT_MS after INSERTED is late and stays down. -/
def execLinkWaitExpiry (p now : Nat) (s : State) : Host.Outcome State Fault Refusal :=
  let s := s.at now
  .next (if p < 2 ∧ s.bypass = 4 ∧ ¬ s.linkUp p
      ∧ atLeast1 (s.fld Reg.RNG_BYPASS_CTRL_LINK_WAIT_10MS) * 10000 ≤ s.since s.ring.since
    then s.setFld (Reg.RNG_PORT_STATUS_LINK_LATE p) 1 else s)

/-- Whether port p runs or tries 25G (R341): the LMX-7221 has 10G only. -/
def State.fast (s : State) (p : Nat) : Bool :=
  let v := s.fld (Reg.RNG_PORT_CFG_SPEED p)
  s.part != .lmx7221 && (v = 1 || (v = 0 && !(s.port p).trySlow))

/-- Whether a port tries rates by itself. -/
def State.autoRate (s : State) (p : Nat) : Bool := s.part != .lmx7221 && s.fld (Reg.RNG_PORT_CFG_SPEED p) = 0

/-- RS0 and RS1 follow the line rate (R342). -/
def State.rateSelect (s : State) (p : Nat) : State := s.setPort p { s.port p with rs := s.fast p }

/-- PORT_LINK_UP (R346): a port of a node in the ring locks at its rate; one that is late stays down. -/
def execPortLinkUp (p now : Nat) (s : State) : Host.Outcome State Fault Refusal :=
  let s := s.at now
  if p < 2 ∧ (s.bypass = 4 ∨ s.bypass = 5) ∧ ¬ s.linkUp p ∧ ¬ s.on (Reg.RNG_PORT_STATUS_LINK_LATE p) then
    let s := s.setFlds [(Reg.RNG_PORT_STATUS_LINK_UP p, 1), (Reg.RNG_PORT_STATUS_RATE_25G p, if s.fast p then 1 else 0)]
    .next ((s.rateSelect p).pulse (158 + p))
  else .next s

/-- PORT_LINK_DOWN (R341, R361, R367): the link goes down, a fault while INSERTED; AUTO starts again at 25G. -/
def execPortLinkDown (p now : Nat) (s : State) : Host.Outcome State Fault Refusal :=
  let s := s.at now
  if p < 2 ∧ s.linkUp p then
    let s := s.setFlds [(Reg.RNG_PORT_STATUS_LINK_UP p, 0), (Reg.RNG_PORT_STATUS_RATE_25G p, 0)]
    let s := if s.bypass = 4 then s.raise (104 + p) (Reg.RNG_PORT_STATUS_LINK_FAIL p) else s
    let s := (s.setPort p { s.port p with trySlow := false }).rateSelect p
    .next (s.pulse (158 + p))
  else .next s

/-- SPEED_TRY_EXPIRY (R341): in AUTO a rate tried for 500 ms gives way to the other. -/
def execSpeedTryExpiry (p now : Nat) (s : State) : Host.Outcome State Fault Refusal :=
  let s := s.at now
  if p < 2 ∧ ¬ s.linkUp p ∧ s.autoRate p then
    .next ((s.setPort p { s.port p with trySlow := !(s.port p).trySlow }).rateSelect p)
  else .next s

/-- SFP_INSERT (R342): the module is identified, and its rate selects follow the line rate (DESIGN CHOICE, log entry 122). -/
def execSfpInsert (p ident : Nat) (s : State) : Host.Outcome State Fault Refusal :=
  if p < 2 then
    .next (((s.setFld (Reg.RNG_PORT_STATUS_MOD_PRESENT p) 1).setPort p { s.port p with ident := ident }).rateSelect p)
  else .next s

end Sys2Proof.Machine
end

