-- ==== Sys2Proof/Machine/DramCmds.lean ====
section
/-!
DEFINITION. The DRAM commands.
-/
namespace Sys2Proof.Machine

/-- DRAM_READ (R292 to R294, R312). -/
def execDramRead (port tag addr len bad : Nat) (s : State) : Host.Outcome State Fault Refusal :=
  .next (s.dramRead port tag addr len bad)

/-- DRAM_READ_RETRY (R294 steps 3 and 4). -/
def execDramReadRetry (port tag addr bad now : Nat) (s : State) : Host.Outcome State Fault Refusal :=
  .next ((s.at now).dramRetry port tag addr bad)

/-- DRAM_WRITE (R292, R295, R312). -/
def execDramWrite (port tag addr : Nat) (bytes : List Nat) (bad : Nat) (s : State) :
    Host.Outcome State Fault Refusal :=
  .next (s.dramWrite port tag addr bytes bad)

/-- REFRESH_SLOT (R302, R304); a quadrant in RET refreshes itself (R306). -/
def execRefreshSlot (ch now : Nat) (s : State) : Host.Outcome State Fault Refusal :=
  let s := s.at now
  .next (if ch < partChannels s.part ∧ s.pd (8 + ch / 4) < 2 then s.refreshSlot ch else s)

/-- DRAM_TEMP_READ (R303, R305). -/
def execDramTempRead (ch : Nat) (temp : Int) (now : Nat) (s : State) : Host.Outcome State Fault Refusal :=
  let s := s.at now
  .next (if ch < partChannels s.part then s.dramTemp ch temp else s)

/-- SCRUB_LINE (R307): while the patrol is enabled and the channel has lines left in this pass. -/
def execScrubLine (ch bad now : Nat) (s : State) : Host.Outcome State Fault Refusal :=
  let s := s.at now
  .next (if ch < partChannels s.part ∧ s.on Reg.DMC_SCRUB_EN ∧ tget 0 s.dram.patrol ch < chLines then s.scrubLine ch bad
    else s)

/-- SOFT_REPAIR (R308): in service, with SOFT_EN, and at most one per channel per second. -/
def execSoftRepair (ch : Nat) (spare : Bool) (now : Nat) (s : State) : Host.Outcome State Fault Refusal :=
  let s := s.at now
  let last := tget 0 s.dram.lastSoft ch
  .next (if ch < partChannels s.part ∧ s.on Reg.DMC_ECC_CTRL_SOFT_EN ∧ s.inService
      ∧ (last = 0 ∨ 1000000 ≤ s.time + 1 - last) then s.softRepair ch spare else s)

/-- DRIFT_TRACK (R311): more than 1/8 UI (8/64) from the trained value sets RETRAIN_DUE and raises FS232 + q. -/
def execDriftTrack (ch drift : Nat) (s : State) : Host.Outcome State Fault Refusal :=
  if ch < partChannels s.part then
    let s := s.setFld (Reg.DMC_CH_STATE_DRIFT ch) (min 255 drift)
    if 8 < drift ∧ ¬ s.on (Reg.DMC_CH_STATE_RETRAIN_DUE ch) then
      .next ((s.setFlds [(Reg.DMC_CH_STATE_RETRAIN_DUE ch, 1), (Reg.DMC_STATUS_RETRAIN_DUE, 1)]).raise (232 + ch / 4)
        Reg.DMC_FAULT_DRIFT (2 ^ (ch / 4)))
    else .next s
  else .next s

/-- BW_WINDOW (R312). -/
def execBwWindow (now : Nat) (s : State) : Host.Outcome State Fault Refusal := .next ((s.at now).bwWindow (upTo 0 16))

/-- DMC_LOCK (R297): the lock holds, and the map that the regions describe comes into force, only if the used regions
cover granules 0 to 1,023 exactly once; `also` are the writes of the same cycle, which the check sees (R9). -/
def execDmcLock (also : List (Nat × Word)) (s : State) : Host.Outcome State Fault Refusal :=
  let s := s.plainWrites (also.filter (fun w => w.1 / 0x10000 = 9))
  if s.on Reg.DMC_CTRL_LOCK then .next s
  else if mapCovers s.regions then
    .next ({ s with dram := { s.dram with map := s.regions } }.setFlds [(Reg.DMC_CTRL_LOCK, 1), (Reg.DMC_STATUS_CFG_ERR, 0)])
  else .next (s.setFld Reg.DMC_STATUS_CFG_ERR 1)

end Sys2Proof.Machine
end

