-- ==== Sys2Proof/Machine/FaultCmds.lean ====
section
/-!
DEFINITION. The commands of the fault collector: edges, clears, the wires, the log and fault injection (R415 to R422,
R428).
-/
namespace Sys2Proof.Machine

/-- FAULT_EDGE (R419): a rising edge of source k's cause; AER's bit is the interface's own (R394). -/
def execFaultEdge (k now : Nat) (s : State) : Host.Outcome State Fault Refusal :=
  let s := s.at now
  .next (if k = 115 then s.raise 115 Reg.HIF_FAULT_AER_UNCORR else s.faultEdge k)

/-! ## Clearing (R420) -/

/-- Whether a sticky or broken bit of source k may be cleared: its cause is gone and it is not broken. -/
def State.clearable (s : State) (k : Nat) : Bool := !s.cause k && !s.fltBroken k

/-- Writes of 1 to sticky bits, judged on the state at the start of the cycle. -/
def State.clearSticky (s s0 : State) : List Nat → State
  | [] => s
  | k :: r =>
    let s' :=
      if ¬ s0.fltSticky k then s
      else if s0.clearable k then
        { s with flt := { s.flt with sticky := tset false s.flt.sticky k false, count := tset 0 s.flt.count k 0 } }
      else s.bump Cnt.FLT_CLEAR_REFUSED
    s'.clearSticky s0 r

/-- The sources whose bits a written word names in word i of an array of sixteen. -/
def bitSources (i : Nat) (v : Word) : List Nat :=
  if i < 16 then ((upTo 0 32).filter (fun b => v.toNat.testBit b)).map (fun b => 32 * i + b) else []

/-- Rising edges of several sources. -/
def State.faultEdges (s : State) : List Nat → State
  | [] => s
  | k :: r => (s.faultEdge k).faultEdges r

/-- STICKY_CLEAR of FLT_STICKY word i (R420): an edge in the cycle of a successful clear is a new fault, in that of a refused
one it merges. -/
def execStickyClear (i : Nat) (v : Word) (edges : List Nat) (now : Nat) (s : State) : Host.Outcome State Fault Refusal :=
  let s := s.at now
  .next ((s.clearSticky s (bitSources i v)).faultEdges edges)

/-- Writes of 1 to FLT_BROKEN bits. -/
def State.clearBroken (s s0 : State) : List Nat → State
  | [] => s
  | k :: r =>
    let s' :=
      if ¬ tget false s0.flt.latched k then s
      else if s0.clearable k then { s with flt := { s.flt with latched := tset false s.flt.latched k false } }
      else s.bump Cnt.FLT_CLEAR_REFUSED
    s'.clearBroken s0 r

/-- BROKEN_CLEAR of FLT_BROKEN word i (R420). -/
def execBrokenClear (i : Nat) (v : Word) (s : State) : Host.Outcome State Fault Refusal :=
  .next (s.clearBroken s (bitSources i v))

/-! ## The wires (R416, R417) -/

/-- A source's pair is broken: it counts as asserted, its FLT_BROKEN bit sets and FS001 is raised (DEDUCED, log entry 24). -/
def State.breakWire (s : State) (k : Nat) (injected : Bool) : State :=
  if ¬ faultPresent s.part k ∨ s.fltBroken k then s
  else
    let was := s.asserted k
    let f := { s.flt with broken := tset false s.flt.broken k true, latched := tset false s.flt.latched k true }
    let s := { s with flt := f }.bump Cnt.FLT_BROKEN
    let s := if was then s else s.faultEdge k injected
    s.faultEdge 1 injected

/-- WIRE_BROKEN (R416): the pair has been invalid for 8 cycles (DEDUCED, log entry 24). -/
def execWireBroken (k now : Nat) (s : State) : Host.Outcome State Fault Refusal := .next ((s.at now).breakWire k false)

/-- WIRE_RESTORED (R416): the pair has been valid for 1 ms. -/
def execWireRestored (k : Nat) (s : State) : Host.Outcome State Fault Refusal :=
  .next { s with flt := { s.flt with broken := tset false s.flt.broken k false } }

/-- WIRE_TEST in the source's slot (R417): a pair that does not invert is broken. -/
def execWireTest (k : Nat) (inverts : Bool) (now : Nat) (s : State) : Host.Outcome State Fault Refusal :=
  let s := s.at now
  .next (if inverts then s else s.breakWire k false)

/-! ## The log (R422) -/

/-- Word 0 of a log entry (R429). -/
def logWord (e : LogEnt) : Nat :=
  e.source + e.cls * 2 ^ 9 + (if e.broken then 2 ^ 11 else 0) + (if e.injected then 2 ^ 12 else 0)
    + (if e.valid then 2 ^ 13 else 0)

/-- LOG_READ: a read of word 0 of FLT_LOG entry e. -/
def execLogRead (rq : Requester) (e : Nat) (s : State) : Host.Outcome State Fault Refusal :=
  if 64 ≤ e then .next s
  else
    let a := 0x30200 + 8 * e
    let x := tget logEnt0 s.flt.log e
    let s := (s.setSnap rq (a + 4) x.time).answer rq a (logWord x)
    .next { s with flt := { s.flt with log := tset logEnt0 s.flt.log e { x with unread := false } } }

/-! ## Injection (R428) -/

/-- A write of FLT_INJECT_CTRL: nothing outside FACTORY and RETURNED, and while ARM reads 1. KIND and TARGET take their
values; whether ARM takes effect is answered. -/
def State.injectCtrl (s : State) (kind : Nat) (v : Word) : State × Bool :=
  if ¬ s.testLife ∨ s.on Reg.FLT_INJECT_CTRL_ARM then (s, false)
  else
    let s := s.setFlds [(Reg.FLT_INJECT_CTRL_KIND, bitsOf v 0 4), (Reg.FLT_INJECT_CTRL_TARGET, bitsOf v 4 9)]
    (s, bitsOf v 13 1 = 1 && bitsOf v 0 4 = kind && (!(5 ≤ kind && kind ≤ 7) || s.hasLathe (bitsOf v 4 9)))

/-- INJECT_ASSERT: the source is asserted for one cycle. -/
def execInjectAssert (v : Word) (now : Nat) (s : State) : Host.Outcome State Fault Refusal :=
  match (s.at now).injectCtrl 0 v with
  | (s, true) => .next (if s.asserted (bitsOf v 4 9) then s else s.faultEdge (bitsOf v 4 9) true)
  | (s, false) => .next s

/-- A wire of a source is held for 16 cycles at the level it has while the source is quiet: only a pair that is asserted
becomes invalid, and after 8 of them it is broken (R416, R428). -/
def State.holdWire (s : State) (k : Nat) : State := if s.asserted k then s.breakWire k true else s

/-- INJECT_BREAK_F. -/
def execInjectBreakF (v : Word) (now : Nat) (s : State) : Host.Outcome State Fault Refusal :=
  match (s.at now).injectCtrl 1 v with
  | (s, true) => .next (s.holdWire (bitsOf v 4 9))
  | (s, false) => .next s

/-- INJECT_BREAK_FN. -/
def execInjectBreakFn (v : Word) (now : Nat) (s : State) : Host.Outcome State Fault Refusal :=
  match (s.at now).injectCtrl 2 v with
  | (s, true) => .next (s.holdWire (bitsOf v 4 9))
  | (s, false) => .next s

/-- An injection is armed until its write, read or push has taken place. -/
def State.arm (s : State) (kind : Nat) (v : Word) : State :=
  match s.injectCtrl kind v with
  | (s, true) =>
    let a := s.fld Reg.FLT_INJECT_ADDR_LO_ADDR * 64 + s.fld Reg.FLT_INJECT_ADDR_HI_ADDR_HI * 2 ^ 32
    { s with flt := { s.flt with inject := some ⟨kind, bitsOf v 4 9, a⟩ } }.setFld Reg.FLT_INJECT_CTRL_ARM 1
  | (s, false) => s

/-- INJECT_DRAM_CE. -/
def execInjectDramCe (v : Word) (s : State) : Host.Outcome State Fault Refusal := .next (s.arm 3 v)

/-- INJECT_DRAM_UE. -/
def execInjectDramUe (v : Word) (s : State) : Host.Outcome State Fault Refusal := .next (s.arm 4 v)

/-- INJECT_CS_FLIP. -/
def execInjectCsFlip (v : Word) (s : State) : Host.Outcome State Fault Refusal := .next (s.arm 5 v)

/-- INJECT_CS_FLIP2. -/
def execInjectCsFlip2 (v : Word) (s : State) : Host.Outcome State Fault Refusal := .next (s.arm 6 v)

/-- INJECT_BSQ_PARITY. -/
def execInjectBsqParity (v : Word) (s : State) : Host.Outcome State Fault Refusal := .next (s.arm 7 v)

end Sys2Proof.Machine
end

