-- ==== Sys2Proof/Machine/Net.lean ====
section
/-!
DEFINITION. Frames on the ring and packets that leave (R348 to R351, R358 to R364).
-/
namespace Sys2Proof.Machine

/-! ## Frames in (R341, R348, R349) -/

/-- Whether a frame is discarded whatever it carries: a bad FCS, no HSR tag, a length outside 64 to 1,528, a pause frame. -/
def frameBad (f : Frame) : Bool := !f.fcsOk || !f.hsr || f.len < 64 || 1528 < f.len || f.pause

/-- This node's MAC address. -/
def State.nodeMac (s : State) : Nat := s.fld Reg.RNG_NODE_MAC_LO_MAC_LO + 2 ^ 32 * s.fld Reg.RNG_NODE_MAC_HI_MAC_HI

/-- The entry of a frame in the duplicate table, not yet forgotten. -/
def State.dupOf (s : State) (f : Frame) : Option DupEnt :=
  s.ring.dups.find? (fun d => d.mac = f.srcMac && d.seq = f.seq && decide (s.since d.time < 400000))

/-- Puts an entry into the duplicate table in its place, or as the newest; entries 400 ms old are forgotten, and a full table evicts its
oldest. -/
def State.dupPut (s : State) (d : DupEnt) : State :=
  let same (x : DupEnt) : Bool := x.mac = d.mac && x.seq = d.seq
  let l := s.ring.dups.filter (fun x => decide (s.since x.time < 400000))
  let l := if l.any same then l.map (fun x => if same x then d else x)
    else (l ++ [d]).drop (l.length + 1 - 8192)
  { s with ring := { s.ring with dups := l } }

/-- The bytes of a pass-through queue. -/
def frameBytes (l : List Frame) : Nat := l.foldl (fun n f => n + f.len) 0

/-- A frame joins the pass-through queue of port p by its PCP, or is dropped where that is full (R350). -/
def State.passOn (s : State) (p : Nat) (f : Frame) : State :=
  let x := s.port p
  let l := if 4 ≤ f.pcp then x.high else x.low
  if 262144 < frameBytes l + f.len then s.bump (Cnt.RNG_PASS_DROPPED p)
  else s.setPort p (if 4 ≤ f.pcp then { x with high := x.high ++ [f] } else { x with low := x.low ++ [f] })

/-- FRAME_RX (R341, R348, R349): a frame that arrives on port p of a node in the ring; `same` says that the other port receives
the other copy in the same cycle, where the EAST copy is kept (DEDUCED, log entry 91). -/
def execFrameRx (p : Nat) (f : Frame) (same : Bool) (now : Nat) (s : State) : Host.Outcome State Fault Refusal :=
  let s := s.at now
  if ¬ (p < 2 ∧ s.portSends p) then .next s
  else
    let s := s.bump (Cnt.RNG_FRAMES_RX p)
    if frameBad f then .next (s.bump (Cnt.RNG_RX_DISCARDED p))
    else if f.srcMac = s.nodeMac then .next (s.bump (Cnt.RNG_OWN_RETURNED p))
    else
      let mine : Bool := !f.multicast && f.dstMac = s.nodeMac
      let want : Bool := mine || (f.multicast && f.subscribed)
      let out := 1 - p
      let old := s.dupOf f
      let d := old.getD ⟨f.srcMac, f.seq, s.time, false, false, false⟩
      let sent := if out = 0 then d.east else d.west
      let fwd : Bool := !mine && !sent
      let late : Bool := d.delivered || (same && p = 1)
      let s := if want && 1 < f.tags then s.bump (Cnt.RNG_RX_DISCARDED p)
        else if want && late then s.bump (Cnt.RNG_DUP_DISCARDED p) else s
      let d := { d with delivered := d.delivered || (want && !late && f.tags ≤ 1), east := d.east || (fwd && out = 0),
                        west := d.west || (fwd && out = 1) }
      let s := s.dupPut d
      .next (if fwd then s.passOn out f else s)

/-- DUP_ENTRY_EXPIRY (R349): entries 400 ms old are forgotten. -/
def execDupEntryExpiry (now : Nat) (s : State) : Host.Outcome State Fault Refusal :=
  let s := s.at now
  .next { s with ring := { s.ring with dups := s.ring.dups.filter (fun d => decide (s.since d.time < 400000)) } }

/-! ## The credit shapers (R362, R363) -/

/-- CREDIT_MAX in 1/1,024 bit. -/
def creditMax : Int := 12384 * 1024

/-- A queue's credit brought up to now: it rises at RATE, is lost above CREDIT_MAX, and is 0 for an empty queue that owes
nothing. -/
def State.credit (s : State) (p q : Nat) : Int :=
  let c := tget ⟨0, 0⟩ (s.port p).credit q
  let v := min creditMax (c.v + ((s.fld (Reg.RNG_TXQ_CFG0_RATE_KBPS q) * s.since c.time * 1024 / 1000 : Nat) : Int))
  if tget [] (s.port p).txq q = [] then min 0 v else v

/-- Stores a queue's credit as of now. -/
def State.setCredit (s : State) (p q : Nat) (v : Int) : State :=
  let x := s.port p
  s.setPort p { x with credit := tset ⟨0, 0⟩ x.credit q ⟨v, s.time⟩ }

/-- TXQ_RATE_WRITE (R362, R363): a write of a queue's word 0; the credit is what it is under the old rate, and 0 where the rate
changes from 0. -/
def execTxqRateWrite (q : Nat) (v : Word) (now : Nat) (s : State) : Host.Outcome State Fault Refusal :=
  let s := s.at now
  if q < 256 then
    let old := s.fld (Reg.RNG_TXQ_CFG0_RATE_KBPS q)
    let new := bitsOf v 0 25
    let c (p : Nat) : Int := if old = 0 ∧ new ≠ 0 then 0 else s.credit p q
    .next (((s.setCredit 0 q (c 0)).setCredit 1 q (c 1)).plainWrite (0x66000 + 8 * q) v 0)
  else .next s

/-! ## Packets (R358 to R361) -/

/-- Cuts `n` bytes into pieces of at most `size` (PRESUMED, log entry 90). -/
def pieces (size : Nat) : Nat → Nat → List Nat
  | 0, _ => []
  | fuel + 1, n => if n = 0 then [] else if n ≤ size then [n] else size :: pieces size fuel (n - size)

/-- The payload bytes of the packets of one NAL unit or OBU of n bytes: one packet, or fragments of at most PAYLOAD_MAX - 3 bytes
with 3 bytes of their own (PRESUMED, log entry 90). -/
def unitPackets (pm n : Nat) : List Nat :=
  if n = 0 then [] else if n ≤ pm then [n] else (pieces (pm - 3) (n / (pm - 3) + 1) n).map (fun k => k + 3)

/-- The packets of a slice: the parameter sets, SEI and delimiters before it, the slice, and its filler units (PRESUMED, log entry 90). -/
def slicePackets (pm : Nat) (l : Slice) : List Nat :=
  pieces pm (l.pre / pm + 1) l.pre ++ unitPackets pm (l.len - l.pre) ++ unitPackets pm l.fill.length

/-- Packets with their timestamp and buffer; the last is marked where the slice ends its access unit. -/
def toCuts (ts : Nat) (h : Option Nat) (last : Bool) : List Nat → List CutPkt
  | [] => []
  | [n] => [⟨n, ts, last, h⟩]
  | n :: r => ⟨n, ts, false, h⟩ :: toCuts ts h last r

/-- The RTP timestamp of a canvas picture (R359): 90 kHz ticks from the PTP epoch to its T_c. -/
def Canvas.rtpTime (v : Canvas) (c : Nat) : Nat := v.startOf c * 9 / 100000 % 2 ^ 32

/-- SLICE_PACKETISE (R358, R360, R439): the rendition's next slice is cut once the packets of the one before have their entries. In
the picture model the last slice waits for its picture's end, which may add filler behind it. -/
def execSlicePacketise (sid r now : Nat) (s : State) : Host.Outcome State Fault Refusal :=
  let s := s.at now
  let x := s.stream sid
  let y := x.rendition r
  match y.txq, y.ready with
  | some _, l :: rest =>
    let open_ : Bool := match y.cur with
      | some p => p.c = l.c
      | none => false
    if s.outputsHeld ∨ s.cut sid r ≠ [] ∨ (l.picLast ∧ open_ ∧ y.model = 0) then .next s
    else
      let last : Bool := l.picLast && !rest.any (fun k => k.c = l.c)
      let pk := toCuts ((s.cv x.canvas).rtpTime l.c) l.handle last (slicePackets y.payloadMax l)
      let s := s.setStream sid (x.setRend r { y with ready := rest })
      .next (((s.setCut sid r pk).netAsk sid r).freeSlice sid r l.handle)
  | _, _ => .next s

/-- Enqueues the copies of NET entry e on queue q of each port; a port that is not INSERTED or has no link drops its copy. -/
def State.enqueue (s : State) (e q len : Nat) : List Nat → State
  | [] => s
  | p :: rest =>
    let s := if s.linkUp p ∧ s.bypass = 4 then
        let v := s.credit p q
        let s := if tget [] (s.port p).txq q = [] then s.setCredit p q v else s
        let x := s.port p
        s.setPort p { x with txq := tset [] x.txq q (tget [] x.txq q ++ [⟨e, len, s.time⟩]) }
      else (s.bump (Cnt.RNG_PORT_DOWN p)).copyDrop e p
    s.enqueue e q len rest

/-- NET_GRANT (R359 to R361): the packet at the front has its entry, is numbered, and is enqueued on both ports; the next asks. -/
def execNetGrant (sid r now : Nat) (s : State) : Host.Outcome State Fault Refusal :=
  let s := s.at now
  let x := s.stream sid
  let y := x.rendition r
  match s.cut sid r, y.txq, s.grantBucket .net (sid * 4 + r) with
  | k :: rest, some q, some b =>
    let e := s.nextEntry
    let words := [sid % 512 + r % 4 * 512 + y.rtpSeq % 65536 * 65536, k.handle.getD 0, k.bytes % 65536]
    let s := (s.grant .net (sid * 4 + r) b 1 words).setCut sid r rest
    let n : NetEnt := ⟨sid, r, q, y.rtpSeq % 65536, k, s.liveSid sid, true, true⟩
    let s := s.setNet e (some n)
    let y := { y with rtpSeq := (y.rtpSeq + 1) % 65536, packets := y.packets + 1, octets := y.octets + k.bytes }
    let s := s.setStream sid ((s.stream sid).setRend r y)
    .next ((s.enqueue e q (k.bytes + 68) bothPorts).netAsk sid r)
  | _, _, _ => .next s

/-- TXQ_AGE_DROP (R361): the copy at the head of a queue is older than DROP_AGE. -/
def execTxqAgeDrop (p q now : Nat) (s : State) : Host.Outcome State Fault Refusal :=
  let s := s.at now
  match tget [] (s.port p).txq q with
  | c :: rest =>
    if p < 2 ∧ atLeast1 (s.fld (Reg.RNG_TXQ_CFG1_DROP_AGE_100US q)) * 100 < s.since c.time then
      let v := s.credit p q
      let x := s.port p
      let s := (s.setPort p { x with txq := tset [] x.txq q rest }).bump (Cnt.RNG_AGED p)
      .next ((s.setCredit p q (if rest = [] then min 0 v else v)).copyDrop c.entry p)
    else .next s
  | [] => .next s

/-- TXQ_SAMPLE (R364): each queue of each port records its depth and the age of its head. -/
def State.sampleQ (s : State) (p q : Nat) : State :=
  let l := tget [] (s.port p).txq q
  let age := match l with
    | c :: _ => min (2 ^ 19 - 1) (s.since c.time)
    | [] => 0
  let k := 256 * p + q
  (s.setFlds [(Reg.RNG_TXQ_SAMPLE0_DEPTH_PKTS k, min 8191 l.length), (Reg.RNG_TXQ_SAMPLE0_HEAD_AGE_US k, age)]).maxFld
    (Reg.RNG_TXQ_SAMPLE1_MAX_AGE_US k) age

/-- Samples a list of queues of both ports. -/
def State.sampleAll (s : State) : List Nat → State
  | [] => s
  | q :: r => ((s.sampleQ 0 q).sampleQ 1 q).sampleAll r

/-- TXQ_SAMPLE (R364). -/
def execTxqSample (now : Nat) (s : State) : Host.Outcome State Fault Refusal := .next ((s.at now).sampleAll (upTo 0 256))

/-! ## Frames out (R350, R351, R362) -/

/-- Hands a frame to the wire (DEDUCED, log entry 121). -/
def State.ringOut (s : State) (m : RingOut) : State := { s with toRing := s.toRing ++ [m] }

/-- The bound of R351 on the residence of a forwarded PCP 4 to 7 frame, in ns. -/
def State.residenceBound (s : State) (p : Nat) : Nat := if s.on (Reg.RNG_PORT_STATUS_RATE_25G p) then 5000 else 8200

/-- Whether queue q of port p may start a frame. -/
def State.mayStart (s : State) (p q : Nat) : Bool :=
  tget [] (s.port p).txq q != [] && s.fld (Reg.RNG_TXQ_CFG0_RATE_KBPS q) != 0 && decide (0 ≤ s.credit p q)

/-- The queue of a class that starts next: in rotation from the one after the last served. -/
def State.nextQ (s : State) (p cls : Nat) : Option Nat :=
  let from_ := tget 0 (s.port p).rot cls
  firstWith (fun q => s.fld (Reg.RNG_TXQ_CFG0_CLASS q) = cls && s.mayStart p q) ((upTo from_ 256).map (fun k => k % 256))

/-- A local queue's head copy starts: the credit falls by the frame with its overhead, and the entry shows it. -/
def State.startCopy (s : State) (p q : Nat) : State :=
  match tget [] (s.port p).txq q with
  | [] => s
  | c :: rest =>
    let v := s.credit p q - ((8 * (c.len + s.fld (Reg.RNG_PORT_CFG_OVERHEAD p)) * 1024 : Nat) : Int)
    let x := s.port p
    let cls := s.fld (Reg.RNG_TXQ_CFG0_CLASS q)
    let s := s.setPort p { x with txq := tset [] x.txq q rest, wire := some c.entry, rot := tset 0 x.rot cls ((q + 1) % 256) }
    let s := (s.setCredit p q v).bump (Cnt.RNG_FRAMES_LOCAL p)
    match s.net c.entry with
    | some n =>
      let s := if n.east && n.west then s.setLState c.entry 2 else s
      s.ringOut (.packet p n.sid n.r n.seq n.pkt.ts n.pkt.marker n.pkt.bytes)
    | none => s

/-- The first class with a queue that may start. -/
def State.localQ (s : State) (p : Nat) : Option Nat :=
  (s.nextQ p 0).orElse (fun _ => (s.nextQ p 1).orElse (fun _ => (s.nextQ p 2).orElse (fun _ => s.nextQ p 3)))

/-- PORT_TRANSMIT (R350, R351): a free port starts its next frame in strict order of source; `residence` is that of a forwarded
frame in ns. -/
def execPortTransmit (p residence now : Nat) (s : State) : Host.Outcome State Fault Refusal :=
  let s := s.at now
  let x := s.port p
  if ¬ (p < 2 ∧ s.portSends p ∧ x.wire.isNone) then .next s
  else match x.ctl, x.high with
    | m :: rest, _ => .next (((s.setPort p { x with ctl := rest }).bump (Cnt.RNG_FRAMES_LOCAL p)).ringOut (.own p m))
    | [], f :: rest =>
      let s := ((s.setPort p { x with high := rest }).bump (Cnt.RNG_FRAMES_FWD p)).ringOut (.frame p f)
      .next (if s.residenceBound p < residence then s.bump (Cnt.RNG_HIGH_LATE p) else s)
    | [], [] =>
      match s.localQ p, x.low, x.reply with
      | some q, _, _ => .next (s.startCopy p q)
      | none, f :: rest, _ => .next (((s.setPort p { x with low := rest }).bump (Cnt.RNG_FRAMES_FWD p)).ringOut (.frame p f))
      | none, [], m :: rest => .next (((s.setPort p { x with reply := rest }).bump (Cnt.RNG_FRAMES_LOCAL p)).ringOut (.own p m))
      | none, [], [] => .next s

/-- TX_COPY_LEFT (R360): the copy of NET entry e on the wire of port p has left (DEDUCED, log entry 85). -/
def execTxCopyLeft (e p now : Nat) (s : State) : Host.Outcome State Fault Refusal :=
  let s := s.at now
  if p < 2 ∧ (s.port p).wire = some e then .next ((s.setPort p { s.port p with wire := none }).copyGone e p) else .next s

/-- RTCP_SR_SEND (R359): a sender report of a rendition that goes onto the ring. -/
def execRtcpSrSend (sid r now : Nat) (s : State) : Host.Outcome State Fault Refusal :=
  let s := s.at now
  let y := (s.stream sid).rendition r
  if s.isOpen sid ∧ y.txq.isSome then .next (s.ownSend false (.report sid r y.ssrc y.packets y.octets) bothPorts) else .next s

end Sys2Proof.Machine
end

