-- ==== Sys2Proof/Machine/RingCmds.lean ====
section
/-!
DEFINITION. The PTP clock (R352 to R354), received streams and reports (R355 to R357), and the management endpoint (R365, R366).
-/
namespace Sys2Proof.Machine

/-! ## PTP -/

/-- The canvases' starts, told in the time after a step (PRESUMED, log entry 89). -/
def stepStarts (off : Int) : Tbl Canvas → Tbl Canvas
  | [] => []
  | (k, v) :: r => (k, if v.startAt = 0 then v else { v with startAt := ((v.startAt : Int) - off).toNat }) :: stepStarts off r

/-- A step of the time counters (R353, R354): counted, and pulsed; the canvases' next starts follow the new time
(DEDUCED, log entry 88; PRESUMED, log entry 89). -/
def State.ptpStep (s : State) (off : Int) : State :=
  ({ s with ptpNs := (((s.ptpNs : Nat) : Int) - off).toNat, canvases := stepStarts off s.canvases }.bump Cnt.RNG_PTP_STEPS).pulse 157

/-- A rate adjustment (R353): within ±200 ppm, and by at most 10 ppm per second since the last one; the law is a free value
(DEDUCED, log entry 88). -/
def State.ptpSlew (s : State) : State :=
  let most := s.since s.ring.lastAdj / 100
  let by_ : Int := ((s.freeVal % (2 * most + 1) : Nat) : Int) - (most : Nat)
  let ppb := max (-200000) (min 200000 (s.ring.ppb + by_))
  { s.freeNext with ring := { s.ring with ppb := ppb, lastAdj := s.time } }

/-- A 32-bit two's complement number that saturates. -/
def sat32 (v : Int) : Nat := ((max (-(2 ^ 31 : Int)) (min (2 ^ 31 - 1) v)) % 2 ^ 32).toNat

/-- The clock follows a measured offset (R353) (DEDUCED, log entry 88). -/
def State.ptpFollow (s : State) (off : Int) : State :=
  let s := s.setFld Reg.RNG_PTP_OFFSET_OFFSET_NS (sat32 off)
  let locked := s.on Reg.RNG_PTP_STATUS_LOCKED
  let lost : Bool := locked && 10000 < off.natAbs
  let good := if lost then 0 else if off.natAbs ≤ 1000 then min 16 (s.ring.good + 1) else 0
  let s := if lost then (s.setFld Reg.RNG_PTP_STATUS_LOCKED 0).raise 107 Reg.RNG_STATUS_PTP_UNLOCK else s
  let lock : Bool := good = 16 && !s.on Reg.RNG_PTP_STATUS_LOCKED
  let first : Bool := lock && !s.ring.everLocked
  let s := { s with ring := { s.ring with good := good, everLocked := s.ring.everLocked || lock } }
  let s := if lock then s.setFld Reg.RNG_PTP_STATUS_LOCKED 1 else s
  if first || 1000000 < off.natAbs then s.ptpStep off else s.ptpSlew

/-- PTP_MESSAGE (R352, R353): forwarded with its residence added, as a transparent clock; the best master clock algorithm's outcome;
a Sync of the path followed steers the clock of a node that is not grandmaster (DEDUCED, log entry 88). -/
def execPtpMessage (p : Nat) (m : PtpMsg) (now : Nat) (s : State) : Host.Outcome State Fault Refusal :=
  let s := s.at now
  if ¬ (p < 2 ∧ s.portSends p) then .next s
  else
    let s := if s.portSends (1 - p) then s.ringOut (.own (1 - p) (.ptp m)) else s
    let gm : Bool := s.on Reg.RNG_PTP_CFG_MASTER_CAPABLE && m.bestMaster
    let s := s.setFld Reg.RNG_PTP_STATUS_GRANDMASTER (if gm then 1 else 0)
    if m.isSync ∧ ¬ gm then
      let s := { s with ring := { s.ring with lastSync := tset 0 s.ring.lastSync p (s.time + 1) } }
      .next (if s.fld Reg.RNG_PTP_STATUS_PATH = p then s.ptpFollow m.offsetNs else s)
    else .next s

/-- PTP_SYNC_TIMEOUT (R352, R353): three intervals without a Sync on the path followed: the other path is followed where it has had
one since, else lock is lost. -/
def execPtpSyncTimeout (now : Nat) (s : State) : Host.Outcome State Fault Refusal :=
  let s := s.at now
  let p := s.fld Reg.RNG_PTP_STATUS_PATH
  if tget 0 s.ring.lastSync p < tget 0 s.ring.lastSync (1 - p) then .next (s.setFld Reg.RNG_PTP_STATUS_PATH (1 - p))
  else if s.on Reg.RNG_PTP_STATUS_LOCKED then
    let s := { s with ring := { s.ring with good := 0 } }
    .next ((s.setFld Reg.RNG_PTP_STATUS_LOCKED 0).raise 107 Reg.RNG_STATUS_PTP_UNLOCK)
  else .next s

/-- PTP_SECOND (R354): the pulse of the second enters the matrix, as the PPS output's leaves the pin. -/
def execPtpSecond (now : Nat) (s : State) : Host.Outcome State Fault Refusal := .next ((s.at now).pulse 156)

/-- PPS_IN_EDGE (R354, R401): timestamped, and pulsed across its crossing. -/
def execPpsInEdge (ns : Nat) (s : State) : Host.Outcome State Fault Refusal :=
  .next ((s.setFld Reg.RNG_PTP_STATUS_PPS_IN_NS (min (2 ^ 29 - 1) ns)).xingPulse 177)

/-! ## Flows (R355, R356) -/

/-- A flow that has received nothing. -/
def flow0 : RxFlow := ⟨0, 0, none, 0, [], 0, false⟩

/-- Flow f. -/
def State.flow (s : State) (f : Nat) : RxFlow := tget flow0 s.ring.flows f

/-- Sets flow f. -/
def State.setFlow (s : State) (f : Nat) (x : RxFlow) : State := { s with ring := { s.ring with flows := tset flow0 s.ring.flows f x } }

/-- The first entry of the flow table of a kind that matches a packet. -/
def State.flowOf (s : State) (kind vlan ip port : Nat) : Option Nat :=
  firstWith (fun f => s.fld (Reg.RNG_FLOW0_KIND f) = kind && s.fld (Reg.RNG_FLOW0_VLAN f) = vlan
    && s.fld (Reg.RNG_FLOW1_DST_IPV4 f) = ip && s.fld (Reg.RNG_FLOW0_UDP_PORT f) = port) (upTo 0 512)

/-- The policer (R356): the bucket is refilled, then charged with the frame; whether the packet passes. -/
def State.police (s : State) (f len : Nat) : State × Bool :=
  let x := s.flow f
  let spent := x.spent - s.fld (Reg.RNG_FLOW3_CIR_KBPS f) * s.since x.time
  let pass : Bool := spent + len * 8000 ≤ s.fld (Reg.RNG_FLOW4_CBS f) * 8000
  let s := s.setFlow f { x with spent := if pass then spent + len * 8000 else spent, time := s.time }
  (if pass then s else s.satFld (Reg.RNG_FLOW5_POLICED f) 1, pass)

/-- How far sequence number a lies ahead of b, modulo 2^16. -/
def seqDist (a b : Nat) : Nat := (a + 65536 - b % 65536) % 65536

/-- REORDER_PKTS. -/
def State.reorderPkts (s : State) : Nat := s.fld Reg.RNG_SAMPLE_REORDER_PKTS

/-- What a payload is of a fragmented NAL unit or OBU under the standards' payload formats: 0 none, 1 its first fragment, 2 a later
one, 3 the last (PRESUMED, log entry 90). -/
def fragKind (std : Nat) (b : List Nat) : Nat :=
  let sE (v : Nat) : Nat := if nbits v 7 1 = 1 then 1 else if nbits v 6 1 = 1 then 3 else 2
  let b0 := nth 0 b 0
  if std = 0 then (if nbits b0 1 6 = 49 then sE (nth 0 b 2) else 0)
  else if std = 1 then (if nbits (nth 0 b 1) 3 5 = 29 then sE (nth 0 b 2) else 0)
  else if std = 3 then (if nbits b0 0 5 = 28 then sE (nth 0 b 1) else 0)
  else if nbits b0 7 1 = 1 then (if nbits b0 6 1 = 1 then 2 else 3)
  else if nbits b0 6 1 = 1 then 1 else 0

/-- What has arrived of a stream. -/
def State.arrivals (s : State) (sid : Nat) : List Arrived := tget [] s.ring.arrived sid

/-- Appends to it, at the time of the arrival. -/
def State.arrive (s : State) (sid : Nat) (a : Arrived) : State :=
  { s with ring := { s.ring with arrived := tset [] s.ring.arrived sid (s.arrivals sid ++ [a]),
                                 lastAt := tset 0 s.ring.lastAt sid s.time } }

/-- A PLI to the sender after a loss, at most once per 200 ms (R357). -/
def State.sendPli (s : State) (f sid : Nat) : State :=
  let x := s.stream sid
  if s.on (Reg.RNG_FLOW0_PLI_ON_LOSS f) ∧ (x.dec.lastPli = 0 ∨ 200000 ≤ s.time + 1 - x.dec.lastPli) then
    (s.setStream sid { x with dec := { x.dec with lastPli := s.time + 1 } }).ownSend false (.pli sid) bothPorts
  else s

/-- n packets of flow f are lost: they are recorded where the data stops, together with a loss that lies there already. -/
def State.recordLoss (s : State) (f n : Nat) : State :=
  let sid := s.fld (Reg.RNG_FLOW2_SID f)
  let l := s.arrivals sid
  let l := match l.getLast? with
    | some (.loss k) => l.dropLast ++ [.loss (k + n)]
    | _ => l ++ [.loss n]
  let s := { s with ring := { s.ring with arrived := tset [] s.ring.arrived sid l } }
  (s.satFld (Reg.RNG_FLOW6_LOST f) n).sendPli f sid

/-- Whether the stream's arriving pictures are discarded: it is suspended by the shed level, or the outputs are held (R214, R439). -/
def State.discards (s : State) (x : Stream) : Bool :=
  x.dec.cur.isNone && (decSuspended x.cls (s.levelFor x) || s.outputsHeld)

/-- The marker ends a picture (R130): one that arrives while the stream discards is discarded whole and counted in PICS_SKIPPED; the
stream then restarts at a start point. -/
def State.markPicture (s : State) (sid : Nat) : State :=
  let s := s.arrive sid .mark
  let x := s.stream sid
  if s.discards x then
    let shed : Bool := !s.outputsHeld
    let x := { x.add64 (0x120 + 8 * 11) 1 with
      dec := { x.dec with needStart := max 1 x.dec.needStart }
      shed := if shed then s.levelFor x else x.shed
      picsShed := if shed then satAdd (2 ^ 32 - 1) x.picsShed 1 else x.picsShed }
    let s := (s.setStream sid x).takePicture sid
    if shed then s.bump Cnt.SHP_PICS_SHED else s
  else s

/-- A packet leaves the reorder buffer in its turn (R355): fragments without their first one are discarded for a loss record. -/
def State.deliver (s : State) (f : Nat) (k : RxPkt) : State :=
  let sid := s.fld (Reg.RNG_FLOW2_SID f)
  let x := s.stream sid
  if ¬ (s.isOpen sid ∧ x.dir = 0) then
    (match k.handle with
     | some h => s.coopFreeHandle h
     | none => s)
  else
    let kind := fragKind x.std k.payload
    let fl := s.flow f
    let stray : Bool := (kind = 2 || kind = 3) && !fl.frag
    let s := s.setFlow f { fl with frag := kind = 1 || (kind = 2 && fl.frag) }
    let s := if stray then
        (match (s.arrivals sid).getLast? with
         | some (.loss _) => s
         | _ => s.recordLoss f 1)
      else s
    let s := match k.handle with
      | some h => if stray && x.std != 2 then s.coopFreeHandle h else s.arrive sid (.data (some h) k.payload.length)
      | none => s
    if k.marker then s.markPicture sid else s

/-- The least distance from the awaited sequence number to a packet that waits. -/
def leastAhead (n : Nat) : List RxPkt → Nat
  | [] => 65536
  | k :: r => min (seqDist k.seq n) (leastAhead n r)

/-- Packets whose turn has come are delivered, and those older than REORDER_PKTS behind the highest are lost (R355). -/
def State.rxDrain (s : State) (f : Nat) : Nat → State
  | 0 => s
  | fuel + 1 =>
    let x := s.flow f
    match x.next with
    | none => s
    | some n =>
      match x.ahead.find? (fun k => k.seq = n) with
      | some k =>
        let s := s.setFlow f { x with next := some ((n + 1) % 65536), ahead := x.ahead.filter (fun j => j.seq ≠ n), since := s.time }
        (s.deliver f k).rxDrain f fuel
      | none =>
        let d := seqDist x.high n
        if x.ahead ≠ [] ∧ s.reorderPkts < d ∧ d < 32768 then
          let lost := min (leastAhead n x.ahead) (d - s.reorderPkts)
          let s := s.setFlow f { x with next := some ((n + lost) % 65536), since := s.time }
          (s.recordLoss f lost).rxDrain f fuel
        else s

/-- A packet that is stored takes its place (R355). -/
def State.rxPlace (s : State) (f : Nat) (k : RxPkt) : State :=
  let x := s.flow f
  let d := seqDist k.seq x.high
  let x := match x.next with
    | none => { x with next := some k.seq, high := k.seq }
    | some _ => if 0 < d ∧ d < 32768 then { x with high := k.seq } else x
  let x := { x with ahead := x.ahead ++ [k], since := if x.ahead = [] then s.time else x.since }
  (s.setFlow f x).rxDrain f (2 * x.ahead.length + 2)

/-- Whether a packet's place is still open: not older than REORDER_PKTS behind the highest, not delivered, and not held. -/
def State.rxOpen (s : State) (f seq : Nat) : Bool :=
  let x := s.flow f
  match x.next with
  | none => true
  | some n =>
    let d := seqDist seq x.high
    (0 < d && d < 32768) ||
      (seqDist x.high seq ≤ s.reorderPkts && seqDist seq n < 32768 && !x.ahead.any (fun k => k.seq = seq))

/-- The payload lies in its Coop buffer, and the packet takes its place. -/
def State.rxStored (s : State) (f : Nat) (k : Packet) (h : Nat) : State :=
  (s.putBytes (s.handleAddr h) k.payload).rxPlace f ⟨k.seq % 65536, some h, k.payload, k.marker⟩

/-- RTP_PACKET_RX (R355, R356): matched, policed, stored in a Coop P1 buffer and put in order; a packet that gets no buffer counts in
NOBUF, and one of an unsupported form leaves its place empty (DEDUCED, log entry 91; DEDUCED, log entry 92). -/
def execRtpPacketRx (p : Nat) (k : Packet) (now : Nat) (s : State) : Host.Outcome State Fault Refusal :=
  let s := s.at now
  match s.flowOf 1 k.vlan k.dstIp k.port with
  | none => .next (s.bump (Cnt.RNG_NO_FLOW p))
  | some f =>
    match s.police f k.frameLen with
    | (s, false) => .next s
    | (s, true) =>
      if ¬ s.rxOpen f (k.seq % 65536) then .next s
      else if ¬ k.accepted ∨ k.payload = [] then .next (s.rxPlace f ⟨k.seq % 65536, none, [], k.marker⟩)
      else match s.coopRequest (.ring p k) (s.fld (Reg.RNG_FLOW2_OWNER f)) (max 257 k.payload.length) with
        | (s, .granted h) => .next (s.rxStored f k h)
        | (s, .failed _) => .next (s.bump (Cnt.RNG_NOBUF p))
        | (s, .waits) => .next s

/-- REORDER_TIMEOUT (R355): the packets missing ahead of one that has waited REORDER_US are lost. -/
def execReorderTimeout (flow now : Nat) (s : State) : Host.Outcome State Fault Refusal :=
  let s := s.at now
  let x := s.flow flow
  match x.next, x.ahead with
  | some n, _ :: _ =>
    if s.fld Reg.RNG_SAMPLE_REORDER_US ≤ s.since x.since then
      let lost := leastAhead n x.ahead
      let s := s.setFlow flow { x with next := some ((n + lost) % 65536), since := s.time }
      .next ((s.recordLoss flow lost).rxDrain flow (2 * x.ahead.length + 2))
    else .next s
  | _, _ => .next s

/-- RTCP_RX (R356, R357): policed like every flow; a PLI or FIR that names the rendition's SSRC asks for a refresh point; other RTCP is ignored
(DEDUCED, log entry 91). -/
def execRtcpRx (p : Nat) (k : Rtcp) (now : Nat) (s : State) : Host.Outcome State Fault Refusal :=
  let s := s.at now
  match s.flowOf 2 k.vlan k.dstIp k.port with
  | none => .next (s.bump (Cnt.RNG_NO_FLOW p))
  | some f =>
    let z := s.police f k.frameLen
    let s := z.1
    let sid := s.fld (Reg.RNG_FLOW2_SID f)
    let x := s.stream sid
    if z.2 ∧ k.pliOrFir ∧ s.isOpen sid ∧ x.dir = 1 ∧ (x.rendition (s.fld (Reg.RNG_FLOW2_RENDITION f))).ssrc = k.ssrc then
      .next ((s.bump Cnt.RNG_RTCP_REQUESTS).refresh sid)
    else .next s

/-- ARP_ICMP_RX (R355): ARP and ICMP echo for the node's own address are answered. -/
def execArpIcmpRx (_p ip : Nat) (icmp : Bool) (s : State) : Host.Outcome State Fault Refusal :=
  if ip = s.fld Reg.RNG_NODE_IP_IPV4 ∧ ip ≠ 0 then .next (s.ownSend false (.answer ip icmp) bothPorts) else .next s

/-! ## Management (R365, R366) -/

/-- Whether a message names the endpoint: it is enabled, the message is of its kind, and goes to the node's address and MGMT_PORT. -/
def State.mgmtFor (s : State) (m : MgmtMsg) : Bool :=
  s.on Reg.RNG_MGMT_CFG_MGMT_EN && m.magic = 0x544D474D && m.version = 1 && m.dstIp = s.fld Reg.RNG_NODE_IP_IPV4
    && m.dstPort = s.fld Reg.RNG_MGMT_CFG_MGMT_PORT

/-- Where its response goes. -/
def mgmtSender (m : MgmtMsg) : MgmtFrom := ⟨m.counter, m.srcIp, m.srcPort⟩

/-- A request that fails its checks: counted, FS108, and after 16 within 1 s the endpoint is locked out for 1 s (DEDUCED, log entry 93). -/
def State.mgmtFail (s : State) : State :=
  let s := (s.bump Cnt.RNG_MGMT_AUTH_FAIL).note 108
  let l := s.ring.fails.filter (fun t => decide (s.since t < 1000000)) ++ [s.time]
  if 16 ≤ l.length then { s with ring := { s.ring with fails := [], lockUntil := some (s.time + 1000000) } }
  else { s with ring := { s.ring with fails := l } }

/-- MGMT_REQUEST (R365, R366) (DEDUCED, log entry 93). -/
def execMgmtRequest (m : MgmtMsg) (now : Nat) (s : State) : Host.Outcome State Fault Refusal :=
  let s := s.at now
  let locked : Bool := match s.ring.lockUntil with
    | some t => s.time < t
    | none => false
  if ¬ s.mgmtFor m ∨ locked then .next s
  else if ¬ m.tagOk ∨ m.keySlot ≠ s.fld Reg.RNG_MGMT_CFG_MGMT_KEY_SLOT ∨ m.epoch ≠ s.fld Reg.LCM_EPOCH_EPOCH
      ∨ m.counter ≤ s.ring.counter ∨ 2 ^ 63 ≤ m.counter then .next s.mgmtFail
  else
    let q := s.fld Reg.RNG_MGMT_CFG_MGMT_QP
    let x := s.hq q
    if 16 ≤ x.staged.length then .next (s.bump Cnt.RNG_MGMT_QUEUE_FULL)
    else
      let s := { s with ring := { s.ring with counter := m.counter } }.bump Cnt.RNG_MGMT_ACCEPTED
      .next ((s.setHq q { x with staged := x.staged ++ [⟨m.cmd.map (fun w => w.toNat), some (mgmtSender m)⟩] }).hostAsk q)

/-- MGMT_HELLO (R365): answered with the node's EPOCH. -/
def execMgmtHello (m : MgmtMsg) (s : State) : Host.Outcome State Fault Refusal :=
  if s.mgmtFor m then .next (s.ownSend false (.hello (s.fld Reg.LCM_EPOCH_EPOCH) (mgmtSender m)) bothPorts)
  else .next s

/-- MGMT_LOCKOUT_END (R366). -/
def execMgmtLockoutEnd (now : Nat) (s : State) : Host.Outcome State Fault Refusal :=
  let s := s.at now
  match s.ring.lockUntil with
  | some t => .next (if t ≤ s.time then { s with ring := { s.ring with lockUntil := none } } else s)
  | none => .next s

end Sys2Proof.Machine
end

