-- ==== Sys2Proof/Machine/HostQueues.lean ====
section
/-!
DEFINITION. Queue pairs and their doorbells, fetch and start of commands, completions, vectors, device power states and BAR4
(R370 to R382, R389 to R392).
-/
namespace Sys2Proof.Machine

/-! ## Queues and doorbells (R374, R375) -/

/-- A queue goes to ERROR with a code. -/
def State.queueError (s : State) (q code : Nat) : State :=
  ((s.setFlds [(Reg.HIF_Q5_STATE q, 3), (Reg.HIF_Q5_ERROR q, code)]).hostUnstage q).raise 114 Reg.HIF_FAULT_QUEUE_ERR

/-- Whether a queue takes doorbells and enables: it exists and is not the management endpoint's (R394). -/
def State.hostQueue (s : State) (q : Nat) : Bool := q < 64 && !s.isMgmt q

/-- SQ_TAIL_DOORBELL (R374, R375). -/
def execSqTailDoorbell (q : Nat) (v : Word) (s : State) : Host.Outcome State Fault Refusal :=
  if ¬ s.hostQueue q ∨ s.qState q ≠ 1 then .next s
  else if s.sqSize q ≤ bitsOf v 0 12 then .next (s.queueError q 1)
  else .next (s.setHq q { s.hq q with sqTail := bitsOf v 0 12 })

/-- Whether a CQ_HEAD names the last completion written or one before it. -/
def State.cqHeadOk (s : State) (q h : Nat) : Bool :=
  let n := s.cqSize q
  let a := (s.hq q).cqHead
  h < n && (h + n - a) % n ≤ (s.fld (Reg.HIF_Q5_CQ_TAIL q) + n - a) % n

/-- CQ_HEAD_DOORBELL (R375). -/
def execCqHeadDoorbell (q : Nat) (v : Word) (s : State) : Host.Outcome State Fault Refusal :=
  let h := bitsOf v 0 12
  if ¬ s.hostQueue q ∨ s.qState q = 0 then .next s
  else if s.cqHeadOk q h then .next (s.setHq q { s.hq q with cqHead := h })
  else if s.qState q = 1 then .next (s.queueError q 2)
  else .next s

/-- The address of word 4 of a queue's registers. -/
def qWord4 (q : Nat) : Nat := 0x51010 + 0x40 * q

/-- Word 4 of a host queue takes a written word with ENABLE = 1 (R375) (DEDUCED, log entry 94). -/
def State.queueOn (s : State) (q : Nat) (v : Word) : State :=
  if s.qState q ≠ 0 then s.setFld (Reg.HIF_Q4_ENABLE q) 1
  else
    let s := s.plainWrite (qWord4 q) v 0
    let s := s.setFlds [(Reg.HIF_Q5_SQ_HEAD q, 0), (Reg.HIF_Q5_CQ_TAIL q, 0), (Reg.HIF_Q5_STATE q, 1), (Reg.HIF_Q5_ERROR q, 0),
      (Reg.HIF_Q6_CPL_LOST q, 0)]
    s.setHq q hq0

/-- Word 4 of a host queue takes a written word with ENABLE = 0 (R375). -/
def State.queueOff (s : State) (q : Nat) (v : Word) : State :=
  if s.qState q = 0 then s.plainWrite (qWord4 q) v 0
  else
    let s := s.setFld (Reg.HIF_Q4_ENABLE q) 0
    if s.qState q = 1 then (s.setFld (Reg.HIF_Q5_STATE q) 2).hostUnstage q else s

/-- QUEUE_ENABLE: a write of word 4 with ENABLE = 1. -/
def execQueueEnable (q : Nat) (v : Word) (s : State) : Host.Outcome State Fault Refusal :=
  .next (if ¬ s.hostQueue q ∨ bitsOf v 31 1 = 0 then s else s.onWrite .host (qWord4 q) v (fun s => s.queueOn q v))

/-- QUEUE_DISABLE: a write of word 4 with ENABLE = 0. -/
def execQueueDisable (q : Nat) (v : Word) (s : State) : Host.Outcome State Fault Refusal :=
  .next (if ¬ s.hostQueue q ∨ bitsOf v 31 1 = 1 then s else s.onWrite .host (qWord4 q) v (fun s => s.queueOff q v))

/-- QUEUE_DRAINED (R375). -/
def execQueueDrained (q : Nat) (s : State) : Host.Outcome State Fault Refusal :=
  .next (if 2 ≤ s.qState q ∧ inFlight q s.cmds = 0 then s.setFld (Reg.HIF_Q5_STATE q) 0 else s)

/-! ## Fetch (R376, R434, R442) -/

/-- Whether the interface fetches and starts commands of a host queue in the present mode: LOAD has ended, and in RETIRED it
serves HQ0 only. -/
def State.modeServes (s : State) (q : Nat) : Bool := if s.mode = 11 then q = 0 else 5 ≤ s.mode

/-- Whether commands of a queue can be read from host memory now. -/
def State.fetches (s : State) (q : Nat) : Bool :=
  s.hostQueue q && s.qState q = 1 && !s.on Reg.HIF_CTRL_QUIESCE && s.hostReach && !s.d3hot && s.modeServes q

/-- The slot of the SQ that is fetched next. -/
def State.fetchSlot (s : State) (q : Nat) : Nat := (s.fld (Reg.HIF_Q5_SQ_HEAD q) + (s.hq q).staged.length) % s.sqSize q

/-- Commands of a queue that are written and not yet fetched. -/
def State.fetchable (s : State) (q : Nat) : Nat := ((s.hq q).sqTail + s.sqSize q - s.fetchSlot q) % s.sqSize q

/-- COMMAND_FETCH: up to 8 commands reach the staging buffer (DESIGN CHOICE, log entry 123; DESIGN CHOICE, log entry 141). -/
def execCommandFetch (q : Nat) (cmds : List (List Word)) (s : State) : Host.Outcome State Fault Refusal :=
  if ¬ s.fetches q then .next s
  else
    let x := s.hq q
    let n := min (8 - x.staged.length) (s.fetchable q)
    let new := (cmds.take n).map (fun c => HStaged.mk (c.map (fun w => w.toNat)) none)
    .next ((s.setHq q { x with staged := x.staged ++ new, tries := if new = [] then x.tries else 0 }).hostAsk q)

/-! ## The checks of a started command (R382, R383) -/

/-- Whether an opcode is one of R383. -/
def opcodeKnown (o : Nat) : Bool :=
  o = 0 || (0x10 ≤ o && o ≤ 0x15) || (0x20 ≤ o && o ≤ 0x22) || (0x30 ≤ o && o ≤ 0x33) || o = 0x40 || o = 0x41

/-- The bits of PARAMk that an opcode uses. -/
def paramMask (o k : Nat) : Nat :=
  let all := 2 ^ 32 - 1
  let m : List Nat :=
    if o = 0x15 ∨ o = 0x40 then [0xFF]
    else if o = 0x20 then [0xFF, all, 0xF]
    else if o = 0x21 then [7]
    else if o = 0x30 ∨ o = 0x31 then [all]
    else if o = 0x32 ∨ o = 0x33 then [all, 7]
    else if o = 0x41 then [3]
    else []
  nth 0 m k

/-- Whether a "must be 0" field of a command is nonzero, or SEG_COUNT is wrong for CHAIN. -/
def cmdReserved (w : List Nat) : Bool :=
  nbits (cw w 0) 10 6 != 0 || nbits (cw w 1) 16 16 != 0 || nbits (cw w 5) 9 23 != 0 || cw w 15 != 0
    || (upTo 0 9).any (fun k => cParam w k &&& (2 ^ 32 - 1 - paramMask (cOpcode w) k) != 0)
    || (if cChain w then cSegs w = 0 || 256 < cSegs w else cSegs w != 0)

/-- The largest TARGET of an opcode. -/
def targetMax (o : Nat) : Nat :=
  if 0x10 ≤ o ∧ o ≤ 0x15 then 511 else if o = 0x20 then 63 else if o = 0x30 then 1023 else 0

/-- Whether TARGET or a PARAM lies outside its range; a canvas without a configuration or an Inlay does (R250). -/
def State.cmdTarget (s : State) (w : List Nat) : Bool :=
  let o := cOpcode w
  let p := cParam w 0
  targetMax o < cTarget w || (o = 0x20 && (p = 0 || 8 < p || (s.cv (cTarget w)).inlay.isNone))
    || (o = 0x30 && (p = 0 || 8388608 < p)) || (o = 0x40 && (p = 0 || 4 < p)) || (o = 0x41 && p = 0)

/-- The device address of INGEST and EGRESS. -/
def cDev (w : List Nat) : Nat := cParam w 0 + 2 ^ 32 * nbits (cParam w 1) 0 3

/-- Whether a host range wraps or touches the module's own BARs. -/
def State.badHost (s : State) (a len : Nat) : Bool := hostWraps a len || s.ownBar a len

/-- The fifth check: the command's host range, of its data or of its first segment, and its device range. -/
def State.cmdAddress (s : State) (w : List Nat) : Bool :=
  s.badHost (cData w) (if cChain w then 16 * cSegs w else cLen w)
    || ((cOpcode w = 0x32 || cOpcode w = 0x33) && partUsable s.part < cDev w + cLen w)

/-- Whether DATA_LEN lies outside an opcode's limits. -/
def cmdLength (w : List Nat) : Bool :=
  let o := cOpcode w
  if o = 0x32 ∨ o = 0x33 then false
  else if o = 0x10 ∨ o = 0x12 ∨ o = 0x20 ∨ o = 0x40 then cLen w = 0
  else if o = 0x13 then cLen w < 2048
  else cLen w != 0

/-- A failure of kind 3 of R381. -/
def formatFail (d : Nat) : HFin := ⟨2, 3, d, 0, 0⟩

/-- Whether RETIRED turns a command away (R442) (DEDUCED, log entry 98). -/
def State.retiredRefuses (s : State) (w : List Nat) : Bool :=
  s.mode = 11 && !(cOpcode w = 0 || (cOpcode w = 0x40 && s.fld Reg.LCM_LC_STATE != 4))

/-- The first check of R382 that fails (DEDUCED, log entry 98). -/
def State.cmdCheck (s : State) (w : List Nat) (mgmt : Bool) : Option HFin :=
  if s.retiredRefuses w then some ⟨1, 0, 0, 0, 0⟩
  else if ¬ opcodeKnown (cOpcode w) then some (formatFail 1)
  else if cmdReserved w then some (formatFail 2)
  else if s.cmdTarget w then some (formatFail 3)
  else if s.cmdAddress w then some (formatFail 4)
  else if cmdLength w then some (formatFail 5)
  else if mgmt ∧ cLen w ≠ 0 then some (formatFail 6)
  else none

/-- Entries of a queue's SQ: the management endpoint's has 16 (R365) (DEDUCED, log entry 93). -/
def State.sqEntries (s : State) (q : Nat) : Nat := if s.isMgmt q then 16 else s.sqSize q

/-- Whether a command names a stream. -/
def namesStream (w : List Nat) : Bool := 0x10 ≤ cOpcode w && cOpcode w ≤ 0x15

/-- COMMAND_START at the command's grant (R376, R382): it is in flight, the SQ head advances, and its checks are made. -/
def execCommandStart (q now : Nat) (s : State) : Host.Outcome State Fault Refusal :=
  let s := s.at now
  match s.grantBucket .host q, (s.hq q).staged with
  | some b, x :: rest =>
    let e := s.nextEntry
    let h := s.hq q
    let s := s.grant .host q b 1 (hostWords x.words 0 0)
    let s := s.setHq q { h with staged := rest, started := h.started + 1 }
    let s := s.setFld (Reg.HIF_Q5_SQ_HEAD q) ((s.fld (Reg.HIF_Q5_SQ_HEAD q) + 1) % s.sqEntries q)
    let moves := if namesStream x.words then (s.stream (cTarget x.words)).migrations else 0
    let c : HCmd := ⟨q, x.words, x.mgmt, h.started, 0, 0, 0, moves, .nothing, [], none, s.time, false⟩
    let s := ((s.setCmd e (some c)).bump Cnt.HIF_CMDS_FETCHED).hostAsk q
    .next (match s.cmdCheck x.words x.mgmt.isSome with
      | some f => s.finish e f
      | none => s)
  | _, _ => .next s

/-! ## Completions (R380, R390) -/

/-- Entries of a queue's CQ: the management endpoint's queue has 16. -/
def State.cqEntries (s : State) (q : Nat) : Nat := if s.isMgmt q then 16 else s.cqSize q

/-- Words 0 and 1 of a completion. -/
def State.cplWords (s : State) (c : HCmd) (f : HFin) : Nat × Nat :=
  (cCid c.words + f.status * 2 ^ 16 + f.detail * 2 ^ 24,
   s.fld (Reg.HIF_Q5_SQ_HEAD c.q) + f.kind * 2 ^ 12 + (if (s.hq c.q).phase then 2 ^ 16 else 0))

/-- The completion of a command is written, or answered to the ring; its vector counts an event, and its entry returns. -/
def State.writeCpl (s : State) (e : Nat) (c : HCmd) (f : HFin) : State :=
  let w := s.cplWords c f
  let t := s.fld (Reg.HIF_Q5_CQ_TAIL c.q)
  let t' := (t + 1) % s.cqEntries c.q
  let s := match c.mgmt with
    | some n => s.ownSend false (.mgmt n [w.1, w.2, f.r0, f.r1]) bothPorts
    | none => s.send (.cpl c.q t w.1 w.2 f.r0 f.r1)
  let s := s.setFld (Reg.HIF_Q5_CQ_TAIL c.q) t'
  let h := s.hq c.q
  let s := s.setHq c.q { h with phase := if t' = 0 then !h.phase else h.phase }
  let s := s.bump Cnt.HIF_CMDS_COMPLETED
  let s := if c.mgmt.isSome then s else s.vecEvent (s.fld (Reg.HIF_Q4_VECTOR c.q))
  s.cmdGone e c

/-- COMPLETION_WRITE (R380, R390). -/
def execCompletionWrite (e now : Nat) (s : State) : Host.Outcome State Fault Refusal :=
  let s := s.at now
  match s.cmd e with
  | some c =>
    match c.fin with
    | some f => .next (if s.cplReady c then s.writeCpl e c f else s)
    | none => .next s
  | none => .next s

/-- CPL_WAIT_EXPIRY (R390). -/
def execCplWaitExpiry (e now : Nat) (s : State) : Host.Outcome State Fault Refusal :=
  let s := s.at now
  match s.cmd e with
  | some c =>
    if c.fin.isSome ∧ ¬ s.cplReady c ∧ atLeast1 (s.fld Reg.HIF_CFG_CPL_WAIT_MS) * 1000 ≤ s.since c.since then
      let s := (s.satFld (Reg.HIF_Q6_CPL_LOST c.q) 1).setFld (Reg.HIF_Q5_OVERFLOW c.q) 1
      .next ((s.raise 113 Reg.HIF_FAULT_CPL_LOST).cplLost e c)
    else .next s
  | none => .next s

/-! ## Vectors (R389, R391, R392) -/

/-- A vector with its pending bit set is sent, where it is not masked and the function is in D0 (DEDUCED, log entry 99). -/
def State.vecSend (s : State) (v : Nat) : State :=
  if (s.vec v).pend ∧ ¬ s.on (Reg.MSIX_CTRL_MASK v) ∧ ¬ s.d3hot then
    ((s.setVec v { s.vec v with pend := false }).send (.msix v)).bump Cnt.HIF_MSIX_SENT
  else s

/-- Each of a list of vectors. -/
def State.vecsSend (s : State) : List Nat → State
  | [] => s
  | v :: r => (s.vecSend v).vecsSend r

/-- VECTOR_TIMER_EXPIRY (R389). -/
def execVectorTimerExpiry (v now : Nat) (s : State) : Host.Outcome State Fault Refusal :=
  let s := s.at now
  .next (if v < 64 ∧ (s.vec v).count ≠ 0 ∧ s.fld (Reg.HIF_VEC_MOD_TIME_US v) ≤ s.since (s.vec v).since then s.vecDue v else s)

/-- VECTOR_UNMASK: a write of 0 to the MASK of vector v (R389). -/
def execVectorUnmask (v : Nat) (s : State) : Host.Outcome State Fault Refusal :=
  .next (if v < 64 then s.onWrite .host (0x5200C + 0x10 * v) 0 (fun s => (s.setFld (Reg.MSIX_CTRL_MASK v) 0).vecSend v) else s)

/-- Every vector with counted events falls due, and every pending one is sent (DEDUCED, log entry 99). -/
def State.vecFlush (s : State) : List Nat → State
  | [] => s
  | v :: r => ((if (s.vec v).count = 0 then s else s.vecDue v).vecSend v).vecFlush r

/-- The requests of host queues are withdrawn. -/
def State.hostHold (s : State) : List Nat → State
  | [] => s
  | q :: r => (if s.isMgmt q then s else s.withdraw .host q).hostHold r

/-- The staged commands of host queues ask again. -/
def State.hostAsks (s : State) : List Nat → State
  | [] => s
  | q :: r => (s.hostAsk q).hostAsks r

/-- HIF_CTRL takes a written word (R392). -/
def State.hifCtrl (s : State) (v : Word) : State :=
  let was : Bool := s.on Reg.HIF_CTRL_QUIESCE
  let s := s.plainWrite 0x50000 v 0
  let s := if v.getLsbD 0 then s.setFld Reg.HIF_CTRL_LOCK 1 else s
  if s.on Reg.HIF_CTRL_QUIESCE then (if was then s else (s.hostHold (upTo 0 64)).vecFlush (upTo 0 64))
  else s.hostAsks (upTo 0 64)

/-- QUIESCE: a write of HIF_CTRL. -/
def execQuiesce (v : Word) (s : State) : Host.Outcome State Fault Refusal :=
  .next (s.onWrite .host 0x50000 v (fun s => s.hifCtrl v))

/-! ## Resets and device power states (R370, R371, R391, R434) -/

/-- PERST_ASSERT (R370). -/
def execPerstAssert (now : Nat) (s : State) : Host.Outcome State Fault Refusal :=
  .next ({ s.at now with perst := true }.pd03Reset false)

/-- HOT_RESET (R370): the link stays up. -/
def execHotReset (now : Nat) (s : State) : Host.Outcome State Fault Refusal := .next ((s.at now).pd03Reset true)

/-- LINK_DOWN (R370). -/
def execLinkDown (now : Nat) (s : State) : Host.Outcome State Fault Refusal := .next ((s.at now).pd03Reset false)

/-- FUNCTION_LEVEL_RESET (R370): the link stays up. -/
def execFunctionLevelReset (now : Nat) (s : State) : Host.Outcome State Fault Refusal := .next ((s.at now).pd03Reset true)

/-- D3COLD_ENTRY (R370): PD03 is reset and OFF. -/
def execD3coldEntry (now : Nat) (s : State) : Host.Outcome State Fault Refusal :=
  .next (((s.at now).pd03Reset false).setFld (pdStateF 3) 3)

/-- D3HOT_ENTRY (R371): PD03 takes RET and keeps its registers. -/
def execD3hotEntry (now : Nat) (s : State) : Host.Outcome State Fault Refusal :=
  let s := s.at now
  .next (if s.hostReach then (s.setFld Reg.HIF_STATUS_DSTATE 3).setFld (pdStateF 3) 2 else s)

/-- Commands whose completions wait, in the order in which they ended. -/
def cplInsert (x : Nat × HCmd) : List (Nat × HCmd) → List (Nat × HCmd)
  | [] => [x]
  | y :: r => if x.2.since < y.2.since ∨ (x.2.since = y.2.since ∧ x.2.order < y.2.order) then x :: y :: r else y :: cplInsert x r

/-- The commands that have ended. -/
def endedCmds : Tbl (Option HCmd) → List (Nat × HCmd)
  | [] => []
  | (e, some c) :: r => if c.fin.isSome then cplInsert (e, c) (endedCmds r) else endedCmds r
  | (_, none) :: r => endedCmds r

/-- Their completions are written where they can be. -/
def State.writeCpls (s : State) : List (Nat × HCmd) → State
  | [] => s
  | (e, c) :: r =>
    (match c.fin with
     | some f => if s.cplReady c then s.writeCpl e c f else s
     | none => s).writeCpls r

/-- D0_ENTRY (R391): waiting completions, then the pending vectors. -/
def execD0Entry (now : Nat) (s : State) : Host.Outcome State Fault Refusal :=
  let s := s.at now
  if ¬ s.d3hot then .next s
  else
    let s := (s.setFld Reg.HIF_STATUS_DSTATE 0).setFld (pdStateF 3) 0
    let s := s.writeCpls ((endedCmds s.cmds).filter (fun x => x.2.mgmt.isNone))
    .next (s.vecsSend (upTo 0 64))

/-- PERST_DEASSERT (R434): PD03 leaves reset, at the latest with the end of RESET, and the link trains. -/
def execPerstDeassert (now : Nat) (s : State) : Host.Outcome State Fault Refusal :=
  let s := { s.at now with perst := false }
  .next (if 2 ≤ s.mode then s.hostLink else s)

/-! ## BAR4 (R372, R373) -/

/-- Whether a request to BAR4 is taken. -/
def State.bar4Open (s : State) : Bool := s.hostReach && !s.d3hot && 2 ≤ s.mode

/-- The device address of a BAR4 offset. -/
def State.barAddr (s : State) (off : Nat) : Nat := s.fld Reg.HIF_APERTURE_BASE_GIB * 2 ^ 30 + off

/-- BAR4_WRITE: what lies past the usable size is ignored, with a NOTE. -/
def execBar4Write (off : Nat) (bytes : List Nat) (s : State) : Host.Outcome State Fault Refusal :=
  if ¬ s.bar4Open ∨ 2 ^ 32 < off + bytes.length then .next s
  else
    let a := s.barAddr off
    let b := (bytes.map (fun x => x % 256)).take (partUsable s.part - a)
    let s := s.dramWrite 7 578 a b 0
    .next (if b.length < bytes.length then s.note 0 else s)

/-- BAR4_READ: data with EP where a line is poisoned; what lies past the usable size reads 0, with a NOTE. -/
def execBar4Read (off len : Nat) (s : State) : Host.Outcome State Fault Refusal :=
  if ¬ s.bar4Open ∨ 2 ^ 32 < off + len then .next s
  else
    let a := s.barAddr off
    let n := min len (partUsable s.part - a)
    let s := if 0 < n then (s.wakeQuad a).accountLines 7 578 a n else s
    let s := s.send (.barData (s.getBytes a n ++ List.replicate (len - n) 0) (s.rangePoison a n))
    .next (if n < len then s.note 0 else s)

end Sys2Proof.Machine
end

