-- ==== Sys2Proof/Machine/HostCmds.lean ====
section
/-!
DEFINITION. The host commands (R383 to R387): chains, host data, and what each opcode does but IMAGE_LOAD and FLOOR_COMMIT.
-/
namespace Sys2Proof.Machine

/-- The command of entry e, where it runs opcode `op` and has not begun on its data. -/
def State.running (s : State) (e op : Nat) : Option HCmd :=
  match s.cmd e with
  | some c => if c.fin.isNone ∧ c.wait = .nothing ∧ cOpcode c.words = op then some c else none
  | none => none

/-! ## Chains (R384, R385) -/

/-- A walk so far: LINKs followed, bytes and host ranges of its data. -/
structure Walk where
  hops : Nat
  moved : Nat
  ranges : List (Nat × Nat)
deriving DecidableEq, Repr

/-- How a walk, or the part of it in one segment, ends: complete, failed with a status and detail at an address, or at a LINK. -/
inductive WalkEnd where
  | done
  | fail (f : HFin) (addr : Nat)
  | link (addr len : Nat)
deriving DecidableEq, Repr

/-- The walk of one segment at `base` of `n` descriptors, for data of `len` bytes (DEDUCED, log entry 95). -/
def State.walkSeg (s : State) (limit len base n : Nat) : Walk → List ChainDesc → Walk × WalkEnd
  | w, [] => (w, .fail (formatFail 5) base)
  | w, d :: r =>
    if d.link ∧ base ≤ d.addr ∧ d.addr < base + 16 * n then (w, .fail ⟨3, 5, 2, 0, 0⟩ d.addr)
    else if d.link ∧ limit < w.hops + 1 then (w, .fail ⟨3, 5, 1, 0, 0⟩ d.addr)
    else if d.reserved ≠ 0 ∨ (d.link ∧ (d.len = 0 ∨ 256 < d.len)) then (w, .fail (formatFail 2) d.addr)
    else if d.link then ({ w with hops := w.hops + 1 }, .link d.addr d.len)
    else if s.badHost d.addr d.len then (w, .fail (formatFail 4) d.addr)
    else if len < w.moved + d.len then (w, .fail (formatFail 5) d.addr)
    else
      let w' : Walk := ⟨w.hops, w.moved + d.len, w.ranges ++ [(d.addr, d.len)]⟩
      if d.last then (w', if w'.moved = len then .done else .fail (formatFail 5) d.addr)
      else s.walkSeg limit len base n w' r

/-- The descriptors that lie at an address of host memory (DEDUCED, log entry 95). -/
def segAt (segs : List ChainSeg) (a n : Nat) : List ChainDesc :=
  match segs.find? (fun g => g.base = a) with
  | some g => g.descs.take n
  | none => []

/-- The walk of a chain from the segment at `base`. -/
def State.walkChain (s : State) (segs : List ChainSeg) (limit len : Nat) : Nat → Nat → Nat → Walk → Walk × WalkEnd
  | 0, base, _, w => (w, .fail ⟨3, 5, 1, 0, 0⟩ base)
  | fuel + 1, base, n, w =>
    match s.walkSeg limit len base n w (segAt segs base n) with
    | (w', .link a k) => s.walkChain segs limit len fuel a k w'
    | z => z

/-- HOP_LIMIT (R394). -/
def State.hopLimit (s : State) : Nat := clamp 1 1024 (s.fld Reg.HIF_CFG_HOP_LIMIT)

/-- The data of a command: its host ranges, and how its walk ends. -/
def State.walk (s : State) (w : List Nat) (segs : List ChainSeg) : Walk × WalkEnd :=
  if cChain w then s.walkChain segs s.hopLimit (cLen w) (s.hopLimit + 1) (cData w) (cSegs w) ⟨0, 0, []⟩
  else (⟨0, cLen w, [(cData w, cLen w)]⟩, .done)

/-- A failure of host memory is recorded (R386). -/
def State.hostFault (s : State) (c : HCmd) (detail addr : Nat) : State :=
  (s.errLog c.q 4 detail (cOpcode c.words) (cCid c.words) c.hops addr false).raise 112 Reg.HIF_FAULT_HOST_MEM

/-- A failure of a chain is recorded (R385) (DESIGN CHOICE, log entry 96). -/
def State.chainFault (s : State) (c : HCmd) (f : HFin) (hops addr : Nat) : State :=
  let s := (s.bump Cnt.HIF_CHAIN_FAULTS).errLog c.q f.kind f.detail (cOpcode c.words) (cCid c.words) hops addr false
  s.raise 112 Reg.HIF_FAULT_CHAIN

/-- A command follows its chain: the entry shows the LINKs followed, and a failure is recorded. Answers the walk. -/
def State.follow (s : State) (e : Nat) (c : HCmd) (segs : List ChainSeg) : State × Walk × Option HFin :=
  let z := s.walk c.words segs
  let s := (s.updCmd e { c with hops := z.1.hops }).setLState e 2
  match z.2 with
  | .fail f a => (s.chainFault c f z.1.hops a, z.1, some f)
  | _ => (s, z.1, none)

/-- A command that reads its data as a whole begins to read it; in D3hot it waits (R371). -/
def State.readWhole (s : State) (e : Nat) (c : HCmd) (segs : List ChainSeg) : State :=
  if s.d3hot then s
  else match s.follow e c segs with
  | (s, _, some f) => s.finish e f
  | (s, w, none) => s.setCmd e (some { c with hops := w.hops, wait := .data (cLen c.words) okFin })

/-! ## Commands that act on whole data (R63, R189, R250) -/

/-- MIGRATED for a stream command whose stream has moved while it ran. -/
def State.moved (s : State) (c : HCmd) (f : HFin) : HFin :=
  if f.status = 0 ∧ (s.stream (cTarget c.words)).migrations ≠ c.moves then { f with status := 9 } else f

/-- STREAM_OPEN and STREAM_CONFIG act on their entry: one for another SID is refused with TARGET (DESIGN CHOICE, log entry 54). -/
def State.streamAct (s : State) (e : Nat) (c : HCmd) (bytes : List Nat) : State :=
  let sid := cTarget c.words
  match parseStream (if cOpcode c.words = 0x10 then 5 else 6) bytes with
  | none => s.finish e payloadFail
  | some (n, items) =>
    if n ≠ sid then s.finish e (formatFail 3)
    else
      let z := if cOpcode c.words = 0x10 then s.openStream sid items else s.changeStream sid items
      let s := if z.2.status = 0 then z.1.streamCopies sid else z.1
      s.finish e (if cOpcode c.words = 0x12 then s.moved c z.2 else z.2)

/-- The fence sources of a CANVAS_COMMIT. -/
def cFences (w : List Nat) : List Nat :=
  ((upTo 0 4).filter (fun i => nbits (cParam w 2) i 1 = 1)).map (fun i => nbits (cParam w 1) (8 * i) 8)

/-- CANVAS_COMMIT reaches its canvas's queue. -/
def State.commitAct (s : State) (e : Nat) (c : HCmd) (bytes : List Nat) : State :=
  match parseCommit (cTarget c.words) (cParam c.words 0) bytes with
  | none => s.finish e payloadFail
  | some recs =>
    match s.commitIn e (cTarget c.words) recs (cFences c.words) with
    | (s, some f) => s.finish e f
    | (s, none) => s.setCmd e (some { c with wait := .point })

/-- STREAM_OPEN (R63, R383) reads its entry. -/
def execStreamOpen (e : Nat) (segs : List ChainSeg) (now : Nat) (s : State) : Host.Outcome State Fault Refusal :=
  let s := s.at now
  match s.running e 0x10 with
  | some c => .next (s.readWhole e c segs)
  | none => .next s

/-- STREAM_CONFIG (R189, R383) reads its entry. -/
def execStreamConfig (e : Nat) (segs : List ChainSeg) (now : Nat) (s : State) : Host.Outcome State Fault Refusal :=
  let s := s.at now
  match s.running e 0x12 with
  | some c => .next (s.readWhole e c segs)
  | none => .next s

/-- CANVAS_COMMIT (R250, R383) reads its records. -/
def execCanvasCommit (e : Nat) (segs : List ChainSeg) (now : Nat) (s : State) : Host.Outcome State Fault Refusal :=
  let s := s.at now
  match s.running e 0x20 with
  | some c => .next (s.readWhole e c segs)
  | none => .next s

/-- IMAGE_LOAD (R285, R383) reads its image. -/
def execImageLoad (e : Nat) (segs : List ChainSeg) (now : Nat) (s : State) : Host.Outcome State Fault Refusal :=
  let s := s.at now
  match s.running e 0x40 with
  | some c => .next (s.readWhole e c segs)
  | none => .next s

/-! ## Commands without data (R383) -/

/-- CMD_NOP. -/
def execCmdNop (e : Nat) (s : State) : Host.Outcome State Fault Refusal :=
  match s.running e 0 with
  | some _ => .next (s.endCmd e 0)
  | none => .next s

/-- STREAM_CLOSE: at the stream's next frame boundary, which is now where no picture of it runs and in the held modes (R439)
(DEDUCED, log entry 97). -/
def execStreamClose (e now : Nat) (s : State) : Host.Outcome State Fault Refusal :=
  let s := s.at now
  match s.running e 0x11 with
  | none => .next s
  | some c =>
    let sid := cTarget c.words
    let x := s.stream sid
    if x.state = 0 then .next (s.finish e (formatFail 3))
    else
      let s := s.setCmd e (some { c with wait := .boundary })
      if x.idle ∨ s.outputsHeld then
        let s := s.closeStream sid
        .next (s.endCloses sid s.cmdEntries)
      else .next (s.setStream sid { x with closeBy := some (x.closeBy.getD e) })

/-- REFRESH_REQUEST (R161) (DEDUCED, log entry 97). -/
def execRefreshRequest (e now : Nat) (s : State) : Host.Outcome State Fault Refusal :=
  let s := s.at now
  match s.running e 0x14 with
  | none => .next s
  | some c =>
    let x := s.stream (cTarget c.words)
    if x.state = 0 ∨ x.dir = 0 then .next (s.finish e (formatFail 3)) else .next ((s.refresh (cTarget c.words)).endCmd e 0)

/-- SET_TARGET_VERSION (R166): no Lathe can load version 0 (DEDUCED, log entry 97). A refusal is recorded in the status records (R168). -/
def execSetTargetVersion (e now : Nat) (s : State) : Host.Outcome State Fault Refusal :=
  let s := s.at now
  match s.running e 0x15 with
  | none => .next s
  | some c =>
    let sid := cTarget c.words
    let x := s.stream sid
    let v := cParam c.words 0 % 256
    if x.state = 0 ∨ x.dir = 0 then .next (s.finish e (formatFail 3))
    else
      let z := if v = 0 then (x, ⟨11, 0, 0, 0, 0⟩) else s.setTarget x v
      let s := if z.2.status = 0 then s.putStream sid z.1 else (s.refuseChange sid z.2).1
      .next (s.finish e z.2)

/-- OVERRIDE (R257). -/
def execOverride (e now : Nat) (s : State) : Host.Outcome State Fault Refusal :=
  let s := s.at now
  match s.running e 0x21 with
  | some c => .next ((s.ovrTrigger (cParam c.words 0 % 8) 1).endCmd e 0)
  | none => .next s

/-- OVERRIDE_RELEASE (R257). -/
def execOverrideRelease (e now : Nat) (s : State) : Host.Outcome State Fault Refusal :=
  let s := s.at now
  match s.running e 0x22 with
  | some _ => .next (s.ovrRelease.endCmd e 0)
  | none => .next s

/-- BUF_ALLOC (R320): a TRY request; before READY it waits. -/
def execBufAlloc (e now : Nat) (s : State) : Host.Outcome State Fault Refusal :=
  let s := s.at now
  match s.running e 0x30 with
  | none => .next s
  | some c =>
    match s.coopRequest (.host e) (cTarget c.words) (cParam c.words 0) with
    | (s, .granted h) => .next (s.finish e ⟨0, 0, 0, h, 0⟩)
    | (s, .failed st) => .next (s.endCmd e st)
    | (s, .waits) => .next (s.setCmd e (some { c with wait := .buffer }))

/-- BUF_FREE (R324). -/
def execBufFree (e : Nat) (s : State) : Host.Outcome State Fault Refusal :=
  match s.running e 0x31 with
  | some c => .next ((s.coopFreeHandle (cParam c.words 0)).endCmd e 0)
  | none => .next s

/-! ## Data to and from the host (R383, R387) -/

/-- Marks the lines of a range poisoned. -/
def State.poisonRange (s : State) : List Nat → State
  | [] => s
  | l :: r => (s.setPoison l true).poisonRange r

/-- Bytes of the host reach device DRAM (R332): poisoned ones leave their lines poisoned. -/
def State.ingest (s : State) (a : Nat) (bytes : List Nat) (poison : Bool) : State :=
  let s := s.dramWrite 7 578 a (bytes.map (fun b => b % 256)) 0
  if poison then s.poisonRange (linesOf a bytes.length) else s

/-- INGEST: the data that its chain reaches is read. -/
def execIngest (e : Nat) (segs : List ChainSeg) (s : State) : Host.Outcome State Fault Refusal :=
  match s.running e 0x32 with
  | none => .next s
  | some c =>
    if s.d3hot then .next s else
    let z := s.follow e c segs
    let w := z.2.1
    let f := z.2.2.getD okFin
    if w.moved = 0 then .next (z.1.finish e f)
    else .next (z.1.setCmd e (some { c with hops := w.hops, wait := .data w.moved f }))

/-- The source lines of a device range, each with its poison. -/
def State.srcLines (s : State) : Nat → Nat → Nat → List (Nat × Nat × Bool)
  | 0, _, _ => []
  | fuel + 1, a, len =>
    if len = 0 then []
    else
      let k := min len (64 - a % 64)
      (a, k, s.poisoned (a / 64)) :: s.srcLines fuel (a + k) (len - k)

/-- Bytes of device DRAM are written to the host, one write for each part of a source line; whether any was poisoned. -/
def State.egressLines (s : State) (host : Nat) : List (Nat × Nat × Bool) → State
  | [] => s
  | (a, k, p) :: r => (s.send (.write host (s.getBytes a k) p)).egressLines (host + k) r

/-- A device range fills host ranges in order. -/
def State.egress (s : State) (a : Nat) : List (Nat × Nat) → State
  | [] => s
  | (h, n) :: r => (s.egressLines h (s.srcLines (n / 64 + 2) a n)).egress (a + n) r

/-- Host ranges cut to a number of bytes. -/
def cutRanges : Nat → List (Nat × Nat) → List (Nat × Nat)
  | _, [] => []
  | n, (a, k) :: r => (a, min n k) :: cutRanges (n - k) r

/-- A range of device DRAM is read and written to the host ranges of a walk; the command ends with the bytes written, and
with the poison met where `mark`. In D3hot it waits (R371); after a reset of PD03 no write goes out (R370). -/
def State.dataOut (s : State) (e : Nat) (c : HCmd) (segs : List ChainSeg) (a most : Nat) (mark : Bool) : State :=
  let z := s.follow e c segs
  let s := z.1
  let w := z.2.1
  let n := min w.moved most
  let f := z.2.2.getD okFin
  let s := if n = 0 then s else (s.wakeQuad a).accountLines 7 578 a n
  let s := if c.lost then s else s.egress a (cutRanges n w.ranges)
  let s := s.updCmd e { c with hops := w.hops, moved := n }
  let f : HFin := { f with r0 := n, r1 := if mark ∧ s.rangePoison a n then 2 ^ 31 else 0 }
  s.finish e (if mark then f else s.moved c f)

/-- EGRESS. -/
def execEgress (e : Nat) (segs : List ChainSeg) (s : State) : Host.Outcome State Fault Refusal :=
  match s.running e 0x33 with
  | some c => .next (if s.d3hot then s else s.dataOut e c segs (cDev c.words) (cLen c.words) true)
  | none => .next s

/-- STREAM_STATS: bytes 0x000 to 0x7FF of the context in device DRAM, as of the last picture boundary (DEDUCED, log entry 97). -/
def execStreamStats (e : Nat) (segs : List ChainSeg) (s : State) : Host.Outcome State Fault Refusal :=
  match s.running e 0x13 with
  | some c => .next (if s.d3hot then s else s.dataOut e c segs (s.ctxAddr (cTarget c.words)) 2048 false)
  | none => .next s

end Sys2Proof.Machine
end

