-- ==== Sys2Proof/Machine/Images.lean ====
section
/-!
DEFINITION. Renunold images (R282 to R286): their checks, the standby bank (R444, R445), what an accepted image does by its type,
OTP settings (R451), life-cycle transitions (R453) and anti-rollback floors (R452).
-/
namespace Sys2Proof.Machine

/-! ## Banks and generations -/

/-- A bank that holds nothing (R443). -/
def bank0 : Bank := ⟨0, 0, 0, 0, []⟩

/-- Flash bank k: 0 A, 1 B. -/
def State.bank (s : State) (k : Nat) : Bank := tget bank0 s.life.banks k

/-- Sets a flash bank. -/
def State.setBank (s : State) (k : Nat) (b : Bank) : State := { s with life := { s.life with banks := tset bank0 s.life.banks k b } }

/-- The image of a type in a bank. -/
def Bank.image (b : Bank) (type : Nat) : Option Image := tget none b.images type

/-- The next blank settings generation (R451). -/
def State.blankGen (s : State) : Option Nat := firstWith (fun g => (tget none s.life.gens g).isNone) (upTo 0 4)

/-- The class of an image for anti-rollback (R286): 0 CONFIG, 1 FIRMWARE, 2 MICROCODE. -/
def rollClass (type : Nat) : Nat := if type = 1 then 0 else if type = 2 then 1 else 2

/-- The bit of a part in PART_MASK. -/
def partBit : Part → Nat
  | .lmx7260 => 0 | .lmx7242 => 1 | .lmx7221 => 2

/-! ## The checks of R285 -/

/-- Whether the header is well formed, for data of `len` bytes (DEDUCED, log entry 101). -/
def imageFormat (i : Image) (len : Nat) : Bool :=
  i.magic = 0x444C4E52 && i.format = 1 && i.headerSize = 512 && i.payloadLength % 16 = 0 && 16 ≤ i.payloadLength
    && i.payloadLength ≤ 25165312 && 512 + i.payloadLength ≤ len && i.flags < 2 && i.partMask < 8 && i.keyIndex < 16
    && i.reserved = 0 && (i.type = 4 || i.baseId = 0) && (i.flags = 1 || i.keyIndex < 4)

/-- Whether the signing key is one of the active generation's that is not revoked, and its hash matches (R283). -/
def State.keyOk (s : State) (i : Image) : Bool :=
  (s.fld Reg.LCM_OTP_SIGN_VALID).testBit (i.keyIndex % 4) && !(s.fld Reg.LCM_OTP_SIGN_REVOKED).testBit (i.keyIndex % 4)
    && i.keyHashOk

/-- The first four bytes of an image's PAYLOAD_DIGEST. -/
def digest4 (i : Image) : Nat := i.digest % 2 ^ 32

/-- Whether a patch lies below its base, which a flash bank holds (R286). -/
def State.belowBase (s : State) (i : Image) : Bool :=
  i.type = 4 && [0, 1].any (fun k => match (s.bank k).image 3 with
    | some b => digest4 b = i.baseId && i.securityVersion < b.securityVersion
    | none => false)

/-- Whether an image is refused with ROLLBACK (R286). -/
def State.rollback (s : State) (i : Image) : Bool :=
  i.securityVersion < s.fld (Reg.LCM_FLOOR_FLOOR (rollClass i.type)) || s.belowBase i

/-- Whether the encryption holds (R283): types 2 to 4 are encrypted, the slot holds a key, and the tag verifies (DEDUCED, log entry 101). -/
def State.tagHolds (s : State) (i : Image) : Bool :=
  if i.flags = 1 then (s.fld Reg.LCM_OTP_IMAGE_KEYS).testBit (i.keyIndex / 4) && i.tagOk else i.type = 1

/-- Whether no two slots hold one version. -/
def versionsDiffer : List Nat → Bool
  | [] => true
  | v :: r => (v = 0 || !r.contains v) && versionsDiffer r

/-- Whether a life-cycle transition is allowed (R453). -/
def lcAllowed (a b : Nat) : Bool := (a = 1 && (b = 2 || b = 4)) || (a = 2 && (b = 3 || b = 4)) || (a = 3 && (b = 2 || b = 4))

/-- Whether a record of a CONFIG image leaves its image acceptable: a settings record in FACTORY or DEPLOYED with a blank
generation (R451), a transition that meets its conditions with a word left (R453) (DEDUCED, log entry 101). -/
def State.recOk (s : State) : CfgRec → Bool
  | .otpSettings .. => (s.fld Reg.LCM_LC_STATE = 1 || s.fld Reg.LCM_LC_STATE = 2) && s.blankGen.isSome
  | .lifecycle target serial =>
    serial = s.fld Reg.ID_SERIAL_LO_SERIAL_LO + 2 ^ 32 * s.fld Reg.ID_SERIAL_HI_SERIAL_HI
      && lcAllowed (s.fld Reg.LCM_LC_STATE) target && s.fld Reg.LCM_LC_WORDS_USED < 16
  | _ => true

/-! ## Composition of a control store (R269, R284) -/

/-- Whether a section's word and indices lie in range. -/
def UcSection.ok (x : UcSection) : Bool :=
  x.items.length = x.count && x.slot ≤ 3 && (3 ≤ x.kind || x.slot = 0) &&
    (if x.kind = 1 then x.start + x.count ≤ 4096 else if x.kind = 2 then x.start + x.count ≤ 256
     else if x.kind = 3 then x.start + x.count ≤ 48 else x.kind = 4 && x.count = 0)

/-- Items put at consecutive numbers of a table. -/
def putItems (t : Tbl Nat) (a w : Nat) : List Nat → Tbl Nat
  | [] => t
  | v :: r => putItems (tset 0 t a (v % 2 ^ w)) (a + 1) w r

/-- Sections applied in file order to a control store and a dispatch RAM (DEDUCED, log entry 102). -/
def applySections (z : Tbl Nat × Tbl Nat) : List UcSection → Tbl Nat × Tbl Nat
  | [] => z
  | x :: r =>
    let base := 256 + 64 * x.slot
    applySections (if x.kind = 1 then (putItems z.1 x.start 128 x.items, z.2)
      else if x.kind = 2 then (z.1, tclear (fun i => 0x30 ≤ i && i < 0x60) (putItems z.2 x.start 32 x.items))
      else if x.kind = 3 then (z.1, putItems z.2 (base + x.start) 32 x.items)
      else (z.1, tclear (fun i => base ≤ i && i < base + 64) z.2)) r

/-- The base image that flash holds under an ID (DEDUCED, log entry 102). -/
def State.baseImage (s : State) (id : Nat) : Option Image :=
  match (s.bank 0).image 3, (s.bank 1).image 3 with
  | some b, some c => if digest4 b = id then some b else if digest4 c = id then some c else none
  | some b, none => if digest4 b = id then some b else none
  | none, some c => if digest4 c = id then some c else none
  | none, none => none

/-- The store that an image composes: a base from a store of all zeros, a patch from its base's composition. -/
def State.composed (s : State) (i : Image) : Tbl Nat × Tbl Nat :=
  applySections (match (if i.type = 4 then s.baseImage i.baseId else none) with
    | some b => applySections ([], []) b.sections
    | none => ([], [])) i.sections

/-- Whether a microcode payload is well formed: its sections, and no version in two slots (R284, R285). -/
def imageCodeOk (i : Image) : Bool :=
  i.type < 3 || (versionsDiffer i.versions && i.sections != [] && decide (i.sections.length ≤ 1024) && i.sections.all UcSection.ok)

/-- Whether a patch's base is that of a master copy. -/
def State.copyBase (s : State) (i : Image) : Bool :=
  s.manifests.any (fun e => match e.2 with
    | some m => m.baseId = i.baseId
    | none => false)

/-- The reason of R285 for which an image is refused, or 0. With `load` it is one that LOAD reads from a bank: its patch is judged by
the bank's own base, and the records of its CONFIG, which IMAGE_LOAD judged, are not judged again
(DEDUCED, log entry 101; DEDUCED, log entry 104). -/
def State.imageReason (s : State) (i : Image) (expect len : Nat) (load : Bool := false) : Nat :=
  if ¬ imageFormat i len then 1
  else if i.type ≠ expect then 2
  else if ¬ i.partMask.testBit (partBit s.part) then 3
  else if ¬ s.keyOk i then 4
  else if ¬ i.signatureOk then 5
  else if s.rollback i then 6
  else if ¬ s.tagHolds i then 7
  else if ¬ i.digestOk then 8
  else if ¬ i.payloadOk ∨ ¬ imageCodeOk i ∨ (i.type = 1 ∧ ¬ load ∧ ¬ i.records.all s.recOk) then 9
  else if i.type = 4 ∧ ¬ (if load then (s.baseImage i.baseId).isSome else s.copyBase i) then 10
  else if 3 ≤ i.type ∧ storeCrc (s.composed i).1 (s.composed i).2 ≠ i.resultCrc then 11
  else 0

/-- The status of a reason. -/
def reasonStatus (r : Nat) : Nat := if 4 ≤ r ∧ r ≤ 8 then 7 else 2

/-! ## Master copies (R277) -/

/-- The bytes of a master copy: 4,096 words of 16 bytes and 512 dispatch entries of 4 bytes (R269, R277). -/
def copyBytes (z : Tbl Nat × Tbl Nat) : List Nat :=
  ((upTo 0 4096).map (fun k => leBytes (tget 0 z.1 k) 16)).flatten ++ ((upTo 0 512).map (fun k => leBytes (tget 0 z.2 k) 4)).flatten

/-- The manifest of an image (R277). -/
def manifestOf (i : Image) : Manifest :=
  ⟨i.buildVersion, i.securityVersion, if i.type = 3 then digest4 i else i.baseId, i.versions, i.closures, i.resultCrc⟩

/-- A master copy is written from an image. -/
def State.writeCopy (s : State) (m : Nat) (i : Image) : State :=
  let s := (s.putBytes (s.mcBase 0 m) (copyBytes (s.composed i))).account (Cnt.DMC_ACCT 595) 67584
  { s with manifests := tset none s.manifests m (some (manifestOf i)) }

/-- The master copy that no Lathe's SPN_SRC selects (DEDUCED, log entry 103). -/
def State.freeCopy (s : State) : Option Nat :=
  firstWith (fun m => s.lathesAll.all (fun n => s.fld (Reg.SPN_SRC_SEL n) != m)) [0, 1]

/-! ## What an accepted image does (R445, R451, R453) -/

/-- The images of the running bank beside a new one: a patch of another base is not copied (DEDUCED, log entry 103). -/
def beside (i : Image) : Tbl (Option Image) → Tbl (Option Image)
  | [] => []
  | (t, x) :: r =>
    let drop : Bool := t = i.type || (i.type = 3 && t = 4 && (match x with
      | some p => p.baseId != digest4 i
      | none => true))
    if drop then beside i r else (t, x) :: beside i r

/-- The standby bank takes a complete set with the image, SEQ one above the running bank's, in STATE TRIAL. -/
def State.toStandby (s : State) (i : Image) : State :=
  let run := s.bank (s.fld Reg.LCM_BOOT_BANK)
  let k := 1 - s.fld Reg.LCM_BOOT_BANK
  s.setBank k ⟨(run.seq + 1) % 2 ^ 32, 1, 0, (s.bank k).writes + 1, tset none (beside i run.images) i.type (some i)⟩

/-- The running version of a class (DEDUCED, log entry 102). -/
def State.setRunning (s : State) (i : Image) : State :=
  { s with life := { s.life with running := tset 0 s.life.running (rollClass i.type) i.securityVersion } }

/-- A settings record is written to the next blank generation (R451). -/
def State.writeGen (s : State) (revoke sris signMask imageKeys mgmtKeys : Nat) (digestOk : Bool) : State :=
  match s.blankGen with
  | none => s
  | some g =>
    let s := { s with life := { s.life with gens := tset none s.life.gens g (some ⟨sris, signMask, revoke, imageKeys, mgmtKeys, digestOk⟩) } }
    let s := s.orFld Reg.LCM_OTP_GEN_USED (2 ^ g)
    if g = 2 then s.note 331 else s

/-- Flash banks A and B are erased (R436). -/
def State.eraseBanks (s : State) : State := { s with life := { s.life with banks := [] } }

/-- A life-cycle word is burned and the module restarts with a wipe, or retires (R431, R436, R453). -/
def State.transition (s : State) (target : Nat) : State :=
  let s := s.setFlds [(Reg.LCM_LC_STATE, target), (Reg.LCM_LC_WORDS_USED, s.fld Reg.LCM_LC_WORDS_USED + 1)]
  let s := if 3 ≤ target then s.eraseBanks else s
  if target = 4 then s.retire 5 else s.askRestart 5

/-- The records of a CONFIG image act in order until one is refused (R445); answers how the command ends. -/
def State.actRecs (s : State) : List CfgRec → State × HFin
  | [] => (s, okFin)
  | .otpSettings _ revoke sris signMask imageKeys mgmtKeys digestOk :: r =>
    (s.writeGen revoke sris signMask imageKeys mgmtKeys digestOk).actRecs r
  | x :: r =>
    let z := s.serviceRec x
    if z.2.status = 0 then z.1.actRecs r else z

/-- The life-cycle transition that records ask for. -/
def lifeTarget : List CfgRec → Option Nat
  | [] => none
  | .lifecycle t _ :: _ => some t
  | _ :: r => lifeTarget r

/-- An accepted image acts by its type (DEDUCED, log entry 103). -/
def State.imageActs (s : State) (i : Image) : State × HFin :=
  let s := s.setRunning i
  if i.type = 1 then s.actRecs i.records
  else if i.type = 2 then (s, okFin)
  else
    (match s.freeCopy with
     | some m => s.writeCopy m i
     | none => s, okFin)

/-- In RETIRED the boot ROM writes bank A, and restarts the module once it holds a whole set (R442). -/
def State.retiredImage (s : State) (e : Nat) (i : Image) : State :=
  let b := s.bank 0
  let b : Bank := ⟨b.seq, 1, 0, b.writes + 1, tset none b.images i.type (some i)⟩
  let s := (s.setBank 0 b).endCmd e 0
  if [1, 2, 3].all (fun t => (b.image t).isSome) then s.moduleReset 0 else s

/-- IMAGE_LOAD has its image (R285, R445). -/
def State.imageAct (s : State) (e : Nat) (c : HCmd) (i : Image) : State :=
  let r := s.imageReason i (cParam c.words 0 % 256) (cLen c.words)
  if r ≠ 0 then s.failCmd e (reasonStatus r) 2 r
  else if s.mode = 11 then s.retiredImage e i
  else
    let z := (s.toStandby i).imageActs i
    let s := z.1.finish e z.2
    match (if i.type = 1 ∧ z.2.status = 0 then lifeTarget i.records else none) with
    | some t => s.transition t
    | none => s

/-! ## Floors (R286, R452) -/

/-- The free anti-rollback slots of a class. -/
def floorLeft (k : Nat) : Fld :=
  if k = 0 then Reg.LCM_FLOOR_LEFT_LEFT_CONFIG else if k = 1 then Reg.LCM_FLOOR_LEFT_LEFT_FIRMWARE
  else Reg.LCM_FLOOR_LEFT_LEFT_MICROCODE

/-- FLOOR_COMMIT (DEDUCED, log entry 105). -/
def execFloorCommit (e : Nat) (s : State) : Host.Outcome State Fault Refusal :=
  match s.running e 0x41 with
  | none => .next s
  | some c =>
    let k := cParam c.words 0 % 4 - 1
    let v := tget 0 s.life.running k
    let low : Bool := s.lathesAll.any (fun n => s.fld (Reg.SPN_SECVER_SECVER n) < v)
      || s.manifests.any (fun x => match x.2 with
          | some m => m.secver < v
          | none => false)
    let old := s.fld (Reg.LCM_FLOOR_FLOOR k)
    if k = 2 ∧ low then .next (s.finish e badParam)
    else if v ≤ old then .next (s.finish e ⟨0, 0, 0, old, 0⟩)
    else if s.fld (floorLeft k) = 0 then .next (s.finish e badParam)
    else
      let s := s.setFlds [(Reg.LCM_FLOOR_FLOOR k, v), (floorLeft k, s.fld (floorLeft k) - 1)]
      .next (s.finish e ⟨0, 0, 0, v, 0⟩)

end Sys2Proof.Machine
end

