-- ==== Sys2Proof/Machine/HostReads.lean ====
section
/-!
DEFINITION. How reads of host memory end (R386): timeouts and their reissue, data, and failures, for fetches, Drover channels and
commands; and the Coop's grants to those that wait (R316, R321).
-/
namespace Sys2Proof.Machine

/-- A fetch of queue q fails (R375, R386). -/
def State.fetchFail (s : State) (q detail : Nat) : State :=
  let a := s.fld (Reg.HIF_Q0_SQ_BASE_LO q) / 4096 * 4096 + 64 * s.fetchSlot q
  let s := (s.errLog q 4 detail 0 0 0 a false).raise 112 Reg.HIF_FAULT_HOST_MEM
  s.queueError q 3

/-- The host address that a Drover channel reads next. -/
def State.drvHostAddr (s : State) (n : Nat) : Nat :=
  if s.drvSrcHost n ∧ (s.drv n).src.length < s.drvLen n then s.drvSrc n + (s.drv n).src.length
  else s.drvDst n + (s.drv n).dst.length

/-- A read of Drover channel n fails (R333, R386). -/
def State.drvReadFail (s : State) (n detail : Nat) : State :=
  let s := (s.errLog n 4 detail 0 0 0 (s.drvHostAddr n) true).raise 112 Reg.HIF_FAULT_HOST_MEM
  s.drvHostFail n

/-- Whether a Drover channel has a read of host memory open. -/
def State.drvReading (s : State) (n : Nat) : Bool := n < 16 && (s.drv n).phase = .running && s.drvHost n && !s.drvReady n

/-- A read of a command fails: HOST_MEM_TIMEOUT, with the bytes that INGEST moved. The host address that failed is known for a
command without a chain, and a free value for one with it (DESIGN CHOICE, log entry 96). -/
def State.cmdReadFail (s : State) (e : Nat) (c : HCmd) (detail : Nat) : State :=
  let a := if cChain c.words then s.freeVal else cData c.words + (if cOpcode c.words = 0x32 then c.moved else c.got.length)
  let s := if cChain c.words then s.freeNext else s
  let f : HFin := ⟨4, 4, detail, if cOpcode c.words = 0x32 then c.moved else 0, 0⟩
  let f := match c.wait with
    | .data _ g => { f with r1 := g.r1 }
    | _ => f
  (s.hostFault c detail a).finish e f

/-- HOST_READ_TIMEOUT (R386): counted; reissued until RD_RETRY reissues are spent. -/
def execHostReadTimeout (o now : Nat) (s : State) : Host.Outcome State Fault Refusal :=
  let s := s.at now
  let most := s.fld Reg.HIF_CFG_RD_RETRY
  if o < 64 then
    if s.hostQueue o ∧ s.qState o = 1 ∧ s.fetchable o ≠ 0 then
      let s := s.bump Cnt.HIF_READ_TIMEOUTS
      let x := s.hq o
      .next (if x.tries < most then s.setHq o { x with tries := x.tries + 1 } else s.fetchFail o 1)
    else .next s
  else if o < 128 then
    let n := o - 64
    if s.drvReading n then
      let s := s.bump Cnt.HIF_READ_TIMEOUTS
      let d := s.drv n
      .next (if d.tries < most then s.setDrv n { d with tries := d.tries + 1 } else s.drvReadFail n 1)
    else .next s
  else
    match s.cmd (o - 128) with
    | some c =>
      if c.reading then
        let s := s.bump Cnt.HIF_READ_TIMEOUTS
        .next (if c.tries < most then s.setCmd (o - 128) (some { c with tries := c.tries + 1 }) else s.cmdReadFail (o - 128) c 1)
      else .next s
    | none => .next s

/-- Bytes of an INGEST arrive and are written; the last of them end it. -/
def State.ingestData (s : State) (e : Nat) (c : HCmd) (left : Nat) (f : HFin) (bytes : List Nat) (poison : Bool) : State :=
  let b := bytes.take left
  let s := s.ingest (cDev c.words + c.moved) b poison
  let f : HFin := { f with r1 := if poison ∧ b ≠ [] then 2 ^ 31 else f.r1 }
  let n := c.moved + b.length
  let c := { c with moved := n, tries := 0, wait := .data (left - b.length) f }
  let s := s.updCmd e c
  if b.length = left then s.finish e { f with r0 := n } else s

/-- Bytes of a command that reads its data as a whole arrive; with the last of them it acts. -/
def State.wholeData (s : State) (e : Nat) (c : HCmd) (left : Nat) (f : HFin) (bytes : List Nat) : State :=
  let b := bytes.take left
  let c := { c with got := c.got ++ b.map (fun x => x % 256), moved := c.moved + b.length, tries := 0,
                    wait := .data (left - b.length) f }
  let s := s.updCmd e c
  if b.length < left then s
  else if cOpcode c.words = 0x20 then s.commitAct e c c.got
  else if cOpcode c.words = 0x40 then s.failCmd e 2 2 1
  else s.streamAct e c c.got

/-- What a command's read brings. -/
def State.cmdRead (s : State) (e : Nat) (c : HCmd) : HostRead → State
  | .ur => s.cmdReadFail e c 2
  | .ca => s.cmdReadFail e c 3
  | .poisoned b =>
    match c.wait with
    | .data left f => if cOpcode c.words = 0x32 then s.ingestData e c left f b true else s.cmdReadFail e c 4
    | _ => if cChain c.words then s.cmdReadFail e c 4 else s
  | .data b =>
    match c.wait with
    | .data left f => if cOpcode c.words = 0x32 then s.ingestData e c left f b false else s.wholeData e c left f b
    | _ => s
  | .image i =>
    match c.wait with
    | .data left _ => if cOpcode c.words = 0x40 then (s.updCmd e { c with moved := c.moved + left }).imageAct e c i else s
    | _ => s

/-- HOST_READ_COMPLETION (R386) (DESIGN CHOICE, log entry 123). -/
def execHostReadCompletion (o : Nat) (r : HostRead) (now : Nat) (s : State) : Host.Outcome State Fault Refusal :=
  let s := s.at now
  if o < 64 then
    if s.hostQueue o ∧ s.qState o = 1 ∧ s.fetchable o ≠ 0 then
      .next (match r with
        | .ur => s.fetchFail o 2
        | .ca => s.fetchFail o 3
        | .poisoned _ => s.fetchFail o 4
        | .data _ => s
        | .image _ => s)
    else .next s
  else if o < 128 then
    let n := o - 64
    if s.drvReading n then
      .next (match r with
        | .ur => s.drvReadFail n 2
        | .ca => s.drvReadFail n 3
        | .poisoned b => s.drvData n b true
        | .data b => s.drvData n b false
        | .image _ => s)
    else .next s
  else
    match s.cmd (o - 128) with
    | some c => .next (if c.reading then s.cmdRead (o - 128) c r else s)
    | none => .next s

/-! ## The Coop's grants (R316, R320, R321) -/

/-- A request that waited has its buffer. -/
def State.coopServe (s : State) (x : CoopReq) (h : Nat) : State :=
  match x.whom with
  | .slice n =>
    match (s.lth n).run with
    | some r =>
      match r.commit with
      | some c => s.commitRun n r c (some h)
      | none => s
    | none => s
  | .ring _ k =>
    match s.flowOf 1 k.vlan k.dstIp k.port with
    | some f => s.rxStored f k h
    | none => s.coopFreeHandle h
  | .host e => s.finish e ⟨0, 0, 0, h, 0⟩

/-- A TRY request that waited for READY and cannot be served fails (DEDUCED, log entry 72). -/
def State.coopTryFail (s : State) (x : CoopReq) : State :=
  let s := s.bump Cnt.COP_TRY_FAILS
  match x.whom with
  | .host e => s.endCmd e 8
  | .ring p _ => s.bump (Cnt.RNG_NOBUF p)
  | .slice _ => s

/-- The first waiting request, in order, that a pool can serve now. -/
def State.coopNext (s : State) : List CoopReq → Option (CoopReq × Nat × Bool)
  | [] => none
  | x :: r =>
    match s.coopChoice x.owner x.size with
    | some (p, b) => some (x, p, b)
    | none => s.coopNext r

/-- Takes a request out of those that wait. -/
def State.coopDrop (s : State) (x : CoopReq) : State := { s with coop := { s.coop with waits := s.coop.waits.erase x } }

/-- Each waiting request of a list is judged in order: served, failed at once where it only tries, or left to wait
(DEDUCED, log entry 72). -/
def State.coopJudge (s : State) : List CoopReq → State
  | [] => s
  | x :: r =>
    (match s.coopChoice x.owner x.size with
     | some (p, b) => let z := s.coopGrant x.owner x.size p b; (z.1.coopDrop x).coopServe x z.2
     | none => if isTry x.whom then (s.coopDrop x).coopTryFail x else s).coopJudge r

/-- COOP_READY (R316): the free lists are built after LOCK, and the waiting requests are judged in order. -/
def execCoopReady (now : Nat) (s : State) : Host.Outcome State Fault Refusal :=
  let s := s.at now
  if s.on Reg.COP_CTRL_LOCK ∧ ¬ s.on Reg.COP_STATUS_READY then
    let s := s.setFld Reg.COP_STATUS_READY 1
    .next (s.coopJudge (s.coopSort s.coop.waits))
  else .next s

/-- COOP_WAIT_GRANT (R321): the first waiting request that can be served has its buffer. -/
def execCoopWaitGrant (now : Nat) (s : State) : Host.Outcome State Fault Refusal :=
  let s := s.at now
  if ¬ s.on Reg.COP_STATUS_READY then .next s
  else
    match s.coopNext (s.coopSort s.coop.waits) with
    | some (x, p, b) => let z := s.coopGrant x.owner x.size p b; .next ((z.1.coopDrop x).coopServe x z.2)
    | none => .next s

end Sys2Proof.Machine
end

