-- ==== Sys2Proof/Machine/Modes.lean ====
section
/-!
DEFINITION. Requests for a mode, maintenance time and the end of HOLD (R431, R432, R439 to R441).
-/
namespace Sys2Proof.Machine

/-- Whether SVC_N is driven low (R467) (DESIGN CHOICE, log entry 120). -/
def State.svcLow (s : State) : Bool := s.mode = 5 || s.mode = 6 || s.mode = 7

/-! ## LCM_MODE_REQ -/

/-- A request that the table of R431 gives no transition sets REFUSED (R432) (DEDUCED, log entry 109). -/
def State.refuseMode (s : State) : State := s.setFld Reg.LCM_MODE_REQ_REFUSED 1

/-- RESTART, from any mode but ABSENT; a scrapped module stays RETIRED (R442). -/
def State.goRestart (s : State) : State :=
  if s.mode = 0 ∨ (s.mode = 11 ∧ s.fld Reg.LCM_LC_STATE = 4) then s.refuseMode else s.askRestart 1

/-- The minutes of service that confirm a bank are counted from now (R444) (DEDUCED, log entry 111). -/
def State.serveFrom (s : State) : State := { s with life := { s.life with servedSince := some s.time } }

/-- SERVICE, from QUIET or FACTORY. -/
def State.goService (s : State) : State :=
  if s.mode = 8 then s.resumeService 1
  else if s.mode = 10 then ((s.toMode s.serviceMode 1).serveFrom).bypRequest
  else s.refuseMode

/-- MAINTAIN begins (R441). -/
def State.beginMaintain (s : State) : State :=
  let s := s.toMode 7 1
  { s with life := { s.life with maintSince := some s.time } }

/-- MAINTAIN, from SERVICE or DEGRADED. -/
def State.goMaintain (s : State) : State := if s.mode = 5 ∨ s.mode = 6 then s.beginMaintain else s.refuseMode

/-- QUIET, from a service mode (R439). -/
def State.goQuiet (s : State) : State := if s.inService then s.toMode 8 1 else s.refuseMode

/-- A write of LCM_MODE_REQ: REQ and REFUSED take it by their access codes; whether GO submits REQ = r is answered
(DEDUCED, log entry 109). -/
def State.modeReqWrite (s : State) (r : Nat) (v : Word) : State × Bool :=
  (s.plainWrite 0x10008 v 0, bitsOf v 4 1 = 1 && bitsOf v 0 4 = r)

/-- MODE_REQ_RESTART. -/
def execModeReqRestart (v : Word) (now : Nat) (s : State) : Host.Outcome State Fault Refusal :=
  match (s.at now).modeReqWrite 1 v with
  | (s, true) => .next s.goRestart
  | (s, false) => .next s

/-- MODE_REQ_SERVICE. -/
def execModeReqService (v : Word) (now : Nat) (s : State) : Host.Outcome State Fault Refusal :=
  match (s.at now).modeReqWrite 5 v with
  | (s, true) => .next s.goService
  | (s, false) => .next s

/-- MODE_REQ_MAINTAIN. -/
def execModeReqMaintain (v : Word) (now : Nat) (s : State) : Host.Outcome State Fault Refusal :=
  match (s.at now).modeReqWrite 7 v with
  | (s, true) => .next s.goMaintain
  | (s, false) => .next s

/-- MODE_REQ_QUIET. -/
def execModeReqQuiet (v : Word) (now : Nat) (s : State) : Host.Outcome State Fault Refusal :=
  match (s.at now).modeReqWrite 8 v with
  | (s, true) => .next s.goQuiet
  | (s, false) => .next s

/-! ## MAINTAIN (R441) -/

/-- The day of PTP time, from 1 (DEDUCED, log entry 110). -/
def State.ptpDay (s : State) : Nat := s.ptpNs / 86400000000000 + 1

/-- MAINT_HOUR: the daily maintenance hour of PTP time begins, once a day (DEDUCED, log entry 110). -/
def execMaintHour (hour now : Nat) (s : State) : Host.Outcome State Fault Refusal :=
  let s := s.at now
  if (s.mode = 5 ∨ s.mode = 6) ∧ hour < 24 ∧ s.fld Reg.LCM_BOOT_CFG_MAINT_HOUR = hour ∧ s.life.maintDay < s.ptpDay then
    .next { s with life := { s.life with maintDay := s.ptpDay } }.beginMaintain
  else .next s

/-- The work of MAINTAIN on each channel in turn: the hard repairs of its saved candidates, and a retraining that is due
(DEDUCED, log entry 110). -/
def State.maintainWork (s : State) (failed : List Nat) (spent : List (Nat × Nat)) : List Nat → State
  | [] => s
  | ch :: r =>
    let s := s.hardRepair spent ch
    (if s.on (Reg.DMC_CH_STATE_RETRAIN_DUE ch) then s.retrain failed ch else s).maintainWork failed spent r

/-- MAINTAIN_END: the work is done or 60 s have passed; the work takes effect with it, and the module returns to the mode that it
came from, as the degradation conditions now have it; a retraining that fails takes it to HOLD (DEDUCED, log entry 110). -/
def execMaintainEnd (failed : List Nat) (spent : List (Nat × Nat)) (now : Nat) (s : State) : Host.Outcome State Fault Refusal :=
  let s := s.at now
  if s.mode = 7 then
    let back := s.fld Reg.LCM_MODE_PREV
    let s := s.maintainWork failed spent (upTo 0 (partChannels s.part))
    let s := { s with life := { s.life with maintSince := none } }
    .next (if s.mode = 7 then (s.toMode back 8).judgeMode else s)
  else .next s

/-! ## HOLD -/

/-- HOLD_EXIT (R431, R440): no sticky source holds any more, and TJ has lain at or below 145 degrees for 10 s. -/
def execHoldExit (now : Nat) (s : State) : Host.Outcome State Fault Refusal :=
  let s := s.at now
  match s.life.coolSince with
  | some t => .next (if s.mode = 9 ∧ ¬ s.holdReq ∧ 10000000 ≤ s.since t then (s.resumeService 8).serveFrom else s)
  | none => .next s

end Sys2Proof.Machine
end

