-- ==== Sys2Proof/Machine/Shepherd.lean ====
section
/-!
DEFINITION. The Shepherd's tick, bands, parking, shed levels, budgets, migration and maintenance (R203, R209 to R221).
-/
namespace Sys2Proof.Machine

/-! ## Charges (R203, R214), in 1/8,192 kpx/s -/

/-- The sum over a stream's renditions of peak luma samples per second, in 1/8,192 kpx/s. -/
def State.peakCharge (s : State) (x : Stream) : Nat :=
  (upTo 0 x.rends).foldl (fun n r => n + s.rendW x r * s.rendH x r * 27000 * 8192 / atLeast1 (x.rendPeriod r)) 0

/-- The charge of a picture-paced encode stream in the normal form. -/
def Stream.fullCharge (x : Stream) : Nat := x.equivKpx * (4096 - 15 * x.staticFloor) * 2

/-- The charge of a row-paced stream: its lanes, or W_MAX before its first picture is placed. -/
def State.laneCharge (s : State) (x : Stream) : Nat :=
  (if x.lanes = [] then x.wMax else x.lanes.length) * 625 * (1000 - bandLoss s.band) * 8192

/-- Whether a level slows the encode streams of a class. -/
def encSlows (cls level : Nat) : Bool := (cls = 3 && level = 1) || (cls = 2 && (level = 3 || level = 4))

/-- The charge of a stream at a shed level. -/
def State.charge (s : State) (x : Stream) (level : Nat) : Nat :=
  if x.state = 0 then 0
  else if x.cls ≤ 1 then s.laneCharge x
  else if x.dir = 0 then
    if decSuspended x.cls level then 0
    else if decSkips x.cls level then x.equivKpx * (256 - x.skipFrac) * 32
    else x.equivKpx * 8192
  else if encHeld x.cls level then s.peakCharge x / 16
  else if encSlows x.cls level ∧ (x.rendition 0).structure_ ≠ 3 then (x.fullCharge + s.peakCharge x / 16) / 2
  else x.fullCharge

/-- The charges of the streams that satisfy `p` at a level. -/
def State.charges (s : State) (p : Stream → Bool) (level : Nat) : Tbl Stream → Nat
  | [] => 0
  | (_, x) :: r => (if p x then s.charge x level else 0) + s.charges p level r

/-- G in the same unit (R210). -/
def State.gCharge (s : State) : Nat := s.guarN * 625 * (1000 - bandLoss s.band) * 8192

/-- The heat level (R215): the smallest that fits, and 5 where none does (DEDUCED, log entry 59). -/
def State.heatLevel (s : State) : Nat :=
  (firstWith (fun l => s.charges (fun _ => true) l s.streams ≤ s.gCharge) (upTo 0 6)).getD 5

/-! ## The bandwidth budget (R216), in 0.1 GB/s -/

/-- The budget by refresh multiplier. -/
def bwBudget (mult : Nat) : Nat := nth 826 [1150, 1084, 954, 826] mult

/-- The traffic of the streams that a level does not hold. -/
def bwDemand (level : Nat) : Tbl Stream → Nat
  | [] => 0
  | (_, x) :: r =>
    (if x.state = 0 ∨ (if x.dir = 0 then decSuspended x.cls level else encHeld x.cls level) = true then 0
     else x.bwEst * 27000000 / atLeast1 x.period) + bwDemand level r

/-- The demand at a level. -/
def State.bwAt (s : State) (level : Nat) : Nat := bwDemand level s.streams / 100000000

/-- The smallest level whose demand fits (DEDUCED, log entry 59). -/
def State.bwNeed (s : State) : Nat := (firstWith (fun l => s.bwAt l ≤ bwBudget (s.fld Reg.SHP_TEMP_MULT)) (upTo 0 6)).getD 5

/-! ## The applied level (R215) -/

/-- The largest of the three levels applies; while parked Lathes wake for a fall of the band it is not lowered (R212). -/
def State.applyLevel (s : State) : State :=
  let l := max (s.fld Reg.SHP_SHED_HEAT_LEVEL) (max (s.fld Reg.SHP_SHED_POWER_LEVEL) (s.fld Reg.SHP_SHED_BW_LEVEL))
  let old := s.fld Reg.SHP_SHED_LEVEL
  let l := if s.shp.falling then max old l else l
  let s := if l = old then s else s.setFlds [(Reg.SHP_SHED_LEVEL, l), (Reg.SHP_STATUS_SHED_CHANGED, 1)]
  let mpx (c : Nat) : Nat := min 65535 (s.charges (fun x => x.cls = c) l s.streams / 8192000)
  s.setFlds [(Reg.SHP_CHARGE_CHARGE_MPX 0, mpx 0), (Reg.SHP_CHARGE_CHARGE_MPX 1, mpx 1), (Reg.SHP_CHARGE_CHARGE_MPX 2, mpx 2),
    (Reg.SHP_CHARGE_CHARGE_MPX 3, mpx 3), (Reg.SHP_BW_BUDGET_DGB, bwBudget (s.fld Reg.SHP_TEMP_MULT)),
    (Reg.SHP_BW_DEMAND_DGB, min 65535 (s.bwAt l))]

/-- The heat and bandwidth levels follow the charges and the demand; a bandwidth level too high is lowered after 1 s. -/
def State.judgeLevels (s : State) : State :=
  let s := s.setFld Reg.SHP_SHED_HEAT_LEVEL s.heatLevel
  let need := s.bwNeed
  let bw := s.fld Reg.SHP_SHED_BW_LEVEL
  let since := if need < bw then some (s.shp.bwSince.getD s.time) else none
  let s := { s with shp := { s.shp with bwSince := since } }
  let s := if bw < need then s.setFld Reg.SHP_SHED_BW_LEVEL need else s
  let above : Bool := s.gCharge < s.charges (fun x => x.cls ≤ 1) 0 s.streams
  (s.applyLevel).status 60 Reg.SHP_STATUS_LIVE_OVERCOMMIT (if above then 1 else 0)

/-! ## Parking (R212) -/

/-- Whether Lathe n carries a row-paced stream. -/
def State.rowPaced (s : State) (n : Nat) : Bool := s.streams.any (fun e => e.2.state != 0 && e.2.cls ≤ 1 && e.2.lanes.contains n)

/-- The hottest of a list of Lathes, the lowest-numbered between equals; one with no valid reading counts coolest
(DEDUCED, log entry 59). -/
def State.hottest (s : State) : List Nat → Option Nat
  | [] => none
  | n :: r =>
    let t (k : Nat) : Nat := if s.latheTemp k = 10000 then 0 else s.latheTemp k
    match s.hottest r with
    | some m => if t m ≤ t n then some n else some m
    | none => some n

/-- The coolest of a list of Lathes, the lowest-numbered between equals. -/
def State.coolest (s : State) : List Nat → Option Nat
  | [] => none
  | n :: r =>
    match s.coolest r with
    | some m => if s.latheTemp n ≤ s.latheTemp m then some n else some m
    | none => some n

/-- Lathes in service. -/
def State.serving (s : State) : List Nat := s.lathesAll.filter (fun n => s.role n = 0)

/-- Parked Lathes. -/
def State.parkedAll (s : State) : List Nat := s.lathesAll.filter s.parked

/-- A Lathe is drained and parked; its streams leave it at their frame boundaries (R217). -/
def State.park (s : State) (n : Nat) : State :=
  let s := (s.setRole n 1).setMask Reg.SHP_LT_PARKED_MASK n true
  (s.setFld (Reg.LTH_CTRL_DRAIN n) 1).leaveSpan n

/-- A parked Lathe returns to service and is woken. -/
def State.unpark (s : State) (n : Nat) : State :=
  ((s.setRole n 0).setFld (Reg.LTH_CTRL_DRAIN n) 0).wakeFor (12 + n) s.time []

/-- Parks k Lathes: those that carry no row-paced stream first, hottest first. -/
def State.parkMany (s : State) : Nat → State
  | 0 => s
  | k + 1 =>
    match s.hottest (s.serving.filter (fun n => !s.rowPaced n)), s.hottest s.serving with
    | some n, _ => (s.park n).parkMany k
    | none, some n => (s.park n).parkMany k
    | none, none => s

/-- Unparks k Lathes, coolest first. -/
def State.unparkMany (s : State) : Nat → State
  | 0 => s
  | k + 1 =>
    match s.coolest s.parkedAll with
    | some n => (s.unpark n).unparkMany k
    | none => s

/-! ## The tick (R209 to R215) -/

/-- The band that holds a temperature (R210). -/
def bandOf (t : Int) : Nat := if t ≤ 105 then 0 else if t ≤ 125 then 1 else 2

/-- The temperature at or below which band b may fall (R211). -/
def State.fallAt (s : State) (b : Nat) : Int := (if b = 2 then 125 else 105) - (atLeast1 (s.fld Reg.SHP_BAND_CFG_HYST_C) : Nat)

/-- The highest of the readings (DEDUCED, log entry 58). -/
def maxTemp : List (Option Int) → Option Int
  | [] => none
  | none :: r => maxTemp r
  | some t :: r =>
    match maxTemp r with
    | some u => some (max t u)
    | none => some t

/-- Readings that are valid: those of a sensor that the fault collector does not report (DEDUCED, log entry 58). -/
def State.validTemps (s : State) : Nat → List (Option Int) → List (Option Int)
  | _, [] => []
  | k, t :: r => (if s.fltSticky (256 + k) ∨ s.fltBroken (256 + k) then none else t) :: s.validTemps (k + 1) r

/-- The largest of a field over the present DRAM channels. -/
def State.dramMult (s : State) : Nat := (upTo 0 (partChannels s.part)).foldl (fun m ch => max m (s.fld (Reg.DMC_CH_STATE_MULT ch))) 0

/-- The highest DRAM die report. -/
def State.dramMax (s : State) : Int :=
  (upTo 1 (partChannels s.part - 1)).foldl (fun m ch => max m (ofTemp9 (s.fld (Reg.DMC_CH_STATE_TEMP ch))))
    (ofTemp9 (s.fld (Reg.DMC_CH_STATE_TEMP 0)))

/-- The band changes: SHP_GUAR follows, and the change is reported. -/
def State.toBand (s : State) (b : Nat) : State :=
  let s := { s with shp := { s.shp with fallSince := none } }
  (((s.setFld Reg.SHP_TEMP_BAND b).bump (if s.band < b then Cnt.SHP_BAND_RISES else Cnt.SHP_BAND_FALLS)).reGuar).raise 62
    Reg.SHP_STATUS_BAND_CHANGED

/-- The node withdraws (R438): a forced closure, and every domain but PD00 in reset until PD00's sensor has cooled. -/
def State.thermalWithdraw (s : State) : State :=
  let s := s.moduleReset 3
  { s with life := { s.life with withdrawn := true, coolSince := none } }

/-- The thermal sources (R438). -/
def State.judgeHeat (s : State) (t : Int) : State :=
  let s := (s.level 323 (decide (155 ≤ t))).level 324 (decide (160 ≤ t))
  if 160 ≤ t ∧ 5 ≤ s.mode ∧ s.mode ≤ 10 then s.thermalWithdraw else s

/-- How long the temperature has allowed HOLD to end (R431, R440). -/
def State.judgeCool (s : State) (t : Int) : State :=
  if s.life.withdrawn then s
  else { s with life := { s.life with coolSince := if t ≤ 145 then some (s.life.coolSince.getD s.time) else none } }

/-- SHEPHERD_TICK (R209 to R215, R438); pictures that wait take the Lathes that have become theirs to use (R202). -/
def execShepherdTick (tj : List (Option Int)) (now : Nat) (s : State) : Host.Outcome State Fault Refusal :=
  let s := s.at now
  let temps := s.validTemps 0 (tj.take 64)
  let valid := (temps.filter (fun t => t.isSome)).length
  let t := (maxTemp temps).getD (ofTemp9 (s.fld Reg.SHP_TEMP_TJ_MAX))
  let low : Bool := valid < 56
  let s := { s with shp := { s.shp with temps := temps } }
  let s := s.setFlds [(Reg.SHP_TEMP_TJ_MAX, temp9 t), (Reg.SHP_TEMP_SENSORS_VALID, valid), (Reg.SHP_TEMP_MULT, s.dramMult),
    (Reg.SHP_TEMP_DRAM_MAX, temp9 s.dramMax)]
  let s := s.status 63 Reg.SHP_STATUS_SENSORS_LOW (if low then 1 else 0)
  let want := if low then 2 else bandOf t
  let s :=
    if s.band < want then
      let s := ({ s with shp := { s.shp with falling := false } }.toBand want).judgeLevels
      s.parkMany (s.serving.length - s.guarN)
    else
      let cool : Bool := 0 < s.band && !low && t ≤ s.fallAt s.band
      { s with shp := { s.shp with fallSince := if cool then some (s.shp.fallSince.getD s.time) else none } }.judgeLevels
  .next (((s.judgeCool t).judgeHeat t).serveAll s.lathesAll)

/-- BAND_FALL (R211, R212): after DWELL_MS; the shed level is lowered once the unparked Lathes are ON. -/
def execBandFall (now : Nat) (s : State) : Host.Outcome State Fault Refusal :=
  let s := s.at now
  match s.shp.fallSince with
  | some t0 =>
    if 0 < s.band ∧ atLeast1 (s.fld Reg.SHP_BAND_CFG_DWELL_MS) * 1000 ≤ s.since t0 then
      let s := s.toBand (s.band - 1)
      let s := s.unparkMany (s.guarN - s.serving.length)
      .next ({ s with shp := { s.shp with falling := true } }.judgeLevels)
    else .next s
  | none => .next s

/-- UNPARK_COMPLETE (R212). -/
def execUnparkComplete (now : Nat) (s : State) : Host.Outcome State Fault Refusal :=
  let s := s.at now
  if s.shp.falling ∧ s.serving.all (fun n => s.pd (12 + n) ≤ 1) then
    .next ({ s with shp := { s.shp with falling := false } }.judgeLevels)
  else .next s

/-- PARKED_LATHE_OFF (R212): an access that reaches the Lathe in the same cycle wins, and the move is abandoned (R20). -/
def execParkedLatheOff (p : ParkIn) (s : State) : Host.Outcome State Fault Refusal :=
  let n := p.lathe
  .next (if s.hasLathe n ∧ s.parked n ∧ s.drained n ∧ s.pd (12 + n) ≠ 3 then
      (if p.access then s.wakeFor (12 + n) s.time [] else s.sleep (12 + n) 3)
    else s)

/-- The second half of a rotation: the unparked Lathe is ON, and the hottest Lathe in service without a row-paced stream is
parked. -/
def State.rotateEnd (s : State) (n : Nat) : State :=
  if s.shp.rotating = some n then
    let s := { s with shp := { s.shp with rotating := none } }
    match s.hottest (s.serving.filter (fun m => !s.rowPaced m)) with
    | some m => s.park m
    | none => s
  else s

/-- PARK_ROTATE (R213): while the band limits N. -/
def execParkRotate (now : Nat) (s : State) : Host.Outcome State Fault Refusal :=
  let s := s.at now
  if s.on Reg.SHP_CTRL_ROTATE_EN ∧ nLim s.part s.band < s.healthy.length ∧ s.shp.rotating.isNone
      ∧ atLeast1 (s.fld Reg.SHP_ROTATE_ROTATE_MIN) * 60000000 ≤ s.since s.shp.rotateAt then
    match s.coolest s.parkedAll with
    | some n =>
      let s := { s with shp := { s.shp with rotateAt := s.time, rotating := some n } }.unpark n
      .next (if s.pd (12 + n) = 0 then s.rotateEnd n else s)
    | none => .next s
  else .next s

/-! ## Budgets (R216) -/

/-- SHP_PWR_CAP in tenths of a watt. -/
def State.capDw (s : State) : Nat := 10 * clamp 40 130 (s.fld Reg.SHP_PWR_CAP_CAP_W)

/-- POWER_WINDOW. -/
def execPowerWindow (dw now : Nat) (s : State) : Host.Outcome State Fault Refusal :=
  let s := s.at now
  let cap := s.capDw
  let l := s.fld Reg.SHP_SHED_POWER_LEVEL
  let above : Bool := cap < dw
  let low : Bool := dw + 50 ≤ cap
  let s := s.setFlds [(Reg.SHP_PWR_POWER_DW, min 4095 dw), (Reg.SHP_PWR_OVER_CAP, if above then 1 else 0)]
  let s := s.status 61 Reg.SHP_STATUS_CAP_UNMET (if above ∧ l = 5 then 1 else 0)
  let t0 := s.shp.capSince.getD s.time
  let down : Bool := low && 0 < l && 1000000 ≤ s.since t0
  let since := if ¬ low then none else if down then some s.time else some t0
  let s := { s with shp := { s.shp with capSince := since } }
  let s := s.setFld Reg.SHP_SHED_POWER_LEVEL (if above then min 5 (l + 1) else if down then l - 1 else l)
  .next s.applyLevel

/-- BW_LEVEL_LOWER. -/
def execBwLevelLower (now : Nat) (s : State) : Host.Outcome State Fault Refusal :=
  let s := s.at now
  match s.shp.bwSince with
  | some t =>
    if s.bwNeed < s.fld Reg.SHP_SHED_BW_LEVEL ∧ 1000000 ≤ s.since t then
      let s := { s with shp := { s.shp with bwSince := none } }
      .next (s.setFld Reg.SHP_SHED_BW_LEVEL s.bwNeed).applyLevel
    else .next s
  | none => .next s

/-! ## Migration (R218 to R220) -/

/-- Whether no number stands twice in a list. -/
def distinct : List Nat → Bool
  | [] => true
  | n :: r => !r.contains n && distinct r

/-- Whether a Lathe may carry an encode stream's next picture: it holds V, or TARGET_VERSION at the re-pin picture. -/
def State.carries (s : State) (x : Stream) (n : Nat) : Bool :=
  x.dir = 0 || s.holdsV n (x.versionAt x.enc.c 0)

/-- Whether a span is one that the stream may take (DEDUCED, log entry 56). -/
def State.spanOk (s : State) (x : Stream) (lanes : List Nat) : Bool :=
  lanes != [] && lanes.length ≤ x.wMax && distinct lanes && lanes.all (fun n => s.hasLathe n && s.role n = 0 && s.carries x n)

/-- FRAME_BOUNDARY_MIGRATE (R218): STATE reads MIGRATING until the first task of the next picture, and the scheduling record counts
the move (DESIGN CHOICE, log entry 57; DEDUCED, log entry 62). -/
def execFrameBoundaryMigrate (sid : Nat) (lanes : List Nat) (now : Nat) (s : State) : Host.Outcome State Fault Refusal :=
  let s := s.at now
  let x := s.stream sid
  if x.state = 0 ∨ x.state = 5 ∨ ¬ x.idle ∨ ¬ s.spanOk x lanes ∨ lanes = x.lanes then .next s
  else if x.lanes = [] then .next (s.setStream sid { x with lanes := lanes })
  else
    let s := (x.lanes.filter (fun n => !lanes.contains n)).foldl (fun t n => t.bsqLeave sid n) s
    let s := s.setStream sid { x with lanes := lanes, migratePending := false, migrations := x.migrations + 1, state := 3 }
    .next ((s.saveCtx sid).bump Cnt.SHP_MIGRATIONS)

/-! ## Maintenance (R220, R221) -/

/-- The lanes that streams pinned to version v need: of the row-paced ones together, and the largest of the others. -/
def lanesOf (v : Nat) : Tbl Stream → Nat × Nat
  | [] => (0, 0)
  | (_, x) :: r =>
    let z := lanesOf v r
    let w := if x.lanes = [] then x.minW else x.lanes.length
    if x.state = 0 ∨ x.dir = 0 ∨ x.version ≠ v then z else if x.cls ≤ 1 then (z.1 + w, z.2) else (z.1, max z.2 w)

/-- The version check of R220 for Lathe n: without it, the healthy Lathes that hold each pinned version carry its streams
(DEDUCED, log entry 56). -/
def State.maintOk (s : State) (n : Nat) : Bool :=
  s.streams.all (fun e =>
    e.2.state = 0 || e.2.dir = 0 ||
      (let z := lanesOf e.2.version s.streams
       z.1 + z.2 ≤ (s.healthy.filter (fun m => m != n && s.holdsV m e.2.version)).length))

/-- Maintenance of Lathe n begins to drain it: a spare takes its place in service. -/
def State.maintDrain (s : State) (n : Nat) : State :=
  let s := if s.role n = 0 then s.promoteOpt (s.pickSpare n) else s
  let s := (s.setRole n 2).setFlds [(Reg.LTH_CTRL_DRAIN n, 1), (Reg.SHP_MAINT_STATE, 2), (Reg.FLT_LT_LADDER_RETIRE_BLOCKED n, 0),
    (Reg.FLT_LT_LADDER_RUNG n, 0)]
  (s.leaveSpan n).reGuar

/-- A write of SHP_MAINT: nothing while an action runs; START with a matching ACTION and a present Lathe that is not retired
begins one (R221, R225) (DEDUCED, log entry 61). -/
def State.maintWrite (s : State) (action : Nat) (v : Word) : State :=
  if s.on Reg.SHP_MAINT_START then s
  else
    let s := s.plainWrite 0x20054 v 0
    let n := s.fld Reg.SHP_MAINT_LATHE
    if bitsOf v 7 1 = 1 ∧ s.fld Reg.SHP_MAINT_ACTION = action ∧ s.hasLathe n ∧ s.role n ≠ 3 then
      let s := s.setFld Reg.SHP_MAINT_START 1
      if s.maintOk n then s.maintDrain n else s.setFld Reg.SHP_MAINT_STATE 1
    else s

/-- MAINT_RESTART. -/
def execMaintRestart (v : Word) (now : Nat) (s : State) : Host.Outcome State Fault Refusal := .next ((s.at now).maintWrite 0 v)

/-- MAINT_RECALIBRATE. -/
def execMaintRecalibrate (v : Word) (now : Nat) (s : State) : Host.Outcome State Fault Refusal := .next ((s.at now).maintWrite 1 v)

/-- MAINT_RETIRE. -/
def execMaintRetire (v : Word) (now : Nat) (s : State) : Host.Outcome State Fault Refusal := .next ((s.at now).maintWrite 2 v)

/-- MAINT_VERSION_OK (R220). -/
def execMaintVersionOk (now : Nat) (s : State) : Host.Outcome State Fault Refusal :=
  let s := s.at now
  let n := s.fld Reg.SHP_MAINT_LATHE
  .next (if s.fld Reg.SHP_MAINT_STATE = 1 ∧ s.maintOk n then s.maintDrain n else s)

/-- RESTART resets the Lathe's domain and loads its control store again; the load is verified by its own commands. -/
def State.maintReset (s : State) (n : Nat) : State :=
  let s := (s.domainClear (12 + n)).domainRestore (12 + n)
  let s := s.beginLoad n (s.fld (Reg.SPN_SRC_SEL n)) 1
  match tget none s.manifests (s.fld (Reg.SPN_SRC_SEL n)) with
  | some m => s.loadReady n m
  | none => s

/-- What the action of a maintenance does: RESTART, or RECALIBRATE, whose planned step is a free value of the measurement (R455)
(DEDUCED, log entry 61). -/
def State.maintAction (s : State) (n : Nat) : State :=
  if s.fld Reg.SHP_MAINT_ACTION = 0 then s.maintReset n
  else if s.fld Reg.SHP_MAINT_ACTION = 1 then s.freeNext.setFld (Reg.LCM_DOMAIN_VOFF (12 + n)) (s.freeVal % 31)
  else s

/-- MAINT_DRAINED (R221, R425): the action of a maintenance, or the RESTART and SELF_TEST of rung 3 (DEDUCED, log entry 28). -/
def execMaintDrained (n : Nat) (pass : Bool) (now : Nat) (s : State) : Host.Outcome State Fault Refusal :=
  let s := s.at now
  if s.fld Reg.SHP_MAINT_STATE = 2 ∧ s.fld Reg.SHP_MAINT_LATHE = n ∧ s.drained n then
    let retire : Bool := s.fld Reg.SHP_MAINT_ACTION = 2
    let s := s.maintAction n
    let s := s.setFlds [(Reg.SHP_MAINT_START, 0), (Reg.SHP_MAINT_STATE, if retire ∨ pass then 4 else 5)]
    .next (if pass ∧ ¬ retire then ((s.setRole n 1).setFld (Reg.LTH_CTRL_DRAIN n) 0).reGuar
      else ((s.setRole n 3).note (128 + n)).reGuar)
  else if (s.lth n).ladderSince.isSome ∧ s.role n = 2 ∧ s.drained n then
    let s := s.maintReset n
    .next (if pass then s.rung3Passed n else s.rung4 n)
  else .next s

end Sys2Proof.Machine
end

