-- ==== Sys2Proof/Machine/Reads.lean ====
section
/-!
DEFINITION. What a read of BAR0 returns (R2, R10, R24 to R26, R38, R434): the fields of registers, the registers whose value follows
from the rest of the state, counters, entry images, and the snapshots that a read takes.
-/
namespace Sys2Proof.Machine

/-! ## Where an address lies -/

/-- Whether the words at `o` to `o + n - 1` of a window hold an offset. -/
def within (o a n : Nat) : Bool := a ≤ o && o < a + n

/-- Whether a BAR0 address is a word of a 64-bit counter. -/
def counterAt (a : Nat) : Bool :=
  let w := a / 0x10000
  let o := a % 0x10000
  if 16 ≤ w ∧ w < 42 then within o 0x100 0x58 || within o 0x220 0x58 || within o 0x8100 0x40
  else if w = 2 then within o 0x100 0x40
  else if w = 3 then within o 0x1000 0x40
  else if w = 4 then within o 0x4200 0x30
  else if w = 5 then within o 0x3100 0x40
  else if w = 6 then (within o 0x8000 0x200 && o % 0x100 < 0x60) || within o 0x8200 0x28
  else if w = 7 then within o 0x200 0x30
  else if w = 9 then within o 0x400 0x40 || within o 0x4000 4776
  else if w = 10 then within o 0x200 0x60 || (within o 0x8000 0x1000 && within (o % 0x400) 0x200 0x20)
  else if w = 11 then within o 0x200 0x60
  else false

/-- Whether an address is a word of an entry image (R38). -/
def imageAt (a : Nat) : Bool := 0xC00000 ≤ a && a < 0x1400000

/-- Listed words that hold reserved bits only. -/
def reservedAt (a : Nat) : Bool :=
  (within a 0x51000 0x1000 && a % 0x40 = 0x1C) || (within a 0x61000 0x4000 && a % 0x20 = 0x1C)
    || (within a 0x74000 0x8000 && 0x18 ≤ a % 0x20)

/-- Whether a register lies at an address (R24, R25). -/
def mapped (a : Nat) : Bool := imageAt a || counterAt a || reservedAt a || regFields a != []

/-- Whether an address lies in the register window of an absent unit, or among the registers of an absent head (R2). -/
def State.absentAt (s : State) (a : Nat) : Bool :=
  let w := a / 0x10000
  if 16 ≤ w ∧ w < 42 then !s.hasLathe (w - 16)
  else if w = 11 then !s.hasInlay 1
  else w = 10 && within (a % 0x10000) 0x8000 0x1000 && !s.hasHead (a % 0x10000 / 0x400 % 4)

/-! ## Registers whose value follows from the rest -/

/-- Puts a value into bits [lo + n - 1 : lo] of a word. -/
def putBits (x lo n v : Nat) : Nat := x - x / 2 ^ lo % 2 ^ n * 2 ^ lo + v % 2 ^ n * 2 ^ lo

/-- Puts several values into a word. -/
def putAll (x : Nat) : List (Nat × Nat × Nat) → Nat
  | [] => x
  | (lo, n, v) :: r => putAll (putBits x lo n v) r

/-- A bit. -/
def bit (b : Bool) : Nat := if b then 1 else 0

/-- The word whose bit b is what `p` says of `base + b`. -/
def bitWord (base : Nat) (p : Nat → Bool) : Nat := (upTo 0 32).foldl (fun x b => x + bit (p (base + b)) * 2 ^ b) 0

/-- ID_CAPS0 to 2 and ID_PART of a part (R5, R460). -/
def partWord (p : Part) (o : Nat) : Option Nat :=
  let i := match p with
    | .lmx7260 => 0
    | .lmx7242 => 1
    | .lmx7221 => 2
  if o = 0 then some (nth 0 [0x17260, 0x17242, 0x17221] i)
  else if o = 0x10 then some (nth 0 [0xFFFFFFFF, 0x34003FFF, 0x3400007F] i)
  else if o = 0x14 then some (nth 0 [0x0218007F, 0x020C003F, 0x0106003F] i)
  else if o = 0x18 then some (nth 0 [0x1C2007, 0x0E1007, 0x070803] i)
  else none

/-- SHP_PD_STATE word k: the domains that the part lacks and those above PD37 read OFF (R18). -/
def State.pdWord (s : State) (k : Nat) : Nat :=
  (upTo 0 16).foldl (fun x i =>
    let d := 16 * k + i
    x + (if hasDomain s.part d then s.pd d else 3) * 4 ^ i) 0

/-- Sticky sources of a class. -/
def State.stickyOf (s : State) (c : Nat) : Nat := (s.flt.sticky.filter (fun e => e.2 && faultClass e.1 = some c)).length

/-- FLT_SRC_CFG of source k (R418, R419, R421). -/
def State.srcCfgWord (s : State) (k : Nat) : Nat :=
  let here := faultPresent s.part k
  putAll 0 [(0, 2, (faultClass k).getD 0), (2, 1, bit here), (3, 1, s.fld (fltIrq k)),
    (4, 1, bit (retireSource k && s.on (fltRetire k))), (5, 1, bit (s.holdSet k)), (6, 1, bit here), (8, 8, tget 0 s.flt.count k)]

/-- The rung-3 entries of Lathe n within the strike window (R423, R429) (DEDUCED, log entry 31). -/
def State.strikesNow (s : State) (n : Nat) : Nat :=
  min 31 ((s.lth n).strikes.filter (fun t => s.time ≤ t + s.strikeWindow)).length

/-- Registers of the FLT_ window (DEDUCED, log entry 23). -/
def State.fltWord (s : State) (o x : Nat) : Nat :=
  if o = 4 then putAll x [(0, 1, bit s.holdReq), (1, 1, bit (s.flt.latched.any (fun e => e.2))), (3, 6, s.flt.logWr),
    (9, 10, min 1023 (s.stickyOf 2)), (19, 10, min 1023 (s.stickyOf 3))]
  else if within o 0x10 12 then (if s.testLife then x else 0)
  else if within o 0x40 0x40 then bitWord (8 * (o - 0x40)) s.fltSticky
  else if within o 0x80 0x40 then bitWord (8 * (o - 0x80)) s.asserted
  else if within o 0xC0 0x40 then bitWord (8 * (o - 0xC0)) (fun k => tget false s.flt.latched k)
  else if within o 0x200 0x200 then logWord (tget logEnt0 s.flt.log ((o - 0x200) / 8))
  else if within o 0x400 104 then putBits x 3 5 (s.strikesNow ((o - 0x400) / 4))
  else if within o 0x800 0x800 then s.srcCfgWord ((o - 0x800) / 4)
  else x

/-- BWT_TGT_STATE of target t; whether its core waits for an interrupt is that of its firmware, a free value
(DESIGN CHOICE, log entry 22). -/
def State.tgtWord (s : State) (t x : Nat) : Nat :=
  let st := s.stack t
  let asleep := if t < 4 then s.freeVal else 0
  putAll x [(0, 4, (st.head?.map (fun e => e.2)).getD 0), (4, 1, bit st.isEmpty), (5, 5, st.length), (11, 1, asleep),
    (12, 1, bit ((s.bestClaim t []).isSome))]

/-- Registers of the event matrix and the Bellwether. -/
def State.evmWord (s : State) (o x : Nat) : Nat :=
  if within o 0xC00 0x80 then stampWord (tget stamp0 s.evm.stamps ((o - 0xC00) / 8))
  else if within o 0x4010 20 then s.tgtWord ((o - 0x4010) / 4) x
  else if within o 0x4100 0x80 then bitWord (8 * (o - 0x4100)) (fun k => s.bst k = 1 || s.bst k = 3)
  else x

/-- Whether the interface is quiet (R392). -/
def State.quiesced (s : State) : Bool :=
  s.on Reg.HIF_CTRL_QUIESCE && s.cmds.all (fun e => match e.2 with
      | some c => c.mgmt.isSome
      | none => true)
    && s.vecs.all (fun e => e.2.count = 0 && !e.2.pend)

/-- Registers of the HIF_ window. -/
def State.hifWord (s : State) (o x : Nat) : Nat :=
  if o = 4 then putBits x 11 1 (bit s.quiesced)
  else if within o 0x1000 0x1000 then
    let q := (o - 0x1000) / 0x40
    if o % 0x40 = 0x14 then putBits x 29 1 (bit (s.ldg.reqs.any (fun r => r.cls = .host && r.origin = q && r.held.isSome)))
    else if o % 0x40 = 0x18 then putBits x 16 16 (inFlight q s.cmds)
    else x
  else if within o 0x3000 8 then bitWord (8 * (o - 0x3000)) (fun v => (s.vec v).pend)
  else x

/-- Whether a Coop request's first pool is p. -/
def waitsAt (p : Nat) (r : CoopReq) : Bool := fitPool r.size = p

/-- Registers of the COP_ window. -/
def State.copWord (s : State) (o x : Nat) : Nat :=
  if within o 0x100 0xC0 then
    let p := (o - 0x100) / 0x20
    let k := o % 0x20
    if k = 0xC then s.coopFree p
    else if k = 0x10 then s.coopSharedFree p
    else if k = 0x14 then (s.coop.waits.filter (waitsAt p)).length % 65536
    else x
  else if within o 0xC000 0x4000 ∧ o % 0x10 ≠ 0xC then
    let w := (o - 0xC000) / 0x10
    let p := o % 0x10 / 2
    min 65535 (s.ownerHeld w p) + min 65535 (s.ownerHeld w (p + 1)) * 65536
  else x

/-- Registers of the DRV_ window. -/
def State.drvWord (s : State) (o x : Nat) : Nat :=
  if within o 0x100 0x400 ∧ o % 0x40 = 0x20 then
    putBits x 1 1 (bit (((s.reqOf .dma ((o - 0x100) / 0x40)).map (fun r => r.held.isSome)).getD false))
  else x

/-- The candidate in a place of the list that DMC_PPR_SEL names. -/
def State.pprRow (s : State) (e : Nat) : Option RowRec := (tget [] s.dram.cands (s.fld Reg.DMC_PPR_SEL_CHANNEL))[e]?

/-- Registers of the DMC_ window: those of an absent channel read 0 (R313). -/
def State.dmcWord (s : State) (o x : Nat) : Nat :=
  let ch := s.fld Reg.DMC_PPR_SEL_CHANNEL
  if o = 4 then putAll x [(0, 5, partChannels s.part), (5, 11, partUsable s.part / 2 ^ 24)]
  else if o = 0xF0 then putAll x [(8, 8, min 255 (tget 0 s.dram.above ch)), (16, 5, (tget [] s.dram.cands ch).length)]
  else if within o 0x100 0x80 then
    match s.pprRow ((o - 0x100) / 8) with
    | some r =>
      if o % 8 = 0 then putAll 0 [(0, 1, 1), (1, 4, ch), (5, 4, r.bank), (9, 16, r.row), (25, 1, bit r.softDone), (26, 1, bit r.exhausted)]
      else putAll 0 [(0, 8, min 255 r.corrected), (8, 1, bit r.uncorr)]
    | none => 0
  else if within o 0x200 0x40 then (if (o - 0x200) / 4 < partChannels s.part then x else 0)
  else if within o 0x300 0x40 then (if (o - 0x300) / 16 < partChannels s.part / 4 then x else 0)
  else x

/-- INL_CV_STATE of a canvas: 0 where it is not this Inlay's. -/
def State.cvWord (s : State) (i cv : Nat) : Nat :=
  let v := s.cv cv
  if v.inlay = some i then
    putAll 0 [(0, 1, bit v.cur.isSome), (1, 1, bit v.ovr.isSome), (2, 1, bit v.stale),
      (3, 1, bit (((s.reqOf .comp cv).map (fun r => r.held.isSome)).getD false)), (4, 4, v.queue.length), (8, 16, v.picSeq)]
  else 0

/-- Registers of an Inlay's window. -/
def State.inlWord (s : State) (i o x : Nat) : Nat :=
  if within o 0x100 0x100 then s.cvWord i ((o - 0x100) / 4)
  else if within o 0x8000 0x1000 ∧ within (o % 0x400) 0x100 0x100 then
    let d := o % 0x8000 / 0x400
    if s.on (Reg.DP_STATUS_HPD d) then leNat (((s.head d).edid.drop (o % 0x400 - 0x100)).take 4) else 0
  else x

/-- LTH_STATUS.MODE of an opcode. -/
def modeOf (op : Nat) : Nat :=
  if 0x10 ≤ op ∧ op < 0x30 then 1 else if encOpcode op then 2 else if 0x60 ≤ op ∧ op < 0x80 then 3 else 0

/-- LTH_STATUS (R104). -/
def State.lthStatus (s : State) (n : Nat) : Nat :=
  let l := s.lth n
  let d := l.curDesc
  let busy := match l.run with
    | some r => putAll 0 [(0, 2, modeOf (dOpcode r.task.desc)), (2, 1, 1), (4, 1, bit r.dep),
        (5, 1, bit (dOpcode r.task.desc = 0x13))]
    | none => 0
  putAll busy [(3, 1, bit (s.drained n)), (8, 9, dSid d), (17, 3, dLane d), (20, 3, dSpanM1 d)]

/-- The data of the location that SPN_CS_ADDR names (R281). -/
def State.storeAt (s : State) (n : Nat) : Nat :=
  let a := s.fld (Reg.SPN_CS_ADDR_ADDR n)
  if a < 4096 then tget 0 (s.lth n).cs a else tget 0 (s.lth n).disp (a - 4096)

/-- Registers of a Lathe's window (DESIGN CHOICE, log entry 37). -/
def State.lthWord (s : State) (n o x : Nat) : Nat :=
  let l := s.lth n
  let q := l.bsq
  if o = 0xC then s.lthStatus n
  else if o = 0x10 then putAll x [(0, 7, l.queue.length), (7, 1, bit (tqSize ≤ l.queue.length))]
  else if within o 0x40 0x40 then dw l.curDesc ((o - 0x40) / 4)
  else if within o 0x80 16 then nth 0 l.lastRes ((o - 0x80) / 4)
  else if o = 0x200 then putAll 0 [(0, 15, q.unread), (16, 15, q.occupied)]
  else if o = 0x204 then putAll 0 [(0, 1, bit q.discarding), (1, 1, bit q.gapWritten), (2, 1, bit q.flushPending), (3, 1, bit (q.rd != 0)),
    (4, 1, bit q.held.isSome)]
  else if o = 0x8 then (if s.testLife then x else putBits x 1 1 0)
  else if o = 0x8044 then (if s.testLife then x else putBits x 11 13 0)
  else if o = 0x8048 then (if s.testLife then x else 0)
  else if within o 0x8050 16 then (if s.testLife then s.storeAt n / 2 ^ (8 * (o - 0x8050)) % 2 ^ 32 else 0)
  else if o = 0x8060 then (if s.testLife then Config.storeCheck (s.storeAt n) % 65536 else 0)
  else if within o 0x9000 0x800 then
    let r := tget (0, 0) l.trace ((o - 0x9000) / 8)
    if o % 8 = 0 then r.1 else r.2
  else x

/-- Registers of the LGR_ window. -/
def State.ldgWord (s : State) (o x : Nat) : Nat :=
  let c (base : Nat) : LClass := (allCls[(o - base) / 4]?).getD .host
  if within o 0x50 20 then s.ldgHeld (c 0x50)
  else if within o 0x70 20 then min 65535 (s.ldgWait (c 0x70))
  else if o = 0xB0 then s.bucketFree .host .shared
  else if o = 0xB4 then putBits x 1 1 (bit (s.bucketFree .host .shared = 0))
  else x

/-- The value of the register at an address: what its fields hold, and what follows from the rest of the state
(DESIGN CHOICE, log entry 12). -/
def State.regWord (s : State) (a : Nat) : Nat :=
  let w := a / 0x10000
  let o := a % 0x10000
  let x := s.wordOf a (regFields a)
  if w = 0 then (partWord s.part o).getD x
  else if w = 1 then (if within o 0x100 152 ∧ (o = 0x100 ∨ ¬ hasDomain s.part ((o - 0x100) / 4)) then 0 else x)
  else if w = 2 then (if within o 0x80 12 then s.pdWord ((o - 0x80) / 4) else x)
  else if w = 3 then s.fltWord o x
  else if w = 4 then s.evmWord o x
  else if w = 5 then s.hifWord o x
  else if w = 7 then s.copWord o x
  else if w = 8 then s.drvWord o x
  else if w = 9 then s.dmcWord o x
  else if w = 10 ∨ w = 11 then s.inlWord (w - 10) o x
  else if 16 ≤ w ∧ w < 42 then s.lthWord (w - 16) o x
  else if w = 64 then s.ldgWord o x
  else x

/-! ## Snapshots (R10) -/

/-- The words that a read of the word at `a` takes a snapshot of, each with the address under which it is kept. -/
def snapWords (a : Nat) : List Nat :=
  let w := a / 0x10000
  let o := a % 0x10000
  let next (n : Nat) : List Nat := (upTo 1 n).map (fun k => a + 4 * k)
  if imageAt a then (if a % 64 = 0 then next 15 else [])
  else if counterAt a then (if a % 8 = 0 then next 1 else [])
  else if a = 4 then next 1
  else if w = 3 then (if within o 0x200 0x200 ∧ o % 8 = 0 then next 1 else [])
  else if w = 4 then (if within o 0xC00 0x80 ∧ o % 8 = 0 then next 1 else [])
  else if w = 5 then (if o = 0x14 then next 2 else [])
  else if w = 9 then (if o = 0x50 then next 1 else [])
  else if 16 ≤ w ∧ w < 42 then
    (if o = 0x40 then next 15 else if o = 0x80 then next 3 else if o = 0x280 ∨ o = 0x8030 then next 1
     else if o = 0x8050 then next 4 else if within o 0x9000 0x800 ∧ o % 8 = 0 then next 1 else [])
  else []

/-- Where the snapshot of a word is kept: the words of every entry image share one (R38). -/
def snapKey (a : Nat) : Nat := if imageAt a then 0xC00000 + a % 64 else a

/-- Whether a word is read from its requester's snapshot. -/
def fromSnap (a : Nat) : Bool :=
  let w := a / 0x10000
  let o := a % 0x10000
  if imageAt a then a % 64 != 0
  else if counterAt a then a % 8 = 4
  else if a = 8 then true
  else if w = 3 then within o 0x200 0x200 && o % 8 = 4
  else if w = 4 then within o 0xC00 0x80 && o % 8 = 4
  else if w = 5 then o = 0x18 || o = 0x1C
  else if w = 9 then o = 0x54
  else 16 ≤ w && w < 42 &&
    (within o 0x44 60 || within o 0x84 12 || o = 0x284 || o = 0x8034 || within o 0x8054 16 || (within o 0x9000 0x800 && o % 8 = 4))

/-- The present value of a word, whatever its snapshot: a register's, a counter's or an image's (DEDUCED, log entry 16). -/
def State.nowWord (s : State) (a : Nat) : Nat :=
  if imageAt a then s.lgrWord ((a - 0xC00000) / 64) (a % 64 / 4)
  else if counterAt a then s.cnt (a - a % 8) / 2 ^ (8 * (a % 8)) % 2 ^ 32
  else if within (a % 0x10000) 0x200 0x200 && a / 0x10000 = 3 && a % 8 = 4 then (tget logEnt0 s.flt.log ((a % 0x10000 - 0x200) / 8)).time
  else if within (a % 0x10000) 0xC00 0x80 && a / 0x10000 = 4 && a % 8 = 4 then (tget stamp0 s.evm.stamps ((a % 0x10000 - 0xC00) / 8)).secs
  else s.regWord a

/-- Whether a register field holds what OTP or flash holds, which is its reset value. -/
def burnt (k : Nat) : Bool :=
  let a := k / 32
  a = 4 || a = 8 || (0x1000C ≤ a && a ≤ 0x10020) || a = 0x10038 || a = 0x1003C || (within a 0x10100 152 && k % 32 = 14)

/-- What the host's reads see: before the end of LOAD reset values (R434), else the machine. -/
def State.seenBy (s : State) (rq : Requester) : State :=
  if rq = .host ∧ 1 ≤ s.mode ∧ s.mode ≤ 4 then
    { State.resetOf s.part with flds := putFlds (partFlds s.part) (s.flds.filter (fun e => burnt e.1)) }
  else s

/-- Takes snapshots for a requester. -/
def State.takeSnaps (s : State) (rq : Requester) : List Nat → State
  | [] => s
  | a :: r => (s.setSnap rq (snapKey a) ((s.seenBy rq).nowWord a)).takeSnaps rq r

/-! ## Reads -/

/-- The value that a read of an aligned address returns (DEDUCED, log entry 16). -/
def State.readWord (s : State) (rq : Requester) (a : Nat) : Nat :=
  if s.absentAt a ∨ ¬ mapped a then 0
  else if fromSnap a then s.snap rq (snapKey a)
  else (s.seenBy rq).nowWord a

/-- A plain read: it answers its value and takes its group's snapshot. -/
def State.plainRead (s : State) (rq : Requester) (a : Nat) : State :=
  let v := s.readWord rq a
  let s := if s.absentAt a then s else s.takeSnaps rq (snapWords a)
  s.answer rq a v

end Sys2Proof.Machine
end

