-- ==== Sys2Proof/Machine/Bus.lean ====
section
/-!
DEFINITION. An access of BAR0 by any requester: what a write does to each window, by the field's access code or as the command that
the register has of its own, and what a read does (R2, R6 to R10, R19, R25, R26, R36, R105).
-/
namespace Sys2Proof.Machine

/-- The state of a command that answers a next state. -/
def State.ran (s : State) : Host.Outcome State Fault Refusal → State
  | .next t => t
  | .fault _ => s
  | .refused _ => s

/-! ## Locks, counters and peaks -/

/-- LGR_CTRL.LOCK (R36): the writes of the same cycle come first (R9); a failed check leaves LOCK 0 and sets CFG_ERR. -/
def State.ldgLock (s : State) (also : List (Nat × Word)) : State :=
  let s := s.plainWrites (also.filter (fun w => w.1 / 0x10000 = 64))
  if s.on Reg.LGR_CTRL_LOCK then s
  else if s.lgrMinSum ≤ 131072 ∧ allCls.all (fun c => s.lgrLive c ≤ s.lgrMin c) then
    (s.setFlds [(Reg.LGR_CTRL_LOCK, 1), (Reg.LGR_STATUS_CFG_ERR, 0)]).judge
  else (s.setFld Reg.LGR_STATUS_CFG_ERR 1).judge

/-- Sets a lock bit where the written word has bit `b`. -/
def State.lockBit (s : State) (f : Fld) (v : Word) (b : Nat) : State := if bitsOf v b 1 = 1 then s.swSet f 1 else s

/-- Whether a counter is one of a unit's (R105, R140, R226): DMC_ACCT is not, and the heads' are IN0's. -/
def cntOf (u : CntUnit) (c : Nat) : Bool :=
  let w := c / 0x10000
  match u with
  | .lth n => w = 16 + n
  | .shp => w = 2
  | .inl i => w = 10 + i
  | .dmc => w = 9 && c % 0x10000 < 0x4000
  | .hif => w = 5
  | .rng => w = 6
  | .cop => w = 7
  | .bwt => w = 4
  | .flt => w = 3

/-- Whether a unit is present. -/
def State.hasCnt (s : State) (u : CntUnit) : Bool :=
  match u with
  | .lth n => s.hasLathe n
  | .inl i => s.hasInlay i
  | _ => true

/-- CLEAR: every counter of the unit is 0, whatever counts in the same cycle (R105). -/
def State.clearCnts (s : State) (u : CntUnit) : State := if s.hasCnt u then { s with cnts := tclear (cntOf u) s.cnts } else s

/-- The unit whose counter control register lies at an address. -/
def cntCtrl (a : Nat) : Option CntUnit :=
  if a = 0x20180 then some .shp
  else if a = 0x31080 then some .flt
  else if a = 0x44280 then some .bwt
  else if a = 0x53180 then some .hif
  else if a = 0x68300 then some .rng
  else if a = 0x70280 then some .cop
  else if a = 0x90480 then some .dmc
  else if a = 0xA0280 then some (.inl 0)
  else if a = 0xB0280 then some (.inl 1)
  else if 0x100000 ≤ a ∧ a < 0x2A0000 ∧ a % 0x10000 = 0x180 then some (.lth (a / 0x10000 - 16))
  else none

/-- A CLR bit takes a peak or a maximum to its current value, a merge count to 0 (R7, R104, R320, R364, R413). -/
def State.clearPeak (s : State) (r : PeakReg) : State :=
  match r with
  | .lgr c => if c < 5 then s.setFld (Reg.LGR_PEAK_PEAK c) (s.ldgHeld ((allCls[c]?).getD .host)) else s
  | .lthTq n => if s.hasLathe n then s.setFld (Reg.LTH_TQ_PEAK n) (s.lth n).queue.length else s
  | .copPool p => if p < 6 then s.setFld (Reg.COP_POOL6_PEAK_HELD p) (s.coopHeld p) else s
  | .txq p q =>
    let k := p * 256 + q
    if p < 2 ∧ q < 256 then s.setFld (Reg.RNG_TXQ_SAMPLE1_MAX_AGE_US k) (s.fld (Reg.RNG_TXQ_SAMPLE0_HEAD_AGE_US k)) else s
  | .evmSrc x => if x < 256 then s.setFlds [(Reg.EVM_SRC_STAT_MERGED x, 0), (Reg.EVM_SRC_STAT_DROPPED x, 0)] else s

/-- The register with a CLR bit at an address, and that bit. -/
def peakAt (a : Nat) : Option (PeakReg × Nat) :=
  let w := a / 0x10000
  let o := a % 0x10000
  if w = 64 ∧ within o 0x90 20 then some (.lgr ((o - 0x90) / 4), 31)
  else if 16 ≤ w ∧ w < 42 ∧ o = 0x10 then some (.lthTq (w - 16), 15)
  else if w = 7 ∧ within o 0x100 0xC0 ∧ o % 0x20 = 0x18 then some (.copPool ((o - 0x100) / 0x20), 31)
  else if w = 6 ∧ within o 0x7000 0x1000 ∧ o % 8 = 4 then some (.txq ((o - 0x7000) / 0x800) ((o - 0x7000) % 0x800 / 8), 31)
  else if w = 4 ∧ within o 0x800 0x400 then some (.evmSrc ((o - 0x800) / 4), 31)
  else none

/-! ## Writes by window -/

/-- LCM_: the lock, and the requests for a mode. -/
def State.lcmWrite (s : State) (o : Nat) (v hw : Word) : State :=
  if o = 0 then s.lockBit Reg.LCM_CTRL_LOCK v 0
  else if o = 8 then
    let r := bitsOf v 0 4
    if r = 1 then s.ran (execModeReqRestart v s.time s)
    else if r = 5 then s.ran (execModeReqService v s.time s)
    else if r = 7 then s.ran (execModeReqMaintain v s.time s)
    else if r = 8 then s.ran (execModeReqQuiet v s.time s)
    else s.plainWrite 0x10008 v hw
  else s.plainWrite (0x10000 + o) v hw

/-- SHP_: the lock, which takes effect behind the fields of its own word (R9), maintenance, and the limits of domains, which an absent
domain does not take (R18). -/
def State.shpWrite (s : State) (o : Nat) (v hw : Word) : State :=
  if o = 0 then (s.plainWrite 0x20000 v 0).lockBit Reg.SHP_CTRL_LOCK v 0
  else if o = 0x54 then
    let k := bitsOf v 5 2
    if k = 0 then s.ran (execMaintRestart v s.time s)
    else if k = 1 then s.ran (execMaintRecalibrate v s.time s)
    else if k = 2 then s.ran (execMaintRetire v s.time s)
    else if s.on Reg.SHP_MAINT_START then s
    else s.plainWrite 0x20054 v hw
  else if within o 0x90 12 then
    s.plainWrite (0x20000 + o) v hw (((upTo 0 16).filter (fun i => !hasDomain s.part (4 * (o - 0x90) + i))).map (2 * ·))
  else s.plainWrite (0x20000 + o) v hw

/-- FLT_SRC_CFG of source k (R421): RETIRE_UNIT is writable for its Lathe sources only, and HOLD not for class DEVICE; a HOLD set over
a sticky source holds the module (DEDUCED, log entry 25). -/
def State.srcCfgWrite (s : State) (k : Nat) (v : Word) : State :=
  if s.on Reg.FLT_CTRL_LOCK then s
  else
    let s := s.swSet (fltIrq k) (bitsOf v 3 1)
    let s := if retireSource k then s.swSet (fltRetire k) (bitsOf v 4 1) else s
    let s := if faultClass k = some 3 then s else s.swSet (fltHold k) (bitsOf v 5 1)
    if s.fltSticky k ∧ s.holdSet k then s.enterHold k else s

/-- FLT_INJECT_CTRL (R428), by the kind written. -/
def State.injectWrites (s : State) (v : Word) : State :=
  let k := bitsOf v 0 4
  if k = 0 then s.ran (execInjectAssert v s.time s)
  else if k = 1 then s.ran (execInjectBreakF v s.time s)
  else if k = 2 then s.ran (execInjectBreakFn v s.time s)
  else if k = 3 then s.ran (execInjectDramCe v s)
  else if k = 4 then s.ran (execInjectDramUe v s)
  else if k = 5 then s.ran (execInjectCsFlip v s)
  else if k = 6 then s.ran (execInjectCsFlip2 v s)
  else if k = 7 then s.ran (execInjectBsqParity v s)
  else (s.injectCtrl k v).1

/-- FLT_. -/
def State.fltWrite (s : State) (o : Nat) (v hw : Word) : State :=
  if o = 0 then s.lockBit Reg.FLT_CTRL_LOCK v 0
  else if o = 0x10 then s.injectWrites v
  else if o = 0x14 ∨ o = 0x18 then
    (if s.testLife ∧ ¬ s.on Reg.FLT_INJECT_CTRL_ARM then s.plainWrite (0x30000 + o) v hw else s)
  else if within o 0x40 0x40 then s.ran (execStickyClear ((o - 0x40) / 4) v [] s.time s)
  else if within o 0xC0 0x40 then s.ran (execBrokenClear ((o - 0xC0) / 4) v s)
  else if within o 0x800 0x800 then s.srcCfgWrite ((o - 0x800) / 4) v
  else s.plainWrite (0x30000 + o) v hw

/-- EVM_ and BWT_. -/
def State.evmWrite (s : State) (rq : Requester) (o : Nat) (v hw : Word) : State :=
  if o = 0 then s.lockBit Reg.EVM_CTRL_LOCK v 0
  else if o = 0x10 then s.ran (execSwFencePulse false v s)
  else if o = 0x14 then s.ran (execSwFencePulse true v s)
  else if o = 0x30 then s.ran (execGpioDirWrite v s)
  else if within o 0x400 0x400 then s.ran (execSinkWrite ((o - 0x400) / 4) v s)
  else if within o 0x4060 20 then s.ran (execBwtEoi rq ((o - 0x4060) / 4) v false s)
  else if o = 0x4080 then s.ran (execBwtSet rq v s)
  else if o = 0x4084 then s.ran (execBwtClear v false s)
  else if within o 0x8000 0x1000 then s.ran (execBwtSrcCfgWrite ((o - 0x8000) / 4) v s)
  else s.plainWrite (0x40000 + o) v hw

/-- A word of a queue's registers (R375, R394). -/
def State.queueWrite (s : State) (q k : Nat) (v hw : Word) : State :=
  if s.isMgmt q then s
  else if k < 4 then (if s.qState q = 0 then s.plainWrite (0x51000 + 0x40 * q + 4 * k) v hw else s)
  else if k = 4 then (if bitsOf v 31 1 = 1 then s.ran (execQueueEnable q v s) else s.ran (execQueueDisable q v s))
  else s.plainWrite (0x51000 + 0x40 * q + 4 * k) v hw

/-- HIF_: HIF_CTRL, the queues, and an unmasking of a vector. -/
def State.hifWrite (s : State) (o : Nat) (v hw : Word) : State :=
  if o = 0 then s.ran (execQuiesce v s)
  else if within o 0x1000 0x1000 then s.queueWrite ((o - 0x1000) / 0x40) (o % 0x40 / 4) v hw
  else if within o 0x2000 0x400 ∧ o % 0x10 = 0xC then
    let x := (o - 0x2000) / 0x10
    if bitsOf v 0 1 = 1 then s.setFld (Reg.MSIX_CTRL_MASK x) 1 else s.ran (execVectorUnmask x s)
  else s.plainWrite (0x50000 + o) v hw

/-- RNG_. -/
def State.rngWrite (s : State) (o : Nat) (v hw : Word) : State :=
  if o = 0 then s.lockBit Reg.RNG_CTRL_LOCK v 0
  else if o = 0x24 then s.ran (execForceBypass v s.time s)
  else if within o 0x6000 0x800 ∧ o % 8 = 0 then s.ran (execTxqRateWrite ((o - 0x6000) / 8) v s.time s)
  else s.plainWrite (0x60000 + o) v hw

/-- COP_. -/
def State.copWrite (s : State) (o : Nat) (v hw : Word) : State :=
  if o = 0 then (if v.getLsbD 0 then s.ran (execCoopLock [] s) else s) else s.plainWrite (0x70000 + o) v hw

/-- DRV_CMD of a channel. -/
def State.drvCmd (s : State) (n : Nat) (v : Word) : State :=
  if v.getLsbD 1 then s.ran (execDrvAbort n v s.time s)
  else if s.drvMode n = 1 then s.ran (execDrvFill n v s.time s)
  else if s.drvMode n = 2 then s.ran (execDrvCompare n v s.time s)
  else s.ran (execDrvCopy n v s.time s)

/-- DRV_: while BUSY the job's registers ignore writes and set WRITE_IGNORED (R337). -/
def State.drvWrite (s : State) (o : Nat) (v hw : Word) : State :=
  let n := (o - 0x100) / 0x40
  if within o 0x100 0x400 then
    if o % 0x40 = 0x1C then s.drvCmd n v
    else if o % 0x40 < 0x1C ∧ s.on (Reg.DRV_STATUS_BUSY n) then s.setFld (Reg.DRV_STATUS_WRITE_IGNORED n) 1
    else s.plainWrite (0x80000 + o) v hw
  else s

/-- DMC_. -/
def State.dmcWrite (s : State) (o : Nat) (v hw : Word) : State :=
  if o = 0 then (if v.getLsbD 0 then s.ran (execDmcLock [] s) else s) else s.plainWrite (0x90000 + o) v hw

/-- INL_, with the override and head registers in the window of IN0. -/
def State.inlWrite (s : State) (i o : Nat) (v hw : Word) : State :=
  if o = 4 then s.lockBit (Reg.INL_CTRL_LOCK i) v 0
  else if i = 0 ∧ o = 0x20 then
    (if bitsOf v 4 1 = 1 then s.ran (execOverrideReleaseWrite v s.time s) else s.ran (execOverrideTriggerWrite v s.time s))
  else if i = 0 ∧ within o 0x8000 0x1000 ∧ o % 0x400 = 0 then s.ran (execHeadEnable (o % 0x8000 / 0x400) v s)
  else s.plainWrite (0xA0000 + 0x10000 * i + o) v hw

/-- LTH_CTRL (R104): DRAIN sets, DIRECT_TQ is writable in FACTORY and RETURNED only, LOCK locks. -/
def State.lthCtrl (s : State) (n : Nat) (v : Word) : State :=
  let s := if v.getLsbD 0 then s.ran (execLatheDrain n s) else s
  let s := if s.testLife then s.swSet (Reg.LTH_CTRL_DIRECT_TQ n) (bitsOf v 1 1) else s
  s.lockBit (Reg.LTH_CTRL_LOCK n) v 2

/-- LTH_TQ_PUSH word k (R104): staging, and the push at word 15. -/
def State.tqStage (s : State) (rq : Requester) (n k : Nat) (v : Word) : State :=
  if k = 15 then s.ran (execLthTqPush rq n v s.time s)
  else if s.on (Reg.LTH_CTRL_DIRECT_TQ n) then
    let l := s.lth n
    s.setLth n { l with push := tset 0 l.push k v.toNat }
  else s

/-- LTH_ and SPN_. -/
def State.lthWrite (s : State) (rq : Requester) (n o : Nat) (v hw : Word) : State :=
  if o = 8 then s.lthCtrl n v
  else if within o 0xC0 0x40 then s.tqStage rq n ((o - 0xC0) / 4) v
  else if o = 0x208 then (if v.getLsbD 0 then s.ran (execBsqFlushRequest n s) else s)
  else if o = 0x8004 then s.ran (execSpnReload n v s)
  else if o = 0x8044 then s.ran (execTraceEnable n v s)
  else if o = 0x8048 ∧ ¬ s.testLife then s
  else s.plainWrite (0x100000 + 0x10000 * n + o) v hw

/-- LGR_: the lock, and the reserves, which the waiting requests are judged by anew (DESIGN CHOICE, log entry 119). -/
def State.lgrWrite (s : State) (o : Nat) (v hw : Word) : State :=
  if o = 0 then (if v.getLsbD 0 then s.ldgLock [] else s) else (s.plainWrite (0x400000 + o) v hw).judge

/-- A write of the word at an aligned address that a present unit decodes. -/
def State.winWrite (s : State) (rq : Requester) (a : Nat) (v hw : Word) : State :=
  let w := a / 0x10000
  let o := a % 0x10000
  if w = 1 then s.lcmWrite o v hw
  else if w = 2 then s.shpWrite o v hw
  else if w = 3 then s.fltWrite o v hw
  else if w = 4 then s.evmWrite rq o v hw
  else if w = 5 then s.hifWrite o v hw
  else if w = 6 then s.rngWrite o v hw
  else if w = 7 then s.copWrite o v hw
  else if w = 8 then s.drvWrite o v hw
  else if w = 9 then s.dmcWrite o v hw
  else if w = 10 ∨ w = 11 then s.inlWrite (w - 10) o v hw
  else if 16 ≤ w ∧ w < 42 then s.lthWrite rq (w - 16) o v hw
  else if w = 64 then s.lgrWrite o v hw
  else s

/-- Rising edges of the sources of a list that became asserted between two states: bits that hardware set in the cycle of a write
(DEDUCED, log entry 17). -/
def State.newEdges (s s0 : State) : List Nat → State
  | [] => s
  | k :: r => (if s.asserted k && !s0.asserted k then s.faultEdge k else s).newEdges s0 r

/-- A write of the word at an address (R2, R6 to R9, R25): of an absent unit nothing, of an unmapped or misaligned address a NOTE. -/
def State.busWrite (s : State) (rq : Requester) (a : Nat) (v hw : Word) : State :=
  if s.absentAt a then s
  else if a % 4 ≠ 0 ∨ ¬ mapped a then s.note 0
  else
    let s1 := s.winWrite rq a v hw
    let s1 := match cntCtrl a with
      | some u => if v.getLsbD 0 then s1.clearCnts u else s1
      | none => s1
    let s1 := match peakAt a with
      | some (r, b) => if bitsOf v b 1 = 1 then s1.clearPeak r else s1
      | none => s1
    if hw = 0 then s1 else s1.newEdges s (upTo 0 512)

/-! ## Reads -/

/-- A read of the word at an address: claims, stamps and log entries have effects of their own (DESIGN CHOICE, log entry 22). -/
def State.busRead (s : State) (rq : Requester) (a : Nat) : State :=
  let w := a / 0x10000
  let o := a % 0x10000
  if s.absentAt a then s.answer rq a 0
  else if a % 4 ≠ 0 ∨ ¬ mapped a then (s.note 0).answer rq a 0
  else if w = 3 ∧ within o 0x200 0x200 ∧ o % 8 = 0 then s.ran (execLogRead rq ((o - 0x200) / 8) s)
  else if w = 4 ∧ within o 0xC00 0x80 ∧ o % 8 = 0 then s.ran (execStampRead rq ((o - 0xC00) / 8) s)
  else if w = 4 ∧ within o 0x4040 20 then s.ran (execBwtClaim rq ((o - 0x4040) / 4) [] none s)
  else if w = 4 ∧ within o 0x4010 20 then (s.plainRead rq a).freeNext
  else s.plainRead rq a

/-- An access performs. -/
def State.perform (s : State) (x : Access) : State :=
  match x.write with
  | some v => s.busWrite x.rq x.addr v 0
  | none => s.busRead x.rq x.addr

/-- Accesses in order. -/
def State.performAll (s : State) : List Access → State
  | [] => s
  | x :: r => (s.perform x).performAll r

/-- An access arrives: it waits for a domain in RET or OFF, wakes one from IDLE, and else performs (DESIGN CHOICE, log entry 14). -/
def State.access (s : State) (x : Access) : State :=
  if s.absentAt x.addr ∨ x.addr % 4 ≠ 0 ∨ ¬ mapped x.addr then s.perform x
  else
    match s.asleepAt x.addr, domainOf x.addr with
    | some d, _ => s.wakeFor d s.time [x]
    | none, some d => (s.wakeFor d s.time []).perform x
    | none, none => s.perform x

end Sys2Proof.Machine
end

