-- ==== Sys2Proof/Machine/Power.lean ====
section
/-!
DEFINITION. Power states of domains and the hold limit of the ledger (R16, R17, R19 to R21, R32, R223, R224, R309).
-/
namespace Sys2Proof.Machine

/-! ## The ledger's hold limit (R32) -/

/-- HOLD_LONG: some request has been held longer than LGR_HOLD_LIMIT. -/
def execHoldLong (now : Nat) (s : State) : Host.Outcome State Fault Refusal :=
  let s := s.at now
  let long (r : LReq) : Bool := match r.held with
    | some t => decide (atLeast1 (s.fld Reg.LGR_HOLD_LIMIT_LIMIT_US) < s.since t)
    | none => false
  .next (if s.ldg.reqs.any long then s.raise 40 Reg.LGR_STATUS_HOLD_LONG else s)

/-! ## Waking (R17, R19, R21, R224) -/

/-- The bound of a domain's wake from a state, in microseconds (R17): that of IDLE is below one. -/
def wakeUs (d st : Nat) : Nat := if st = 3 then (if 12 ≤ d then 150 else 120) else if st = 2 then 8 else 0

/-- DOMAIN_WAKE_DONE: a waking domain is ON; what R21 restores is restored before the accesses that waited perform in their order, and
one that was needed earlier is late. A Lathe's wake is paid by its next picture's task: 150 or 8 us at 1.188 GHz (R75)
(DEDUCED, log entry 65). -/
def execDomainWakeDone (pd now : Nat) (s : State) : Host.Outcome State Fault Refusal :=
  let s := s.at now
  match tget none s.wakes pd with
  | none => .next s
  | some w =>
    let off : Bool := s.pd pd = 3
    let ret : Bool := s.pd pd = 2
    let s := { s with wakes := tset none s.wakes pd none }.setFld (pdStateF pd) 0
    let s := if off then s.domainRestore pd else s
    let s := if 12 ≤ pd then s.setLth (pd - 12) { s.lth (pd - 12) with woke := if off then 178200 else 9504 } else s
    let s := if 12 ≤ pd ∧ ret then (s.csPass (pd - 12)).1 else s
    let s := if w.need < s.time then (s.setFld Reg.SHP_STATUS_WAKE_LATE 1).bump Cnt.SHP_WAKES_LATE else s
    let s := s.performAll w.accs
    .next (if 12 ≤ pd then s.rotateEnd (pd - 12) else s)

/-- DOMAIN_WAKE_START (R223): a foreseen need, its wake time and the guard before it. -/
def execDomainWakeStart (pd need now : Nat) (s : State) : Host.Outcome State Fault Refusal :=
  let s := s.at now
  .next (if need ≤ s.time + wakeUs pd (s.pd pd) + s.fld Reg.SHP_GUARD_WAKE_GUARD_US then s.wakeFor pd need [] else s)

/-! ## The choice of a state (R223) -/

/-- Whether a domain works: a Lathe with a task queued or running, an Inlay that composes, a head that is enabled, a Drover or
DRAM access under way. -/
def State.busyPd (s : State) (d : Nat) : Bool :=
  if 12 ≤ d then !s.latheFree (d - 12)
  else if d = 6 ∨ d = 7 then s.canvases.any (fun e => e.2.inlay = some (d - 6) && e.2.cur.isSome)
  else if d = 5 then (upTo 0 4).any (fun k => s.on (Reg.DP_CTRL_ENABLE k))
  else if 8 ≤ d then
    (upTo 0 4).any (fun k => s.on (Reg.DP_CTRL_ENABLE k)) || s.dram.retry != [] || s.drvs.any (fun e => e.2.phase = .running)
      || s.lathesAll.any (fun n => (s.lth n).run.isSome) || s.canvases.any (fun e => e.2.cur.isSome)
  else false

/-- Whether a domain carries a row-paced stream: a Lathe of its span, or the Inlay of its canvas. -/
def State.carriesRows (s : State) (d : Nat) : Bool :=
  if 12 ≤ d then s.rowPaced (d - 12)
  else if d = 6 ∨ d = 7 then s.canvases.any (fun e => e.2.inlay = some (d - 6) && s.canvasFeedsLive e.1)
  else false

/-- Whether the Shepherd chooses a domain's state: PD01, PD05 to PD07 and the Lathes, and the DRAM quadrants while outputs are held
(DEDUCED, log entry 64). -/
def State.chooses (s : State) (d : Nat) : Bool :=
  hasDomain s.part d && (d = 1 || (5 ≤ d && d < 8) || (8 ≤ d && d < 12 && s.outputsHeld) || 12 ≤ d)

/-- The deepest state that R16 allows (DEDUCED, log entry 64). -/
def deepest (d : Nat) : Nat := if d = 1 ∨ (8 ≤ d ∧ d < 12) then 2 else 3

/-- SHP_PD_LIMIT of a domain. -/
def pdLimit (d : Nat) : Fld := ⟨0x20090 + 4 * (d / 16), 2 * (d % 16), 2, 3⟩

/-- The least of a list of times. -/
def soonest : List Nat → Option Nat
  | [] => none
  | t :: r => some ((soonest r).elim t (min t))

/-- When a stream next needs its Lathes, in microseconds of ledger time (R199, R223): for an encoded picture at the ready time of its last row, for
a decoded one a picture period after the last arrival, less the guard. -/
def State.needOf (s : State) (sid : Nat) (x : Stream) : Nat :=
  if x.dir = 0 then tget 0 s.ring.lastAt sid + x.period / 27 - s.fld Reg.SHP_GUARD_ARRIVAL_GUARD_US
  else if x.enc.decided != [] then s.time
  else s.time + (s.readyNs x 0 x.enc.c ((s.geo x 0).rows - 1) - s.ptpNs) / 1000

/-- The time to the next need of a domain that the calendar knows: of a Lathe by the streams of its span, of an Inlay by the nominal starts of its
canvases (R223) (DEDUCED, log entry 64). -/
def State.knownGap (s : State) (d : Nat) : Option Nat :=
  if 12 ≤ d then
    soonest ((s.streams.filter (fun e => e.2.state != 0 && e.2.lanes.contains (d - 12))).map (fun e => s.needOf e.1 e.2 - s.time))
  else if d = 6 ∨ d = 7 then
    soonest ((s.canvases.filter (fun e => e.2.inlay = some (d - 6) && e.2.startAt != 0)).map
      (fun e => (e.2.timeOf e.2.c - s.ptpNs) / 1000))
  else none

/-- The time to a domain's next need: of what the calendar knows and what the Shepherd knows beside it, the earlier. -/
def State.nextGap (s : State) (d : Nat) (g : Option Nat) : Option Nat := soonest (g.toList ++ (s.knownGap d).toList)

/-- Whether the time to the next need, less the wake time from a state and the guard, is at least a bound; with no known need it is
(DEDUCED, log entry 64). -/
def State.gap (s : State) (d st bound : Nat) : Option Nat → Bool
  | none => true
  | some g => bound + wakeUs d st + s.fld Reg.SHP_GUARD_WAKE_GUARD_US ≤ g

/-- The state that the table of R223 gives an idle domain (DEDUCED, log entry 64). -/
def State.wantPd (s : State) (d : Nat) (gnext : Option Nat) : Nat :=
  let gnext := s.nextGap d gnext
  if 12 ≤ d ∧ (s.role (d - 12) = 1 ∨ s.role (d - 12) = 3 ∨ s.outputsHeld) then 3
  else if 8 ≤ d ∧ d < 12 then 2
  else if s.carriesRows d then 1
  else if s.gap d 3 2000 gnext then 3
  else if s.gap d 2 40 gnext then 2
  else 1

/-- POWER_STATE_DECISION: a domain that works or is accessed is ON or wakes (R20, R224); an idle one takes the deepest state allowed. -/
def execPowerStateDecision (pd : Nat) (gnext : Option Nat) (access : Bool) (now : Nat) (s : State) :
    Host.Outcome State Fault Refusal :=
  let s := s.at now
  if ¬ s.chooses pd then .next s
  else if access ∨ s.busyPd pd then .next (s.wakeFor pd s.time [])
  else if (tget none s.wakes pd).isSome then .next s
  else
    let t := min (s.wantPd pd gnext) (min (deepest pd) (s.fld (pdLimit pd)))
    .next (if s.pd pd ≤ 1 ∨ s.pd pd < t then s.sleep pd t else s)

/-! ## The wipe (R309, R436) -/

/-- The on-die memories are cleared: queues, the ledger, Coop state, control stores and dispatch RAMs (DEDUCED, log entry 112). -/
def State.wipeDie (s : State) : State :=
  { s with ldg := ⟨[], [], s.ldg.free⟩, lathes := [], disps := [], progress := [], blks := [], manifests := [], streams := [], canvases := [],
           ovrSets := [], coop := ⟨[], [], []⟩ }

/-- WIPE_DONE. -/
def execWipeDone (now : Nat) (s : State) : Host.Outcome State Fault Refusal :=
  let s := s.at now
  .next (if s.mode = 2 then ((s.wipeDram.wipeDie).setFld Reg.DMC_STATUS_WIPE_BUSY 0).toMode 3 0 else s)

end Sys2Proof.Machine
end

