-- ==== Sys2Proof/Machine/Life.lean ====
section
/-!
DEFINITION. Supplies, start-up, flash banks, ageing and margins (R430 to R437, R442 to R446, R451, R454 to R458, R466, R469).
-/
namespace Sys2Proof.Machine

/-! ## Supplies (R437, R469) -/

/-- LCM_SUPPLY's GOOD bit and voltage of an input. -/
def goodOf (i : Nat) : Fld := if i = 0 then Reg.LCM_SUPPLY_A_GOOD else Reg.LCM_SUPPLY_B_GOOD
/-- The voltage of an input, in units of 10 mV. -/
def voltOf (i : Nat) : Fld := if i = 0 then Reg.LCM_SUPPLY_VIN_A else Reg.LCM_SUPPLY_VIN_B

/-- Whether a voltage lies in 10.8 V to 13.2 V. -/
def inRange12 (mv10 : Nat) : Bool := 1080 ≤ mv10 && mv10 ≤ 1320

/-- PD00 powers up (R37, R433): ledger time starts at 0 at step 1, and the rails ramp; the commands that follow give their times from here
on (DEDUCED, log entry 108). -/
def State.powerUp (s : State) : State :=
  let s := { { s with time := 0 }.coldState with ptpNs := 0 }
  let s := { s with life := { s.life with start := 0, withdrawn := false }, ring := { s.ring with since := 0 } }
  (s.setFld Reg.LCM_SUPPLY_RESERVE_OK 1).toMode 1 0

/-- An input is good. -/
def State.inputOk (s : State) (i : Nat) : State := ((s.setFld (goodOf i) 1).level (320 + i) false).judgeMode

/-- INPUT_GOOD: in range for its qualifying time, it joins the OR; in ABSENT it starts the module unless MOD_INHIBIT is high (R466)
(DESIGN CHOICE, log entry 122). -/
def execInputGood (i mv10 : Nat) (inhibit : Bool) (now : Nat) (s : State) : Host.Outcome State Fault Refusal :=
  if 2 ≤ i ∨ ¬ inRange12 mv10 then .next s
  else if s.mode = 0 then
    let s := s.setFlds [(voltOf i, mv10), (goodOf i, 1)]
    let s := { s with life := { s.life with inhibit := inhibit } }
    .next (if inhibit then s else s.powerUp)
  else .next (((s.at now).setFld (voltOf i) mv10).inputOk i)

/-- Both inputs are lost (R431, R437): the reserve drives both switches to BYPASS, and a restart that waited for them is void
(DEDUCED, log entry 108). -/
def State.bothLost (s : State) : State :=
  let s := { s with life := { s.life with restart := none } }
  let s := s.setFlds [(Reg.LCM_SUPPLY_A_GOOD, 0), (Reg.LCM_SUPPLY_B_GOOD, 0), (Reg.LCM_SUPPLY_RESERVE_OK, 0)]
  (((s.level 320 true).level 321 true).toMode 0 4).bypForced

/-- INPUT_LOST: the other input carries the load, at once where it is in range and not yet good (R469); else both are lost
(DEDUCED, log entry 108). -/
def execInputLost (i mv10 other : Nat) (otherInRange : Bool) (now : Nat) (s : State) : Host.Outcome State Fault Refusal :=
  if 2 ≤ i ∨ (1000 ≤ mv10 ∧ mv10 ≤ 1400) ∨ ¬ s.on (goodOf i) then .next s
  else
    let s := (s.at now).setFlds [(voltOf i, mv10), (voltOf (1 - i), other), (goodOf i, 0)]
    let s := s.level (320 + i) true
    if s.on (goodOf (1 - i)) then .next s.judgeMode
    else if otherInRange ∧ inRange12 other then .next (s.inputOk (1 - i))
    else .next s.bothLost

/-- BOTH_INPUTS_LOST. -/
def execBothInputsLost (now : Nat) (s : State) : Host.Outcome State Fault Refusal :=
  .next (if s.mode = 0 then s else (s.at now).bothLost)

/-- MOD_INHIBIT_RELEASE (R466): it matters only in step 1. -/
def execModInhibitRelease (_now : Nat) (s : State) : Host.Outcome State Fault Refusal :=
  let was := s.life.inhibit
  let s := { s with life := { s.life with inhibit := false } }
  .next (if was ∧ s.mode = 0 ∧ (s.on Reg.LCM_SUPPLY_A_GOOD ∨ s.on Reg.LCM_SUPPLY_B_GOOD) then s.powerUp else s)

/-! ## RESET (R433, R451) -/

/-- The active generation: the highest-numbered whose digest verifies. -/
def State.activeGen (s : State) : Option (Nat × OtpGen) :=
  (upTo 0 4).foldl (fun a g => match tget none s.life.gens g with
    | some x => if x.digestOk then some (g, x) else a
    | none => a) none

/-- The generations that are programmed. -/
def State.gensUsed (s : State) : Nat := (upTo 0 4).foldl (fun v g => v + bit (tget none s.life.gens g).isSome * 2 ^ g) 0

/-- What the boot ROM reads of OTP: the active generation, whose REVOKE bits are burned (DEDUCED, log entry 8). -/
def State.senseOtp (s : State) : State :=
  let s := s.setFld Reg.LCM_OTP_GEN_USED s.gensUsed
  match s.activeGen with
  | some (g, x) =>
    (s.orFld Reg.LCM_OTP_SIGN_REVOKED (x.revoke % 16)).setFlds [(Reg.LCM_OTP_ACTIVE_GEN, g), (Reg.LCM_OTP_SIGN_VALID, x.signMask),
      (Reg.LCM_OTP_IMAGE_KEYS, x.imageKeys), (Reg.LCM_OTP_MGMT_KEYS, x.mgmtKeys), (Reg.LCM_OTP_SRIS, x.sris), (Reg.HIF_STATUS_SRIS, x.sris)]
  | none => s

/-- RESET_COMPLETE: the PLL has locked and OTP is read; PD03 leaves reset with it (R434). A scrapped module is RETIRED (R442). -/
def execResetComplete (now : Nat) (s : State) : Host.Outcome State Fault Refusal :=
  let s := s.at now
  if s.mode = 1 ∧ ¬ s.life.withdrawn then
    let s := s.senseOtp
    if s.fld Reg.LCM_LC_STATE = 4 then .next (s.retire 5)
    else
      let s := s.toMode 4 0
      .next (if s.perst then s else s.hostLink)
  else .next s

/-- WITHDRAW_COOLED (R438): PD00's sensor has read at most 125 degrees for 60 s; the start proceeds from step 3. -/
def execWithdrawCooled (tj : Int) (now : Nat) (s : State) : Host.Outcome State Fault Refusal :=
  let s := s.at now
  if s.mode = 1 ∧ s.life.withdrawn then
    if 125 < tj then .next { s with life := { s.life with coolSince := none } }
    else
      let t := s.life.coolSince.getD s.time
      if 60000000 ≤ s.since t then .next { s with life := { s.life with coolSince := none, withdrawn := false, start := s.time } }
      else .next { s with life := { s.life with coolSince := some t } }
  else .next s

/-! ## CALIBRATE (R308, R310, R455) -/

/-- A start has failed: the count of them in a row is kept in the flash log (R442) (DEDUCED, log entry 107). -/
def State.startFailed (s : State) : State :=
  let n := min 3 (s.fld Reg.LCM_BOOT_FAILED_STARTS + 1)
  let s := s.setFld Reg.LCM_BOOT_FAILED_STARTS n
  { s with flt := { s.flt with flash := s.flt.flash ++ [.failedStarts n] } }

/-- The channels that failed raise their quadrants' faults (DEDUCED, log entry 107). -/
def State.trainFails (s : State) : List Nat → State
  | [] => s
  | ch :: r =>
    (if ch < partChannels s.part then s.raise (236 + ch / 4) Reg.DMC_FAULT_TRAIN_FAIL (2 ^ (ch / 4)) else s).trainFails r

/-- Each channel is repaired and trained. -/
def State.trainAll (s : State) (spent : List (Nat × Nat)) : List Nat → State
  | [] => s
  | ch :: r => ((s.hardRepair spent ch).retrain [] ch).trainAll spent r

/-- The plan of a domain: at the first power-up the baseline is recorded and 4 steps are added, or, where OTP holds no factory margin
either, VOFF starts at 30 (DEDUCED, log entry 113). -/
def State.planMargin (s : State) (d voff margin : Nat) : State :=
  let first : Bool := s.fld (Reg.LCM_DOMAIN_BASE_PS d) = 0
  let v := if ¬ first then voff else if s.fld Reg.LCM_LC_STATE = 0 then 30 else voff + 4
  let s := s.setFlds [(Reg.LCM_DOMAIN_VOFF d, min 30 v), (Reg.LCM_DOMAIN_MARGIN_PS d, min 255 margin), (Reg.LCM_DOMAIN_AT_LIMIT d, 0)]
  if first then s.setFld (Reg.LCM_DOMAIN_BASE_PS d) (min 255 margin) else s

/-- The plans of the domains that have monitors. -/
def State.planMargins (s : State) : List (Nat × Nat × Nat) → State
  | [] => s
  | (d, voff, margin) :: r => (if 1 ≤ d ∧ hasDomain s.part d then s.planMargin d voff margin else s).planMargins r

/-- CALIBRATE_DONE. -/
def execCalibrateDone (failed : List Nat) (spent : List (Nat × Nat)) (margins : List (Nat × Nat × Nat)) (now : Nat) (s : State) :
    Host.Outcome State Fault Refusal :=
  let s := s.at now
  if s.mode ≠ 4 then .next s
  else if failed.any (fun ch => ch < partChannels s.part) then .next (((s.trainFails failed).startFailed).moduleReset 6)
  else
    let s := (s.trainAll spent (upTo 0 (partChannels s.part))).planMargins margins
    .next ((s.setFlds [(Reg.DMC_STATUS_TRAINED, 1), (Reg.DMC_STATUS_WIPE_BUSY, 1)]).toMode 2 0)

/-! ## LOAD: the choice of a bank (R442, R444) -/

/-- A TRIAL bank whose two tries are used is FAILED (DEDUCED, log entry 106). -/
def Bank.judge (b : Bank) : Bank := if b.state = 1 ∧ 2 ≤ b.tries then { b with state := 3 } else b

/-- Both banks are judged (DEDUCED, log entry 106). -/
def State.judgeBanks (s : State) : State := (s.setBank 0 (s.bank 0).judge).setBank 1 (s.bank 1).judge

/-- The banks in the order in which they are tried. -/
def State.bankOrder (s : State) : List Nat :=
  let trial := (upTo 0 2).filter (fun k => (s.bank k).state = 1)
  let pair := if (s.bank 0).seq < (s.bank 1).seq then [1, 0] else [0, 1]
  trial ++ pair.filter (fun k => (s.bank k).state = 2)

/-- LOAD tries a bank: a TRIAL one counts its try. -/
def State.tryBank (s : State) (k : Nat) : State :=
  let b := s.bank k
  if b.state = 1 then s.setBank k { b with tries := b.tries + 1, writes := b.writes + 1 } else s

/-- The first bank whose images pass, with the state in which the tries are counted and each refusal that has a next choice is noted. -/
def State.selectBank (s : State) (ok : Nat → Bool) (first : Bool) : List Nat → State × Option (Nat × Bool)
  | [] => (s, none)
  | k :: r =>
    let s := s.tryBank k
    if ok k then (s, some (k, !first))
    else
      let s := s.setBank k (s.bank k).judge
      (if r = [] then s else s.note 325).selectBank ok false r

/-- BANK_A_OK and BANK_B_OK. -/
def State.bankBits (s : State) : State :=
  s.setFlds [(Reg.LCM_FLASH_BANK_A_OK, bit ((s.bank 0).state != 3)), (Reg.LCM_FLASH_BANK_B_OK, bit ((s.bank 1).state != 3))]

/-- Both banks are refused: RESET, or RETIRED after the third such start in a row, where bank A takes a new set (DEDUCED, log entry 107). -/
def State.loadFailed (s : State) : State :=
  let s := s.startFailed
  if 3 ≤ s.fld Reg.LCM_BOOT_FAILED_STARTS then
    (s.setBank 0 { s.bank 0 with images := [] }).retire 6
  else s.moduleReset 6

/-! ## LOAD: the images act (R194, R277, R433, R446) -/

/-- The context table and the two master copies are placed; where is a free value (DESIGN CHOICE, log entry 77). -/
def State.placeTables (s : State) : State :=
  let base := s.freeVal % 1024 * 2 ^ 21
  let m0 := base + 2 ^ 21
  let m1 := m0 + 2 ^ 17
  let s := { s.freeNext with heap := m1 + 2 ^ 17 }.setFlds [(Reg.SHP_CTX_BASE_LO_ADDR_LO, base), (Reg.SHP_CTX_BASE_HI_ADDR_HI, base / 2 ^ 32)]
  s.lathesAll.foldl (fun s n => s.setFlds [(Reg.SPN_MC0_LO_ADDR n, m0), (Reg.SPN_MC0_HI_ADDR n, m0 / 2 ^ 32), (Reg.SPN_MC1_LO_ADDR n, m1),
    (Reg.SPN_MC1_HI_ADDR n, m1 / 2 ^ 32)]) s

/-- The bank's microcode goes to master copy 0: its patch, composed into its base, or the base alone. -/
def State.loadCode (s : State) (b : Bank) : State :=
  match b.image 4, b.image 3 with
  | some i, _ => s.writeCopy 0 i
  | none, some i => s.writeCopy 0 i
  | none, none => s

/-- The running versions are those of the bank's images. -/
def State.runVersions (s : State) : List (Nat × Option Image) → State
  | [] => s
  | (_, some i) :: r => (s.setRunning i).runVersions r
  | (_, none) :: r => s.runVersions r

/-- Register writes of a record, in order. -/
def State.regPairs (s : State) : List (Nat × Word) → State
  | [] => s
  | (a, v) :: r => (s.busWrite .cc0 a v 0).regPairs r

/-- A record of the CONFIG image acts in LOAD; one that its command would refuse has no effect (DEDUCED, log entry 104). -/
def State.loadRec (s : State) : CfgRec → State
  | .regWrite ps => s.regPairs ps
  | .surface a bytes => (s.putBytes a bytes).account (Cnt.DMC_ACCT 595) bytes.length
  | .canvas cv items => (s.canvasRec true cv items).1
  | .layer cv r => (s.layerLoad cv r).1
  | .stream sid items => (s.openStream sid items).1
  | .streamChange sid items => (s.changeStream sid items).1
  | .overrideSet k cs => (s.ovrRec k cs).1
  | .otpSettings .. => s
  | .lifecycle .. => s

/-- Records in file order. -/
def State.loadRecs (s : State) : List CfgRec → State
  | [] => s
  | x :: r => (s.loadRec x).loadRecs r

/-- Each configured canvas takes its Inlay and its surfaces. -/
def State.placeCanvases (s : State) : List Nat → State
  | [] => s
  | cv :: r => (s.placeCanvas cv).placeCanvases r

/-- LOAD ends (R431, R432, R446): HOLD where a source holds, FACTORY where the image asks for it and the life cycle allows it, else
service; the bypass is requested open. -/
def State.startEnds (s : State) (factory : Bool) : State :=
  let s := s.setFlds [(Reg.LCM_EPOCH_EPOCH, s.fld Reg.LCM_EPOCH_EPOCH + 1),
    (Reg.LCM_START_TIME_MS, min 65535 (s.since s.life.start / 1000)), (Reg.LCM_BOOT_FAILED_STARTS, 0)]
  let s := { s with life := { s.life with factory := factory, restart := none } }
  let s := if s.holdReq then s.toMode 9 (if s.fltSticky 323 then 3 else 2)
    else if factory ∧ s.testLife then s.toMode 10 0
    else (s.toMode s.serviceMode 0).serveFrom
  s.bypRequest

/-- What bank k holds of each type: the image that this machine wrote there, or else one of those that were there before. -/
def State.readBank (s : State) (k : Nat) : List Image → State
  | [] => s
  | i :: r =>
    let b := s.bank k
    let s' := if (b.state = 1 ∨ b.state = 2) ∧ 1 ≤ i.type ∧ i.type ≤ 4 ∧ b.image i.type = none then
        s.setBank k { b with images := tset none b.images i.type (some i) }
      else s
    s'.readBank k r

/-- Whether an image of a bank passes R285. -/
def State.passes (s : State) (type : Nat) (i : Image) : Bool := s.imageReason i type (512 + i.payloadLength) true = 0

/-- Whether a bank is a complete set whose images pass R285; a patch is there or not (R443). -/
def State.bankPasses (s : State) (k : Nat) : Bool :=
  let b := s.bank k
  [1, 2, 3].all (fun t => (b.image t).any (s.passes t)) && (b.image 4).all (s.passes 4)

/-- The CONFIG image's records and FACTORY_MODE. -/
def Bank.config (b : Bank) : List CfgRec × Bool :=
  match b.image 1 with
  | some i => (i.records, i.factoryMode)
  | none => ([], false)

/-- LOAD_DONE: the images of the chosen bank are accepted and act, or both banks are refused. -/
def execLoadDone (okA okB : Bool) (imgsA imgsB : List Image) (now : Nat) (s : State) : Host.Outcome State Fault Refusal :=
  let s := s.at now
  if s.mode ≠ 3 then .next s
  else
    let s := ((s.judgeBanks).readBank 0 imgsA).readBank 1 imgsB
    let ok (k : Nat) : Bool := (if k = 0 then okA else okB) && s.bankPasses k
    match s.selectBank ok true s.bankOrder with
    | (s, none) => .next s.loadFailed
    | (s, some (k, fell)) =>
      let b := s.bank k
      let s := s.bankBits.setFlds [(Reg.LCM_BOOT_BANK, k), (Reg.LCM_BOOT_TRIAL, bit (b.state = 1)), (Reg.LCM_BOOT_TRIES, min 3 b.tries),
        (Reg.LCM_BOOT_FALLBACK, bit fell)]
      let s := ((s.placeTables.loadCode b).runVersions b.images).loadRecs b.config.1
      .next ((s.placeCanvases (upTo 0 64)).startEnds b.config.2)

/-! ## Flash in service (R444, R458) -/

/-- BANK_CONFIRM (DEDUCED, log entry 106). -/
def execBankConfirm (now : Nat) (s : State) : Host.Outcome State Fault Refusal :=
  let s := s.at now
  let k := s.fld Reg.LCM_BOOT_BANK
  match s.life.servedSince with
  | some t =>
    if 5 ≤ s.mode ∧ s.mode ≤ 8 ∧ (s.bank k).state = 1 ∧ atLeast1 (s.fld Reg.LCM_BOOT_CFG_CONFIRM_MIN) * 60000000 ≤ s.since t then
      let b := s.bank k
      .next ((s.setBank k { b with state := 2, writes := b.writes + 1 }).setFld Reg.LCM_BOOT_TRIAL 0)
    else .next s
  | none => .next s

/-- Takes the n-th element out of a list. -/
def dropNth {α : Type} : Nat → List α → List α
  | _, [] => []
  | 0, _ :: r => r
  | n + 1, x :: r => x :: dropNth n r

/-- FLASH_SCRUB of one block: which record a bad block of the log held is a free value (DEDUCED, log entry 26; DEDUCED, log entry 113). -/
def execFlashScrub (bank bits : Nat) (uncorr copy : Bool) (now : Nat) (s : State) : Host.Outcome State Fault Refusal :=
  let s := s.at now
  if s.mode = 0 ∨ ¬ s.on Reg.LCM_FLASH_SCRUB_EN ∨ 3 ≤ bank then .next s
  else if uncorr then
    if bank = 2 then
      let n := s.freeVal % atLeast1 s.flt.flash.length
      .next { s.freeNext with flt := { s.flt with flash := dropNth n s.flt.flash } }
    else if copy then .next (s.setBank bank { s.bank bank with writes := (s.bank bank).writes + 1 })
    else .next (((s.setBank bank { s.bank bank with state := 3 }).bankBits.note 327).judgeMode)
  else if 8 ≤ bits then .next ((s.satFld Reg.LCM_FLASH_REFRESHED 1).note 326)
  else .next s

/-! ## Ageing (R454, R456, R457) -/

/-- The factor of a temperature, in tenths. -/
def lifeFactor (t : Int) : Nat :=
  if t ≤ 65 then 3 else if t ≤ 85 then 10 else if t ≤ 105 then 25 else if t ≤ 125 then 80 else if t ≤ 150 then 250 else 600

/-- LIFE_MINUTE: equivalent minutes in tenths; the budget is 680,242 h, LIFE_PCT in units of 0.001 %. -/
def execLifeMinute (now : Nat) (s : State) : Host.Outcome State Fault Refusal :=
  let s := s.at now
  let acc := s.life.acc + lifeFactor (ofTemp9 (s.fld Reg.SHP_TEMP_TJ_MAX))
  let pct := min 1048575 (acc * 100000 / (600 * 680242))
  let s := { s with life := { s.life with acc := acc } }.setFlds [(Reg.LCM_LIFE_H_HOURS, acc / 600), (Reg.LCM_LIFE_PCT_PCT, pct)]
  .next (s.level 330 (decide (80000 ≤ pct)))

/-- The least of a list of readings. -/
def leastOf : List Nat → Nat
  | [] => 255
  | x :: r => min x (leastOf r)

/-- VOFF rises one step, to 30 at most. -/
def State.voffUp (s : State) (d : Nat) : State := s.setFld (Reg.LCM_DOMAIN_VOFF d) (min 30 (s.fld (Reg.LCM_DOMAIN_VOFF d) + 1))

/-- Each day's margin, normalised to 85 degrees at 0.25 ps per degree, is logged (R455) (DEDUCED, log entry 113). -/
def State.logMargin (s : State) (d projected : Nat) : State :=
  let day := s.time / 86400000000 + 1
  if tget 0 s.life.marginDay d < day then
    { s with flt := { s.flt with flash := s.flt.flash ++ [.margin d (projected + 16)] },
             life := { s.life with marginDay := tset 0 s.life.marginDay d day } }
  else s

/-- MARGIN_READ: 60 readings in a row below TARGET_PS raise VOFF; at 30 steps a margin below MIN_PS is at its limit
(DEDUCED, log entry 113). -/
def execMarginRead (pd : Nat) (slack : List Nat) (projected now : Nat) (s : State) : Host.Outcome State Fault Refusal :=
  let s := s.at now
  if pd = 0 ∨ ¬ hasDomain s.part pd ∨ s.mode < 5 ∨ s.mode = 11 then .next s
  else
    let m := min 255 (leastOf (slack.take 4))
    let s := (s.setFld (Reg.LCM_DOMAIN_MARGIN_PS pd) m).logMargin pd projected
    let n := if projected < s.fld Reg.LCM_AGE_CFG_TARGET_PS then tget 0 s.life.low pd + 1 else 0
    let s := { s with life := { s.life with low := tset 0 s.life.low pd (if 60 ≤ n then 0 else n) } }
    let s := if 60 ≤ n then s.voffUp pd else s
    .next (if s.fld (Reg.LCM_DOMAIN_VOFF pd) = 30 ∧ m < s.fld Reg.LCM_AGE_CFG_MIN_PS then
      s.raise (340 + pd) (Reg.LCM_DOMAIN_AT_LIMIT pd) else s)

/-- NEAR_MISS: in a Lathe the running step reruns with cause MARGIN, at a word that is a free value (DESIGN CHOICE, log entry 114). -/
def execNearMiss (pd now : Nat) (s : State) : Host.Outcome State Fault Refusal :=
  let s := s.at now
  if pd = 0 ∨ ¬ hasDomain s.part pd then .next s
  else
    let s := (s.voffUp pd).satFld (Reg.LCM_DOMAIN_NEAR_MISS pd) 1
    .next (if 12 ≤ pd then s.freeNext.ran (execStepRerun (pd - 12) [.margin] 0 (s.freeVal % 4096) false s.time s.freeNext) else s)

end Sys2Proof.Machine
end

