-- ==== Sys2Proof/Machine/Registers.lean ====
section
/-!
DEFINITION. The commands of the register bus (R6, R7, R10, R19, R25, R36, R105).
-/
namespace Sys2Proof.Machine

/-- REG_WRITE (R7, R8): the word reaches the register's fields by their access codes; a write to a domain that sleeps waits
(DESIGN CHOICE, log entry 14). -/
def execRegWrite (rq : Requester) (addr : Nat) (v hw : Word) (s : State) : Host.Outcome State Fault Refusal :=
  match s.asleepAt addr with
  | some _ => .next (s.access ⟨rq, addr, some v⟩)
  | none => .next (s.busWrite rq addr v hw)

/-- MISALIGNED_ACCESS (R6): not 4 bytes, or not aligned to 4; the window of an absent unit notes nothing (R2). -/
def execMisalignedAccess (rq : Requester) (addr size : Nat) (wr : Bool) (s : State) : Host.Outcome State Fault Refusal :=
  if size = 4 ∧ addr % 4 = 0 then .next s
  else
    let s := if s.absentAt addr then s else s.note 0
    .next (if wr then s else s.answer rq addr 0)

/-- UNMAPPED_ACCESS (R25). -/
def execUnmappedAccess (rq : Requester) (addr : Nat) (wr : Bool) (s : State) : Host.Outcome State Fault Refusal :=
  if addr % 4 ≠ 0 ∨ mapped addr then .next s
  else
    let s := if s.absentAt addr then s else s.note 0
    .next (if wr then s else s.answer rq addr 0)

/-- SNAPSHOT_READ (R10, R38): a read of the first word of a group. -/
def execSnapshotRead (rq : Requester) (addr : Nat) (s : State) : Host.Outcome State Fault Refusal :=
  .next (if snapWords addr = [] then s else s.access ⟨rq, addr, none⟩)

/-- The address of a unit's counter control register. -/
def cntCtrlAddr : CntUnit → Nat
  | .shp => 0x20180
  | .flt => 0x31080
  | .bwt => 0x44280
  | .hif => 0x53180
  | .rng => 0x68300
  | .cop => 0x70280
  | .dmc => 0x90480
  | .inl i => 0xA0280 + 0x10000 * i
  | .lth n => 0x100180 + 0x10000 * n

/-- COUNTER_CLEAR (R105, R226): CLEAR wins over the increments `inc` of its cycle, which are lost; FREEZE is written as it is. -/
def execCounterClear (u : CntUnit) (inc : List Nat) (s : State) : Host.Outcome State Fault Refusal :=
  let counted := (inc.filter (cntOf u)).foldl (fun s c => s.bump c) s
  let a := cntCtrlAddr u
  .next (counted.onWrite .host a (BitVec.ofNat 32 (1 + 2 * s.keptFld ⟨a, 1, 1, 0⟩)) (fun s => s.clearCnts u))

/-- The address of a register with a CLR bit. -/
def peakAddr : PeakReg → Nat
  | .lgr c => 0x400090 + 4 * c
  | .lthTq n => 0x100010 + 0x10000 * n
  | .copPool p => 0x70118 + 0x20 * p
  | .txq p q => 0x67004 + 0x800 * p + 8 * q
  | .evmSrc x => 0x40800 + 4 * x

/-- PEAK_CLEAR (R7). -/
def execPeakClear (r : PeakReg) (s : State) : Host.Outcome State Fault Refusal :=
  .next (s.onWrite .host (peakAddr r) (match r with
    | .lthTq _ => 0x8000
    | _ => 0x80000000) (fun s => s.clearPeak r))

/-- REG_LOCK (R7, R9): a write of the unit's control register; its other fields take their values, and the lock holds from then on. -/
def execRegLock (u : LockUnit) (v : Word) (s : State) : Host.Outcome State Fault Refusal :=
  .next (match u with
    | .lth n => if s.hasLathe n then s.onWrite .host (0x100008 + 0x10000 * n) v (fun s => s.lthCtrl n v) else s
    | .spn n => if s.hasLathe n then s.lthWrite .host n 0x8004 v 0 else s
    | .shp => s.shpWrite 0 v 0
    | .inl i => if s.hasInlay i then s.onWrite .host (0xA0004 + 0x10000 * i) v (fun s => s.inlWrite i 4 v 0) else s
    | .hif => s.hifWrite 0 v 0
    | .rng => s.rngWrite 0 v 0
    | .evm => s.evmWrite .host 0 v 0
    | .flt => s.fltWrite 0 v 0
    | .lcm => s.lcmWrite 0 v 0)

/-- LGR_LOCK (R9, R36). -/
def execLgrLock (also : List (Nat × Word)) (s : State) : Host.Outcome State Fault Refusal := .next (s.ldgLock also)

/-- DOMAIN_WAKE_ON_ACCESS (R19): a read, or a write of `w` (DESIGN CHOICE, log entry 14). -/
def execDomainWakeOnAccess (rq : Requester) (addr : Nat) (w : Option Word) (now : Nat) (s : State) :
    Host.Outcome State Fault Refusal := .next ((s.at now).access ⟨rq, addr, w⟩)

end Sys2Proof.Machine
end

