-- ==== Sys2Proof/Machine/Dispatch.lean ====
section
/-!
DEFINITION. The commands' meanings: one arm for each command.
-/
namespace Sys2Proof.Machine

/-- The effect of a command on everything but the queue. -/
def exec (i : Instr) (s : State) : Host.Outcome State Fault Refusal :=
  match i with
  | .regWrite rq addr v hw => Sys2Proof.Machine.execRegWrite rq addr v hw s
  | .misalignedAccess rq addr size wr => Sys2Proof.Machine.execMisalignedAccess rq addr size wr s
  | .unmappedAccess rq addr wr => Sys2Proof.Machine.execUnmappedAccess rq addr wr s
  | .snapshotRead rq addr => Sys2Proof.Machine.execSnapshotRead rq addr s
  | .counterClear u inc => Sys2Proof.Machine.execCounterClear u inc s
  | .peakClear r => Sys2Proof.Machine.execPeakClear r s
  | .regLock u v => Sys2Proof.Machine.execRegLock u v s
  | .lgrLock also => Sys2Proof.Machine.execLgrLock also s
  | .domainWakeOnAccess rq addr w now => Sys2Proof.Machine.execDomainWakeOnAccess rq addr w now s
  | .domainWakeDone pd now => Sys2Proof.Machine.execDomainWakeDone pd now s
  | .holdLong now => Sys2Proof.Machine.execHoldLong now s
  | .taskDispatch n desc now => Sys2Proof.Machine.execTaskDispatch n desc now s
  | .taskGrantPush n pop now => Sys2Proof.Machine.execTaskGrantPush n pop now s
  | .taskPushRetry n now => Sys2Proof.Machine.execTaskPushRetry n now s
  | .nop n now => Sys2Proof.Machine.execNop n now s
  | .waitEvent n now => Sys2Proof.Machine.execWaitEvent n now s
  | .waitEventPulse src now => Sys2Proof.Machine.execWaitEventPulse src now s
  | .selfTest n crcOk now => Sys2Proof.Machine.execSelfTest n crcOk now s
  | .decSeq n h now => Sys2Proof.Machine.execDecSeq n h now s
  | .decPicStart n h now => Sys2Proof.Machine.execDecPicStart n h now s
  | .decRow n blocks now => Sys2Proof.Machine.execDecRow n blocks now s
  | .decParse n blocks now => Sys2Proof.Machine.execDecParse n blocks now s
  | .decReconRow n blocks now => Sys2Proof.Machine.execDecReconRow n blocks now s
  | .decConcealRow n blocks now => Sys2Proof.Machine.execDecConcealRow n blocks now s
  | .decPicEnd n e now => Sys2Proof.Machine.execDecPicEnd n e now s
  | .encPicStart n now => Sys2Proof.Machine.execEncPicStart n now s
  | .anaRow n recs now => Sys2Proof.Machine.execAnaRow n recs now s
  | .encRow n r now => Sys2Proof.Machine.execEncRow n r now s
  | .encPicEnd n moved now => Sys2Proof.Machine.execEncPicEnd n moved now s
  | .ctxSave n now => Sys2Proof.Machine.execCtxSave n now s
  | .ctxLoad n now => Sys2Proof.Machine.execCtxLoad n now s
  | .ctxVerify n now => Sys2Proof.Machine.execCtxVerify n now s
  | .patchOpcode n now => Sys2Proof.Machine.execPatchOpcode n now s
  | .unknownOpcode n now => Sys2Proof.Machine.execUnknownOpcode n now s
  | .blockDepRelease n now => Sys2Proof.Machine.execBlockDepRelease n now s
  | .encRowWaitRelease n now => Sys2Proof.Machine.execEncRowWaitRelease n now s
  | .stepRerun n causes loc pc abandon now => Sys2Proof.Machine.execStepRerun n causes loc pc abandon now s
  | .taskCommit n c now => Sys2Proof.Machine.execTaskCommit n c now s
  | .taskTimeout n cycles now => Sys2Proof.Machine.execTaskTimeout n cycles now s
  | .taskAbandon n cycles now => Sys2Proof.Machine.execTaskAbandon n cycles now s
  | .lthTqPush rq n v now => Sys2Proof.Machine.execLthTqPush rq n v now s
  | .latheDrain n => Sys2Proof.Machine.execLatheDrain n s
  | .feederPush n w loss pop => Sys2Proof.Machine.execFeederPush n w loss pop s
  | .feederStallLimit n pop => Sys2Proof.Machine.execFeederStallLimit n pop s
  | .bsqFlushRequest n => Sys2Proof.Machine.execBsqFlushRequest n s
  | .bsqFlush n inFlight c => Sys2Proof.Machine.execBsqFlush n inFlight c s
  | .repinWaitExpiry sid now => Sys2Proof.Machine.execRepinWaitExpiry sid now s
  | .rateChangeWaitExpiry sid r now => Sys2Proof.Machine.execRateChangeWaitExpiry sid r now s
  | .picDispatchNormal sid now => Sys2Proof.Machine.execPicDispatchNormal sid now s
  | .decisionLimit sid now => Sys2Proof.Machine.execDecisionLimit sid now s
  | .groupDispatch sid now => Sys2Proof.Machine.execGroupDispatch sid now s
  | .shepherdTick tj now => Sys2Proof.Machine.execShepherdTick tj now s
  | .bandFall now => Sys2Proof.Machine.execBandFall now s
  | .unparkComplete now => Sys2Proof.Machine.execUnparkComplete now s
  | .parkedLatheOff p => Sys2Proof.Machine.execParkedLatheOff p s
  | .parkRotate now => Sys2Proof.Machine.execParkRotate now s
  | .powerWindow dw now => Sys2Proof.Machine.execPowerWindow dw now s
  | .bwLevelLower now => Sys2Proof.Machine.execBwLevelLower now s
  | .frameBoundaryMigrate sid lanes now => Sys2Proof.Machine.execFrameBoundaryMigrate sid lanes now s
  | .powerStateDecision pd gnext access now => Sys2Proof.Machine.execPowerStateDecision pd gnext access now s
  | .domainWakeStart pd need now => Sys2Proof.Machine.execDomainWakeStart pd need now s
  | .maintRestart v now => Sys2Proof.Machine.execMaintRestart v now s
  | .maintRecalibrate v now => Sys2Proof.Machine.execMaintRecalibrate v now s
  | .maintRetire v now => Sys2Proof.Machine.execMaintRetire v now s
  | .maintVersionOk now => Sys2Proof.Machine.execMaintVersionOk now s
  | .maintDrained n pass now => Sys2Proof.Machine.execMaintDrained n pass now s
  | .commitPoint cv now => Sys2Proof.Machine.execCommitPoint cv now s
  | .compGrant cv now => Sys2Proof.Machine.execCompGrant cv now s
  | .bandDone cv now => Sys2Proof.Machine.execBandDone cv now s
  | .compDelivered cv now => Sys2Proof.Machine.execCompDelivered cv now s
  | .fenceLatch src => Sys2Proof.Machine.execFenceLatch src s
  | .overrideTriggerWrite v now => Sys2Proof.Machine.execOverrideTriggerWrite v now s
  | .overrideReleaseWrite v now => Sys2Proof.Machine.execOverrideReleaseWrite v now s
  | .overrideGpioAssert g now => Sys2Proof.Machine.execOverrideGpioAssert g now s
  | .overrideGpioDeassert g now => Sys2Proof.Machine.execOverrideGpioDeassert g now s
  | .layerStale cv now => Sys2Proof.Machine.execLayerStale cv now s
  | .headEnable d v => Sys2Proof.Machine.execHeadEnable d v s
  | .headFrameStart d err now => Sys2Proof.Machine.execHeadFrameStart d err now s
  | .vblank d => Sys2Proof.Machine.execVblank d s
  | .hpdLoss d => Sys2Proof.Machine.execHpdLoss d s
  | .hpdReturn d edid => Sys2Proof.Machine.execHpdReturn d edid s
  | .linkTrainingDone d ok rate lanes => Sys2Proof.Machine.execLinkTrainingDone d ok rate lanes s
  | .csPatrol n outcome => Sys2Proof.Machine.execCsPatrol n outcome s
  | .spindleLoad n => Sys2Proof.Machine.execSpindleLoad n s
  | .spnReload n v => Sys2Proof.Machine.execSpnReload n v s
  | .spindleLoadDone n uncorr => Sys2Proof.Machine.execSpindleLoadDone n uncorr s
  | .traceEnable n v => Sys2Proof.Machine.execTraceEnable n v s
  | .dramRead port tag addr len bad => Sys2Proof.Machine.execDramRead port tag addr len bad s
  | .dramReadRetry port tag addr bad now => Sys2Proof.Machine.execDramReadRetry port tag addr bad now s
  | .dramWrite port tag addr bytes bad => Sys2Proof.Machine.execDramWrite port tag addr bytes bad s
  | .refreshSlot ch now => Sys2Proof.Machine.execRefreshSlot ch now s
  | .dramTempRead ch temp now => Sys2Proof.Machine.execDramTempRead ch temp now s
  | .scrubLine ch bad now => Sys2Proof.Machine.execScrubLine ch bad now s
  | .softRepair ch spare now => Sys2Proof.Machine.execSoftRepair ch spare now s
  | .wipeDone now => Sys2Proof.Machine.execWipeDone now s
  | .driftTrack ch drift => Sys2Proof.Machine.execDriftTrack ch drift s
  | .bwWindow now => Sys2Proof.Machine.execBwWindow now s
  | .dmcLock also => Sys2Proof.Machine.execDmcLock also s
  | .coopLock also => Sys2Proof.Machine.execCoopLock also s
  | .coopReady now => Sys2Proof.Machine.execCoopReady now s
  | .coopWaitGrant now => Sys2Proof.Machine.execCoopWaitGrant now s
  | .coopFree handle => Sys2Proof.Machine.execCoopFree handle s
  | .drvCopy ch v now => Sys2Proof.Machine.execDrvCopy ch v now s
  | .drvFill ch v now => Sys2Proof.Machine.execDrvFill ch v now s
  | .drvCompare ch v now => Sys2Proof.Machine.execDrvCompare ch v now s
  | .drvLedgerGrant ch src dst now => Sys2Proof.Machine.execDrvLedgerGrant ch src dst now s
  | .drvAbort ch v now => Sys2Proof.Machine.execDrvAbort ch v now s
  | .drvDone ch now => Sys2Proof.Machine.execDrvDone ch now s
  | .ringCheckWindow both oneWay ownE ownW now => Sys2Proof.Machine.execRingCheckWindow both oneWay ownE ownW now s
  | .supervisionSend now => Sys2Proof.Machine.execSupervisionSend now s
  | .holdoffExpiry now => Sys2Proof.Machine.execHoldoffExpiry now s
  | .switchSensed pos now => Sys2Proof.Machine.execSwitchSensed pos now s
  | .switchTimeout now => Sys2Proof.Machine.execSwitchTimeout now s
  | .bypassFaultRetry pos now => Sys2Proof.Machine.execBypassFaultRetry pos now s
  | .forceBypass v now => Sys2Proof.Machine.execForceBypass v now s
  | .withdrawWaitExpiry now => Sys2Proof.Machine.execWithdrawWaitExpiry now s
  | .linkWaitExpiry p now => Sys2Proof.Machine.execLinkWaitExpiry p now s
  | .portLinkUp p now => Sys2Proof.Machine.execPortLinkUp p now s
  | .portLinkDown p now => Sys2Proof.Machine.execPortLinkDown p now s
  | .speedTryExpiry p now => Sys2Proof.Machine.execSpeedTryExpiry p now s
  | .sfpInsert p ident => Sys2Proof.Machine.execSfpInsert p ident s
  | .frameRx p f same now => Sys2Proof.Machine.execFrameRx p f same now s
  | .dupEntryExpiry now => Sys2Proof.Machine.execDupEntryExpiry now s
  | .portTransmit p residence now => Sys2Proof.Machine.execPortTransmit p residence now s
  | .ptpMessage p m now => Sys2Proof.Machine.execPtpMessage p m now s
  | .ptpSyncTimeout now => Sys2Proof.Machine.execPtpSyncTimeout now s
  | .ptpSecond now => Sys2Proof.Machine.execPtpSecond now s
  | .ppsInEdge ns => Sys2Proof.Machine.execPpsInEdge ns s
  | .rtpPacketRx p k now => Sys2Proof.Machine.execRtpPacketRx p k now s
  | .reorderTimeout flow now => Sys2Proof.Machine.execReorderTimeout flow now s
  | .rtcpRx p k now => Sys2Proof.Machine.execRtcpRx p k now s
  | .arpIcmpRx p ip icmp => Sys2Proof.Machine.execArpIcmpRx p ip icmp s
  | .slicePacketise sid r now => Sys2Proof.Machine.execSlicePacketise sid r now s
  | .netGrant sid r now => Sys2Proof.Machine.execNetGrant sid r now s
  | .txqAgeDrop p q now => Sys2Proof.Machine.execTxqAgeDrop p q now s
  | .txqRateWrite q v now => Sys2Proof.Machine.execTxqRateWrite q v now s
  | .txqSample now => Sys2Proof.Machine.execTxqSample now s
  | .rtcpSrSend sid r now => Sys2Proof.Machine.execRtcpSrSend sid r now s
  | .mgmtRequest m now => Sys2Proof.Machine.execMgmtRequest m now s
  | .mgmtHello m => Sys2Proof.Machine.execMgmtHello m s
  | .mgmtLockoutEnd now => Sys2Proof.Machine.execMgmtLockoutEnd now s
  | .perstAssert now => Sys2Proof.Machine.execPerstAssert now s
  | .hotReset now => Sys2Proof.Machine.execHotReset now s
  | .linkDown now => Sys2Proof.Machine.execLinkDown now s
  | .functionLevelReset now => Sys2Proof.Machine.execFunctionLevelReset now s
  | .d3coldEntry now => Sys2Proof.Machine.execD3coldEntry now s
  | .d3hotEntry now => Sys2Proof.Machine.execD3hotEntry now s
  | .d0Entry now => Sys2Proof.Machine.execD0Entry now s
  | .bar4Write off bytes => Sys2Proof.Machine.execBar4Write off bytes s
  | .bar4Read off len => Sys2Proof.Machine.execBar4Read off len s
  | .sqTailDoorbell q v => Sys2Proof.Machine.execSqTailDoorbell q v s
  | .cqHeadDoorbell q v => Sys2Proof.Machine.execCqHeadDoorbell q v s
  | .queueEnable q v => Sys2Proof.Machine.execQueueEnable q v s
  | .queueDisable q v => Sys2Proof.Machine.execQueueDisable q v s
  | .queueDrained q => Sys2Proof.Machine.execQueueDrained q s
  | .commandFetch q cmds => Sys2Proof.Machine.execCommandFetch q cmds s
  | .commandStart q now => Sys2Proof.Machine.execCommandStart q now s
  | .cmdNop e => Sys2Proof.Machine.execCmdNop e s
  | .streamOpen e segs now => Sys2Proof.Machine.execStreamOpen e segs now s
  | .streamClose e now => Sys2Proof.Machine.execStreamClose e now s
  | .streamConfig e segs now => Sys2Proof.Machine.execStreamConfig e segs now s
  | .streamStats e segs => Sys2Proof.Machine.execStreamStats e segs s
  | .refreshRequest e now => Sys2Proof.Machine.execRefreshRequest e now s
  | .setTargetVersion e now => Sys2Proof.Machine.execSetTargetVersion e now s
  | .canvasCommit e segs now => Sys2Proof.Machine.execCanvasCommit e segs now s
  | .override e now => Sys2Proof.Machine.execOverride e now s
  | .overrideRelease e now => Sys2Proof.Machine.execOverrideRelease e now s
  | .bufAlloc e now => Sys2Proof.Machine.execBufAlloc e now s
  | .bufFree e => Sys2Proof.Machine.execBufFree e s
  | .ingest e segs => Sys2Proof.Machine.execIngest e segs s
  | .egress e segs => Sys2Proof.Machine.execEgress e segs s
  | .imageLoad e segs now => Sys2Proof.Machine.execImageLoad e segs now s
  | .floorCommit e => Sys2Proof.Machine.execFloorCommit e s
  | .hostReadTimeout o now => Sys2Proof.Machine.execHostReadTimeout o now s
  | .hostReadCompletion o r now => Sys2Proof.Machine.execHostReadCompletion o r now s
  | .completionWrite e now => Sys2Proof.Machine.execCompletionWrite e now s
  | .cplWaitExpiry e now => Sys2Proof.Machine.execCplWaitExpiry e now s
  | .vectorTimerExpiry v now => Sys2Proof.Machine.execVectorTimerExpiry v now s
  | .vectorUnmask v => Sys2Proof.Machine.execVectorUnmask v s
  | .quiesce v => Sys2Proof.Machine.execQuiesce v s
  | .swFencePulse hi v => Sys2Proof.Machine.execSwFencePulse hi v s
  | .sinkWrite k v => Sys2Proof.Machine.execSinkWrite k v s
  | .crossingDelivery src => Sys2Proof.Machine.execCrossingDelivery src s
  | .stampRead rq j => Sys2Proof.Machine.execStampRead rq j s
  | .gpioDirWrite v => Sys2Proof.Machine.execGpioDirWrite v s
  | .gpioInputEdge g => Sys2Proof.Machine.execGpioInputEdge g s
  | .gpioPulseEnd g => Sys2Proof.Machine.execGpioPulseEnd g s
  | .bwtSourcePulse src => Sys2Proof.Machine.execBwtSourcePulse src s
  | .bwtClaim rq t pulsed rival => Sys2Proof.Machine.execBwtClaim rq t pulsed rival s
  | .bwtEoi rq t v pulsed => Sys2Proof.Machine.execBwtEoi rq t v pulsed s
  | .bwtSet rq v => Sys2Proof.Machine.execBwtSet rq v s
  | .bwtClear v pulsed => Sys2Proof.Machine.execBwtClear v pulsed s
  | .bwtSrcCfgWrite src v => Sys2Proof.Machine.execBwtSrcCfgWrite src v s
  | .targetOffline t => Sys2Proof.Machine.execTargetOffline t s
  | .targetOnline t => Sys2Proof.Machine.execTargetOnline t s
  | .faultEdge k now => Sys2Proof.Machine.execFaultEdge k now s
  | .stickyClear ix v edges now => Sys2Proof.Machine.execStickyClear ix v edges now s
  | .brokenClear ix v => Sys2Proof.Machine.execBrokenClear ix v s
  | .wireBroken k now => Sys2Proof.Machine.execWireBroken k now s
  | .wireRestored k => Sys2Proof.Machine.execWireRestored k s
  | .wireTest k inverts now => Sys2Proof.Machine.execWireTest k inverts now s
  | .logRead rq e => Sys2Proof.Machine.execLogRead rq e s
  | .injectAssert v now => Sys2Proof.Machine.execInjectAssert v now s
  | .injectBreakF v now => Sys2Proof.Machine.execInjectBreakF v now s
  | .injectBreakFn v now => Sys2Proof.Machine.execInjectBreakFn v now s
  | .injectDramCe v => Sys2Proof.Machine.execInjectDramCe v s
  | .injectDramUe v => Sys2Proof.Machine.execInjectDramUe v s
  | .injectCsFlip v => Sys2Proof.Machine.execInjectCsFlip v s
  | .injectCsFlip2 v => Sys2Proof.Machine.execInjectCsFlip2 v s
  | .injectBsqParity v => Sys2Proof.Machine.execInjectBsqParity v s
  | .migrateTimeout n now => Sys2Proof.Machine.execMigrateTimeout n now s
  | .inputGood ix mv10 inhibit now => Sys2Proof.Machine.execInputGood ix mv10 inhibit now s
  | .inputLost ix mv10 other otherInRange now => Sys2Proof.Machine.execInputLost ix mv10 other otherInRange now s
  | .bothInputsLost now => Sys2Proof.Machine.execBothInputsLost now s
  | .resetComplete now => Sys2Proof.Machine.execResetComplete now s
  | .calibrateDone failed spent margins now => Sys2Proof.Machine.execCalibrateDone failed spent margins now s
  | .loadDone okA okB imgsA imgsB now => Sys2Proof.Machine.execLoadDone okA okB imgsA imgsB now s
  | .modeReqRestart v now => Sys2Proof.Machine.execModeReqRestart v now s
  | .modeReqService v now => Sys2Proof.Machine.execModeReqService v now s
  | .modeReqMaintain v now => Sys2Proof.Machine.execModeReqMaintain v now s
  | .modeReqQuiet v now => Sys2Proof.Machine.execModeReqQuiet v now s
  | .maintHour hour now => Sys2Proof.Machine.execMaintHour hour now s
  | .maintainEnd failed spent now => Sys2Proof.Machine.execMaintainEnd failed spent now s
  | .holdExit now => Sys2Proof.Machine.execHoldExit now s
  | .withdrawCooled tj now => Sys2Proof.Machine.execWithdrawCooled tj now s
  | .bankConfirm now => Sys2Proof.Machine.execBankConfirm now s
  | .flashScrub bank bits uncorr copy now => Sys2Proof.Machine.execFlashScrub bank bits uncorr copy now s
  | .lifeMinute now => Sys2Proof.Machine.execLifeMinute now s
  | .marginRead pd slack projected now => Sys2Proof.Machine.execMarginRead pd slack projected now s
  | .nearMiss pd now => Sys2Proof.Machine.execNearMiss pd now s
  | .perstDeassert now => Sys2Proof.Machine.execPerstDeassert now s
  | .modInhibitRelease now => Sys2Proof.Machine.execModInhibitRelease now s
  | .txCopyLeft e p now => Sys2Proof.Machine.execTxCopyLeft e p now s

end Sys2Proof.Machine
end

