-- ==== Sys2Proof/Machine/Step.lean ====
section
/-!
DEFINITION. One step: the command at the front of the queue has its effect on the rest of the state; on an empty queue
the block idles for one microsecond of ledger time.
-/
namespace Sys2Proof.Machine

/-- The block idles: ledger time runs on by one microsecond (R37) (DESIGN CHOICE, log entry 2). -/
def State.idle (s : State) : State := s.at (s.time + 1)

/-- One step of the machine (DESIGN CHOICE, log entry 2; DESIGN CHOICE, log entry 3). -/
def step (s : State) : Host.Outcome State Fault Refusal :=
  match s.pending with
  | [] => .next s.idle
  | c :: rest => exec c { s with pending := rest }

/-- The state with the command that a word spells put at the front of its queue; no row of the table gives bits, so a
word spells none. -/
def State.withFetchWord (s : State) (nbits w : Nat) : State :=
  match Sys2Proof.decodeTableWord nbits w with
  | some c => { s with pending := c :: s.pending }
  | none => s

end Sys2Proof.Machine
end

