-- ==== Sys2Proof/WellFormed.lean ====
section
/-!
DEFINITION. Which commands are well formed: each operand lies in the range that the spec gives the thing it names. The machine gives
every command a meaning, well formed or not; the statements about operands of a range say so.
-/
namespace Sys2Proof

/-- A Lathe of the largest part (R2). -/
def lthOk (n : Nat) : Bool := decide (n < 26)
/-- A power domain (R16). -/
def pdOk (d : Nat) : Bool := decide (d < 38)
/-- A canvas (R227). -/
def cvOk (cv : Nat) : Bool := decide (cv < 64)
/-- A stream (R194). -/
def sidOk (sid : Nat) : Bool := decide (sid < 512)
/-- A rendition of a stream (R170) (DEDUCED, log entry 52). -/
def rendOk (r : Nat) : Bool := decide (r < 4)
/-- A head (R259). -/
def headOk (d : Nat) : Bool := decide (d < 4)
/-- A DRAM channel, or a Drover channel (R291, R326). -/
def chOk (ch : Nat) : Bool := decide (ch < 16)
/-- A DRAM port (R298). -/
def dPortOk (p : Nat) : Bool := decide (p < 9)
/-- An accounting tag (R312). -/
def tagOk (t : Nat) : Bool := decide (t < 597)
/-- A device address (R292). -/
def dramOk (a : Nat) : Bool := decide (a < 2 ^ 35)
/-- A list of bytes. -/
def bytesOk (l : List Nat) : Bool := l.all (fun b => decide (b < 256))
/-- A host queue (R374). -/
def qOk (q : Nat) : Bool := decide (q < 64)
/-- A ledger entry (R27, R38). -/
def entOk (e : Nat) : Bool := decide (e < 131072)
/-- A ring port: 0 EAST, 1 WEST (R341). -/
def portOk (p : Nat) : Bool := decide (p < 2)
/-- A transmit queue (R362). -/
def txqOk (q : Nat) : Bool := decide (q < 256)
/-- A flow of the table of 512 (R355). -/
def flowOk (f : Nat) : Bool := decide (f < 512)
/-- A fault source (R418). -/
def faultOk (k : Nat) : Bool := decide (k < 512)
/-- A word of FLT_STICKY or FLT_BROKEN (R429). -/
def wordOk (i : Nat) : Bool := decide (i < 16)
/-- An entry of the fault log (R422). -/
def logOk (e : Nat) : Bool := decide (e < 64)
/-- A source of the event matrix (R395). -/
def srcOk (x : Nat) : Bool := decide (x < 256)
/-- A sink of the event matrix (R396). -/
def sinkOk (k : Nat) : Bool := decide (k < 256)
/-- A timestamp (R398). -/
def stampOk (j : Nat) : Bool := decide (j < 16)
/-- A GPIO (R395). -/
def gpioOk (g : Nat) : Bool := decide (g < 16)
/-- A source of the Bellwether (R405). -/
def bwtOk (x : Nat) : Bool := decide (x < 1024)
/-- A target of the Bellwether (R405). -/
def tgtOk (t : Nat) : Bool := decide (t < 5)
/-- An MSI-X vector (R389). -/
def vecOk (v : Nat) : Bool := decide (v < 64)
/-- An input: 0 VIN_A, 1 VIN_B (R437). -/
def inOk (i : Nat) : Bool := decide (i < 2)
/-- An hour of the day (R441). -/
def hourOk (h : Nat) : Bool := decide (h < 24)
/-- The owner of a host read: a queue, a Drover channel, or a command's entry (R386). -/
def ownerOk (o : Nat) : Bool := decide (o < 64) || (decide (64 ≤ o) && decide (o < 80)) || (decide (128 ≤ o) && entOk (o - 128))
/-- An offset of BAR0, 64 MiB (R23, R24). -/
def aOk (a : Nat) : Bool := decide (a < 2 ^ 26)
/-- A word-aligned offset (R25). -/
def wordAligned (a : Nat) : Bool := a % 4 = 0
/-- An access that is not one aligned word (R25). -/
def mOk (a size : Nat) : Bool := a % 4 != 0 || size != 4
/-- The writes that fall in the cycle of a lock: aligned offsets (R9). -/
def listOk (l : List (Nat × Word)) : Bool := l.all (fun e => aOk e.1 && wordAligned e.1)
/-- A unit with counters. -/
def unitOk : CntUnit → Bool
  | .lth n => lthOk n
  | .inl i => decide (i < 2)
  | .shp | .dmc | .hif | .rng | .cop | .bwt | .flt => true
/-- A unit with a lock. -/
def lockOk : LockUnit → Bool
  | .lth n | .spn n => lthOk n
  | .inl i => decide (i < 2)
  | .shp | .hif | .rng | .evm | .flt | .lcm => true
/-- A register with a peak. -/
def peakOk : PeakReg → Bool
  | .lgr c => decide (c < 5)
  | .lthTq n => lthOk n
  | .copPool p => decide (p < 6)
  | .txq p q => portOk p && txqOk q
  | .evmSrc x => srcOk x
/-- A task descriptor: 16 words (R96). -/
def descOk (d : List Word) : Bool := d.length = 16
/-- A list of lanes: up to 8 Lathes (R82). -/
def lanesOk (l : List Nat) : Bool := l.length ≤ 8 && l.all lthOk
/-- A word that the feeder has read: 64 data bits, DATA, or POISON where the read could not be corrected (R107), NBYTES_M1 of 3 bits (R106). -/
def bsqOk (w : BsqWord) : Bool := decide (w.data < 2 ^ 64) && (w.kind = 0 || w.kind = 2) && decide (w.nbytesM1 < 8)
/-- EDID bytes: blocks of 128, at most two (R263). -/
def edidOk (l : List Nat) : Bool := bytesOk l && decide (l.length ≤ 256)
/-- A Coop handle: 32 bits (R317). -/
def handleOk (h : Nat) : Bool := decide (h < 2 ^ 32)
/-- A frame: its addresses, its HSR sequence number and its priority of their widths (R348 to R350). -/
def frameOk (f : Frame) : Bool :=
  decide (f.srcMac < 2 ^ 48) && decide (f.dstMac < 2 ^ 48) && decide (f.seq < 65536) && decide (f.pcp < 8)
/-- A delivered packet (R355). -/
def packetOk (k : Packet) : Bool :=
  decide (k.vlan < 4096) && decide (k.dstIp < 2 ^ 32) && decide (k.port < 65536) && decide (k.seq < 65536) && bytesOk k.payload
/-- A management message: a command of 16 words (R365). -/
def mgmtOk (m : MgmtMsg) : Bool := m.cmd.length = 16 && decide (m.counter < 2 ^ 64)
/-- What a fetch returns: up to 8 commands of 16 words (R376). -/
def cmdsOk (l : List (List Word)) : Bool := decide (l.length ≤ 8) && l.all (fun c => c.length = 16)
/-- An image: its TYPE (R282). -/
def imgOk (i : Image) : Bool := decide (1 ≤ i.type) && decide (i.type ≤ 4)
/-- What a host read returns. -/
def hostReadOk : HostRead → Bool
  | .data l | .poisoned l => bytesOk l
  | .image _ | .ur | .ca => true
/-- Banks of DRAM channels (R308). -/
def banksOk (l : List (Nat × Nat)) : Bool := l.all (fun e => chOk e.1 && decide (e.2 < 16))

/-- Whether a command is well formed. -/
def Instr.wf : Instr → Bool
  | .regWrite _ addr _ _ => aOk addr
  | .misalignedAccess _ addr size _ => aOk addr && mOk addr size
  | .unmappedAccess _ addr _ => aOk addr
  | .snapshotRead _ addr => aOk addr && wordAligned addr
  | .counterClear u _ => unitOk u
  | .peakClear r => peakOk r
  | .regLock u _ => lockOk u
  | .lgrLock also => listOk also
  | .domainWakeOnAccess _ addr _ _ => aOk addr && wordAligned addr
  | .domainWakeDone pd _ => pdOk pd
  | .holdLong _ => true
  | .taskDispatch n desc _ => lthOk n && descOk desc
  | .taskGrantPush n _ _ => lthOk n
  | .taskPushRetry n _ => lthOk n
  | .nop n _ => lthOk n
  | .waitEvent n _ => lthOk n
  | .waitEventPulse src _ => srcOk src
  | .selfTest n _ _ => lthOk n
  | .decSeq n _ _ => lthOk n
  | .decPicStart n _ _ => lthOk n
  | .decRow n _ _ => lthOk n
  | .decParse n _ _ => lthOk n
  | .decReconRow n _ _ => lthOk n
  | .decConcealRow n _ _ => lthOk n
  | .decPicEnd n _ _ => lthOk n
  | .encPicStart n _ => lthOk n
  | .anaRow n _ _ => lthOk n
  | .encRow n _ _ => lthOk n
  | .encPicEnd n _ _ => lthOk n
  | .ctxSave n _ => lthOk n
  | .ctxLoad n _ => lthOk n
  | .ctxVerify n _ => lthOk n
  | .patchOpcode n _ => lthOk n
  | .unknownOpcode n _ => lthOk n
  | .blockDepRelease n _ => lthOk n
  | .encRowWaitRelease n _ => lthOk n
  | .stepRerun n _ loc pc _ _ => lthOk n && decide (loc < 4608) && decide (pc < 4096)
  | .taskCommit n _ _ => lthOk n
  | .taskTimeout n _ _ => lthOk n
  | .taskAbandon n _ _ => lthOk n
  | .lthTqPush _ n _ _ => lthOk n
  | .latheDrain n => lthOk n
  | .feederPush n w _ _ => lthOk n && bsqOk w.word && dramOk w.src
  | .feederStallLimit n _ => lthOk n
  | .bsqFlushRequest n => lthOk n
  | .bsqFlush n _ _ => lthOk n
  | .repinWaitExpiry sid _ => sidOk sid
  | .rateChangeWaitExpiry sid r _ => sidOk sid && rendOk r
  | .picDispatchNormal sid _ => sidOk sid
  | .decisionLimit sid _ => sidOk sid
  | .groupDispatch sid _ => sidOk sid
  | .shepherdTick tj _ => tj.length = 64
  | .bandFall _ => true
  | .unparkComplete _ => true
  | .parkedLatheOff p => lthOk p.lathe
  | .parkRotate _ => true
  | .powerWindow _ _ => true
  | .bwLevelLower _ => true
  | .frameBoundaryMigrate sid lanes _ => sidOk sid && lanesOk lanes
  | .powerStateDecision pd _ _ _ => pdOk pd
  | .domainWakeStart pd _ _ => pdOk pd
  | .maintRestart _ _ => true
  | .maintRecalibrate _ _ => true
  | .maintRetire _ _ => true
  | .maintVersionOk _ => true
  | .maintDrained n _ _ => lthOk n
  | .commitPoint cv _ => cvOk cv
  | .compGrant cv _ => cvOk cv
  | .bandDone cv _ => cvOk cv
  | .compDelivered cv _ => cvOk cv
  | .fenceLatch src => srcOk src
  | .overrideTriggerWrite _ _ => true
  | .overrideReleaseWrite _ _ => true
  | .overrideGpioAssert g _ => gpioOk g
  | .overrideGpioDeassert g _ => gpioOk g
  | .layerStale cv _ => cvOk cv
  | .headEnable d _ => headOk d
  | .headFrameStart d _ _ => headOk d
  | .vblank d => headOk d
  | .hpdLoss d => headOk d
  | .hpdReturn d edid => headOk d && edidOk edid
  | .linkTrainingDone d _ _ _ => headOk d
  | .csPatrol n outcome => lthOk n && decide (outcome < 3)
  | .spindleLoad n => lthOk n
  | .spnReload n _ => lthOk n
  | .spindleLoadDone n _ => lthOk n
  | .traceEnable n _ => lthOk n
  | .dramRead port tag addr _ _ => dPortOk port && tagOk tag && dramOk addr
  | .dramReadRetry port tag addr _ _ => dPortOk port && tagOk tag && dramOk addr
  | .dramWrite port tag addr bytes _ => dPortOk port && tagOk tag && dramOk addr && bytesOk bytes
  | .refreshSlot ch _ => chOk ch
  | .dramTempRead ch _ _ => chOk ch
  | .scrubLine ch _ _ => chOk ch
  | .softRepair ch _ _ => chOk ch
  | .wipeDone _ => true
  | .driftTrack ch _ => chOk ch
  | .bwWindow _ => true
  | .dmcLock also => listOk also
  | .coopLock also => listOk also
  | .coopReady _ => true
  | .coopWaitGrant _ => true
  | .coopFree handle => handleOk handle
  | .drvCopy ch _ _ => chOk ch
  | .drvFill ch _ _ => chOk ch
  | .drvCompare ch _ _ => chOk ch
  | .drvLedgerGrant ch src dst _ => chOk ch && bytesOk src && bytesOk dst
  | .drvAbort ch _ _ => chOk ch
  | .drvDone ch _ => chOk ch
  | .ringCheckWindow _ _ _ _ _ => true
  | .supervisionSend _ => true
  | .holdoffExpiry _ => true
  | .switchSensed pos _ => decide (pos < 4)
  | .switchTimeout _ => true
  | .bypassFaultRetry pos _ => decide (pos < 4)
  | .forceBypass _ _ => true
  | .withdrawWaitExpiry _ => true
  | .linkWaitExpiry p _ => portOk p
  | .portLinkUp p _ => portOk p
  | .portLinkDown p _ => portOk p
  | .speedTryExpiry p _ => portOk p
  | .sfpInsert p _ => portOk p
  | .frameRx p f _ _ => portOk p && frameOk f
  | .dupEntryExpiry _ => true
  | .portTransmit p _ _ => portOk p
  | .ptpMessage p _ _ => portOk p
  | .ptpSyncTimeout _ => true
  | .ptpSecond _ => true
  | .ppsInEdge ns => decide (ns < 1000000000)
  | .rtpPacketRx p k _ => portOk p && packetOk k
  | .reorderTimeout flow _ => flowOk flow
  | .rtcpRx p _ _ => portOk p
  | .arpIcmpRx p ip _ => portOk p && decide (ip < 2 ^ 32)
  | .slicePacketise sid r _ => sidOk sid && rendOk r
  | .netGrant sid r _ => sidOk sid && rendOk r
  | .txqAgeDrop p q _ => portOk p && txqOk q
  | .txqRateWrite q _ _ => txqOk q
  | .txqSample _ => true
  | .rtcpSrSend sid r _ => sidOk sid && rendOk r
  | .mgmtRequest m _ => mgmtOk m
  | .mgmtHello m => mgmtOk m
  | .mgmtLockoutEnd _ => true
  | .perstAssert _ => true
  | .hotReset _ => true
  | .linkDown _ => true
  | .functionLevelReset _ => true
  | .d3coldEntry _ => true
  | .d3hotEntry _ => true
  | .d0Entry _ => true
  | .bar4Write _ bytes => bytesOk bytes
  | .bar4Read _ _ => true
  | .sqTailDoorbell q _ => qOk q
  | .cqHeadDoorbell q _ => qOk q
  | .queueEnable q _ => qOk q
  | .queueDisable q _ => qOk q
  | .queueDrained q => qOk q
  | .commandFetch q cmds => qOk q && cmdsOk cmds
  | .commandStart q _ => qOk q
  | .cmdNop e => entOk e
  | .streamOpen e _ _ => entOk e
  | .streamClose e _ => entOk e
  | .streamConfig e _ _ => entOk e
  | .streamStats e _ => entOk e
  | .refreshRequest e _ => entOk e
  | .setTargetVersion e _ => entOk e
  | .canvasCommit e _ _ => entOk e
  | .override e _ => entOk e
  | .overrideRelease e _ => entOk e
  | .bufAlloc e _ => entOk e
  | .bufFree e => entOk e
  | .ingest e _ => entOk e
  | .egress e _ => entOk e
  | .imageLoad e _ _ => entOk e
  | .floorCommit e => entOk e
  | .hostReadTimeout o _ => ownerOk o
  | .hostReadCompletion o r _ => ownerOk o && hostReadOk r
  | .completionWrite e _ => entOk e
  | .cplWaitExpiry e _ => entOk e
  | .vectorTimerExpiry v _ => vecOk v
  | .vectorUnmask v => vecOk v
  | .quiesce _ => true
  | .swFencePulse _ _ => true
  | .sinkWrite k _ => sinkOk k
  | .crossingDelivery src => srcOk src
  | .stampRead _ j => stampOk j
  | .gpioDirWrite _ => true
  | .gpioInputEdge g => gpioOk g
  | .gpioPulseEnd g => gpioOk g
  | .bwtSourcePulse s => bwtOk s
  | .bwtClaim _ t pulsed rival => tgtOk t && pulsed.all bwtOk && rival.all tgtOk
  | .bwtEoi _ t _ _ => tgtOk t
  | .bwtSet _ _ => true
  | .bwtClear _ _ => true
  | .bwtSrcCfgWrite s _ => bwtOk s
  | .targetOffline t => tgtOk t
  | .targetOnline t => tgtOk t
  | .faultEdge k _ => faultOk k
  | .stickyClear i _ edges _ => wordOk i && edges.all faultOk
  | .brokenClear i _ => wordOk i
  | .wireBroken k _ => faultOk k
  | .wireRestored k => faultOk k
  | .wireTest k _ _ => faultOk k
  | .logRead _ e => logOk e
  | .injectAssert _ _ => true
  | .injectBreakF _ _ => true
  | .injectBreakFn _ _ => true
  | .injectDramCe _ => true
  | .injectDramUe _ => true
  | .injectCsFlip _ => true
  | .injectCsFlip2 _ => true
  | .injectBsqParity _ => true
  | .migrateTimeout n _ => lthOk n
  | .inputGood i _ _ _ => inOk i
  | .inputLost i _ _ _ _ => inOk i
  | .bothInputsLost _ => true
  | .resetComplete _ => true
  | .calibrateDone failed spent margins _ => failed.all chOk && banksOk spent && margins.all (fun m => pdOk m.1)
  | .loadDone _ _ imgsA imgsB _ => imgsA.all imgOk && imgsB.all imgOk
  | .modeReqRestart _ _ => true
  | .modeReqService _ _ => true
  | .modeReqMaintain _ _ => true
  | .modeReqQuiet _ _ => true
  | .maintHour hour _ => hourOk hour
  | .maintainEnd failed spent _ => failed.all chOk && banksOk spent
  | .holdExit _ => true
  | .withdrawCooled _ _ => true
  | .bankConfirm _ => true
  | .flashScrub bank _ _ _ _ => decide (bank < 3)
  | .lifeMinute _ => true
  | .marginRead pd slack _ _ => pdOk pd && slack.length = 4
  | .nearMiss pd _ => pdOk pd
  | .perstDeassert _ => true
  | .modInhibitRelease _ => true
  | .txCopyLeft e p _ => entOk e && portOk p

end Sys2Proof
end

