-- ==== Sys2Proof/Safety.lean ====
section
/-!
DEFINITION. What the statements say of a run: the canonical form of memory, a step that does not stop, and frames: what a command leaves
as it was.
-/
namespace Sys2Proof.Machine

/-- The canonical form of memory: addresses strictly rising, and no entry equal to what an unlisted address reads as. -/
def Memory.wf (m : List Host.Cell) : Bool := twf (0 : BitVec 8) m

/-- The invariant of the machine: device DRAM is in its canonical form. -/
def State.memOk (s : State) : Bool := Memory.wf s.dram.mem

/-- A step that neither faults nor refuses. -/
def safeStep (s : State) : Prop := ∃ t, step s = .next t

/-! ## What Icwell accepts (R200, R217) -/

/-- The slack of every picture-paced rendition of a stream covers its picture time at W_MAX, on bound content and with the stall of the
multiplier ×6 (R200). -/
def State.slackOk (s : State) (x : Stream) : Bool :=
  x.dir = 0 || x.cls ≤ 1 || (upTo 0 x.rends).all (fun r =>
    boundNs x.wMax [s.encWork x r] * 1000 / (1000 - stallOf 3) ≤ (x.rendition r).lateSlack * 1000)

/-- The live streams at their W_MAX lie within the guaranteed capacity of the band that SHP_CTRL.LIVE_BAND names (R217). -/
def State.liveOk (s : State) : Bool :=
  let b := min 2 (s.fld Reg.SHP_CTRL_LIVE_BAND)
  (s.streams.filter (fun e => e.2.state != 0 && e.2.cls ≤ 1)).foldl (fun n e => n + e.2.wMax) 0 ≤ min (nLim s.part b) s.healthy.length

/-! ## Frames -/

/-- The machine without its register fields and counters and without what events and faults reach: the fault collector, the event
matrix, the vectors and the messages to the host. All data, queues, memories and the rest of its state remain. -/
def State.body (s : State) : State :=
  { s with flds := [], cnts := [], flt := State.reset.flt, evm := State.reset.evm, vecs := [], toHost := [], pmeStatus := false }

/-- Register fields that any event or fault may change: those of the Bellwether and the matrix, LOG_WRAPPED, and LCM_MODE, which a
fault that holds changes (R419, R421, R431). -/
def eventField (key : Nat) : Bool :=
  let a := key / 32
  a / 0x10000 = 4 || a = 0x30004 || a = 0x10004

/-- Counters that any event or fault may change: those of the collector, the Bellwether and the host interface. -/
def eventCnt (c : Nat) : Bool := 3 ≤ c / 0x10000 && c / 0x10000 ≤ 5

/-- t differs from b in the fields `fs` and the counters `cs` at most, and in what events and faults reach. -/
structure Frame (b t : State) (fs : List Fld) (cs : List Nat) : Prop where
  flds : ∀ g : Fld, eventField g.key = false → (∀ f ∈ fs, g.key ≠ f.key) → t.fld g = b.fld g
  cnts : ∀ c, eventCnt c = false → c ∉ cs → t.cnt c = b.cnt c
  body : t.body = b.body

/-- t differs from b in the fields `fs` and the counters `cs` at most. -/
structure OnlyRegs (b t : State) (fs : List Fld) (cs : List Nat) : Prop where
  flds : ∀ g : Fld, (∀ f ∈ fs, g.key ≠ f.key) → t.fld g = b.fld g
  cnts : ∀ c, c ∉ cs → t.cnt c = b.cnt c
  rest : { t with flds := b.flds, cnts := b.cnts } = b

end Sys2Proof.Machine
end

