-- ==== Sys2Proof/Certificates/Slice0/Obligations.lean ====
section
/-!
DEFINITION. The statements for the provers, family by family; the definitions beside them name what several clauses say.
-/
open Sys2Proof Sys2Proof.Machine

/-! ## The machine as a whole -/

/-- A step takes the command at the front of the queue and runs exec on it with the rest of the queue; on an empty queue one
microsecond of ledger time passes and nothing else changes but the clocks (the model's choice, log entry 2). -/
def Obligations.StepRunsFrontCommand : Prop :=
  (∀ (c : Instr) (q : List Instr) (s : State), step { s with pending := c :: q } = exec c { s with pending := q }) ∧
  (∀ s : State, s.pending = [] → ∃ t, step s = .next t ∧ t.time = s.time + 1 ∧ t.flds = s.flds ∧ t.cnts = s.cnts ∧
    t.body = { s.body with time := t.time, ptpNs := t.ptpNs, ring := { s.ring with sub := t.ring.sub } })

/-- Every command has an effect in every state: the machine never stops. (Where the spec leaves a choice, the model's: log entry 4.) -/
def Obligations.EveryCommandAnswersNext : Prop := ∀ (c : Instr) (s : State), ∃ t, exec c s = .next t

/-- Device DRAM keeps its canonical form through every step, from every state that has it.
(Where the spec leaves a choice, the model's: log entry 1.) -/
def Obligations.EveryStepKeepsMemoryCanonical : Prop :=
  ∀ s t : State, s.memOk = true → step s = .next t → t.memOk = true

/-- What reset leaves, by the reset columns of the register tables: the mode is RESET and the requested mode SERVICE, bank scrubbing is
on, the unit locks are open, nothing is sticky, broken or logged, the ledger's minima have their values, DMC_REGION0 holds the whole
of DRAM, no command waits. -/
def resetValues : Prop :=
  let s := State.reset
  s.fld Reg.LCM_MODE_MODE = 1 ∧ s.fld Reg.LCM_MODE_PREV = 0 ∧ s.fld Reg.LCM_MODE_REQ_REQ = 5 ∧ s.fld Reg.LCM_BOOT_CFG_CONFIRM_MIN = 30 ∧
  s.fld Reg.LCM_BOOT_CFG_MAINT_HOUR = 24 ∧ s.fld Reg.LCM_FLASH_SCRUB_EN = 1 ∧ s.fld Reg.LCM_FLASH_SCRUB_H = 24 ∧
  s.fld Reg.LCM_AGE_CFG_TARGET_PS = 40 ∧ s.fld Reg.LCM_AGE_CFG_MIN_PS = 20 ∧
  s.fld Reg.FLT_LADDER_CFG_MIGRATE_MS = 100 ∧ s.fld Reg.FLT_LADDER_CFG_STRIKE_LIMIT = 3 ∧ s.fld Reg.FLT_LADDER_CFG_MIN_LATHES = 1 ∧
  s.fld Reg.FLT_STRIKE_CFG_STRIKE_WINDOW_MIN = 60 ∧ s.fld Reg.LCM_CTRL_LOCK = 0 ∧ s.fld Reg.FLT_CTRL_LOCK = 0 ∧
  s.fld (fltIrq 128) = 1 ∧ s.fld (fltIrq 0) = 0 ∧ s.fld (fltRetire 128) = 1 ∧ s.fld (fltRetire 154) = 0 ∧ s.fld (fltHold 3) = 1 ∧
  s.fld (Reg.DMC_REGION_BASE 0) = 0 ∧ s.fld (Reg.DMC_REGION_COUNT 0) = 1024 ∧
  s.flt.sticky = [] ∧ s.flt.broken = [] ∧ s.flt.log = [] ∧ s.pending = []

/-- Every tile of 128 14-bit words reads back from the header and the bytes that a writer makes of it. -/
def Obligations.VeneerTileRoundTrips : Prop :=
  ∀ x : List Nat, x.length = 128 → (∀ v ∈ x, v < 2 ^ 14) → tileDecode (tileCode (some x)).1 (tileCode (some x)).2 = some x

/-- The address map is one to one in every order: a line's place lies within the region, the line at that place is the line again, and
the place of the line at a place of the region is that place again. -/
def Obligations.AddressMapIsOneToOne : Prop :=
  ∀ (p : Part) (r : Region) (l : Nat), 0 < r.count → r.order < 4 →
    let c := partChannels p
    (l < r.count * granuleSize c / 64 →
      (placeIn c r l).ch < c ∧ (placeIn c r l).bank < 16 ∧ (placeIn c r l).slot < 28 ∧
      64 * r.base ≤ (placeIn c r l).row ∧ (placeIn c r l).row < 64 * (r.base + r.count) ∧
      lineAt c r (placeIn c r l) = l) ∧
    (∀ q : Place, q.ch < c → q.bank < 16 → q.slot < 28 → 64 * r.base ≤ q.row → q.row < 64 * (r.base + r.count) →
      lineAt c r q < r.count * granuleSize c / 64 ∧ placeIn c r (lineAt c r q) = q)

/-- The temperature band is one of the three, and each shedding level lies in 0 to 5. -/
def LevelsInRange (s : State) : Prop :=
  s.band ≤ 2 ∧ s.fld Reg.SHP_SHED_HEAT_LEVEL ≤ 5 ∧ s.fld Reg.SHP_SHED_POWER_LEVEL ≤ 5 ∧ s.fld Reg.SHP_SHED_BW_LEVEL ≤ 5 ∧
    s.fld Reg.SHP_SHED_LEVEL ≤ 5

/-- Every step keeps the band and the shedding levels in their range, from every state where they are. -/
def Obligations.EveryStepKeepsLevelsInRange : Prop := ∀ s t : State, LevelsInRange s → step s = .next t → LevelsInRange t

/-- The mode is one of the twelve, and MAINTAIN was entered from SERVICE or DEGRADED. -/
def ModeOk (s : State) : Prop := s.mode ≤ 11 ∧ (s.mode = 7 → s.fld Reg.LCM_MODE_PREV = 5 ∨ s.fld Reg.LCM_MODE_PREV = 6)

/-- Modes change only along the table of modes: whatever command runs, WIPE follows CALIBRATE alone, LOAD follows WIPE, CALIBRATE follows
RESET, FACTORY follows LOAD, MAINTAIN follows SERVICE or DEGRADED, and QUIET follows a service mode; RETIRED is left
for RESET or ABSENT alone; service and HOLD are entered from LOAD, FACTORY, QUIET or one another. -/
def Obligations.ModesChangeAlongTheTable : Prop :=
  ∀ s t : State, ModeOk s → step s = .next t → ModeOk t ∧ (t.mode ≠ s.mode →
    (t.mode = 2 → s.mode = 4) ∧ (t.mode = 3 → s.mode = 2) ∧ (t.mode = 4 → s.mode = 1) ∧ (t.mode = 10 → s.mode = 3) ∧
    (t.mode = 7 → s.mode = 5 ∨ s.mode = 6) ∧ (t.mode = 8 → 5 ≤ s.mode ∧ s.mode ≤ 7) ∧
    (s.mode = 11 → t.mode ≤ 1) ∧
    (t.mode = 5 ∨ t.mode = 6 → s.mode = 3 ∨ (5 ≤ s.mode ∧ s.mode ≤ 10)) ∧
    (t.mode = 9 → s.mode = 3 ∨ (5 ≤ s.mode ∧ s.mode ≤ 10)))

/-- The ledger holds at most 131,072 entries. -/
def LedgerFits (s : State) : Prop := s.ldgAll ≤ 131072

/-- The ledger never holds more than 131,072 entries, whatever its sizes are set to: every step keeps it so, from every state where it is. -/
def Obligations.EveryStepKeepsTheLedgerBounded : Prop := ∀ s t : State, LedgerFits s → step s = .next t → LedgerFits t

/-- The state after reset holds the values of the register tables and meets the machine's invariants: device DRAM is canonical, the levels lie
in their ranges, the mode is legal, and the ledger is empty. -/
def Obligations.ResetMeetsTablesAndInvariants : Prop :=
  resetValues ∧ State.reset.memOk = true ∧ LevelsInRange State.reset ∧ ModeOk State.reset ∧ LedgerFits State.reset

/-! ## Registers, domains and the ledger -/

/-- A NOTE of source k is recorded: its sticky bit is set, and where it was clear a log entry names the source. -/
def Notes (k : Nat) (s t : State) : Prop :=
  s.asserted k = false →
    t.fltSticky k = true ∧ (s.fltSticky k = false → (tget logEnt0 t.flt.log s.flt.logWr).source = k ∧
      (tget logEnt0 t.flt.log s.flt.logWr).valid = true)

/-- A read of an unmapped address, or an access that is not four bytes aligned to four, returns 0, a write of one is ignored, and each
is recorded as a NOTE; in the window of an absent unit it is not, and every other access to that window reads 0 or is ignored as well. -/
def Obligations.BadAccessesReadZeroAndNote : Prop :=
  (∀ (s : State) (rq : Requester) (a : Nat) (v hw : Word), s.absentAt a = true → exec (.regWrite rq a v hw) s = .next s ∧
    (snapWords a ≠ [] → exec (.snapshotRead rq a) s = .next { s with resp := some ⟨rq, a, 0⟩ })) ∧
  ∀ (c : Instr) (s : State) (rq : Requester) (a size : Nat) (wr : Bool),
    (c = .unmappedAccess rq a wr ∧ a % 4 = 0 ∧ mapped a = false) ∨ (c = .misalignedAccess rq a size wr ∧ (size ≠ 4 ∨ a % 4 ≠ 0)) →
    ∃ t, exec c s = .next t ∧ (wr = false → t.resp = some ⟨rq, a, 0⟩) ∧ (wr = true → t.resp = s.resp) ∧
      (s.absentAt a = false → Notes 0 s t) ∧ (s.absentAt a = true → t = { s with resp := t.resp }) ∧
      Frame { s with resp := t.resp } t [] []

/-- What a write leaves in a field by its access code; `lock`: the unit's lock bit, `hw`: the W1C bits set in the same cycle. -/
def written (f : RegField) (lock : Bool) (v hw : Word) (old : Nat) : Nat :=
  match f.acc with
  | .rw => bitsOf v f.lo f.w
  | .rwl => if lock then old else bitsOf v f.lo f.w
  | .w1c => ((old &&& (2 ^ f.w - 1 - bitsOf v f.lo f.w)) ||| bitsOf hw f.lo f.w) % 2 ^ f.w
  | .ro | .w1s | .wo => old

/-- A write of a register of the DMC_ window takes effect field by field, by the access codes and the lock; a W1C bit that hardware sets
in the same cycle reads 1 afterwards. DMC_CTRL and DMC_CNT_CTRL have statements of their own. -/
def Obligations.RegisterWriteFollowsAccessCodes : Prop :=
  ∀ (s : State) (rq : Requester) (a : Nat) (v hw : Word), a / 0x10000 = 9 → a % 4 = 0 → mapped a = true → a ≠ 0x90000 → a ≠ 0x90480 →
    ∃ t, exec (.regWrite rq a v hw) s = .next t ∧
      (∀ f ∈ regFields a, t.fld (fieldAt a f) = written f (s.on Reg.DMC_CTRL_LOCK) v hw (s.fld (fieldAt a f))) ∧
      Frame s t ((regFields a).map (fieldAt a)) []

/-- A read of the low word of a counter answers the requester that word, and keeps the high word for that requester alone. -/
def Obligations.SnapshotReadIsPerRequester : Prop :=
  ∀ (s : State) (rq : Requester) (a : Nat), counterAt a = true → a % 8 = 0 → s.absentAt a = false →
    (∀ d, domainOf a = some d → s.pd d = 0) → (rq = .host → 5 ≤ s.mode) →
    ∃ t, exec (.snapshotRead rq a) s = .next t ∧ t.resp = some ⟨rq, a, BitVec.ofNat 32 (s.cnt a)⟩ ∧
      t.snap rq (a + 4) = s.cnt a / 2 ^ 32 % 2 ^ 32 ∧
      (∀ r x, r ≠ rq → x < 2 ^ 28 → t.snap r x = s.snap r x) ∧ { t with resp := s.resp, snaps := s.snaps } = s

/-- CLEAR takes every counter of a present unit to 0, increments of the same cycle are lost, and no other counter changes; a CLR bit takes
a peak to the present value. -/
def Obligations.ClearsWinOverIncrements : Prop :=
  (∀ (s : State) (u : CntUnit) (inc : List Nat), s.hasCnt u = true → (∀ d, domainOf (cntCtrlAddr u) = some d → s.pd d = 0) →
    ∃ t, exec (.counterClear u inc) s = .next t ∧ (∀ c, cntOf u c = true → t.cnt c = 0) ∧
      (∀ c, cntOf u c = false → t.cnt c = s.cnt c) ∧ { t with cnts := s.cnts } = s) ∧
  (∀ (s : State) (n : Nat), s.hasLathe n = true → s.pd (12 + n) = 0 → (s.lth n).queue.length < 128 →
    ∃ t, exec (.peakClear (.lthTq n)) s = .next t ∧ t.fld (Reg.LTH_TQ_PEAK n) = (s.lth n).queue.length ∧
      OnlyRegs s t [Reg.LTH_TQ_PEAK n] []) ∧
  (∀ (s : State) (c : Nat) (k : LClass), allCls[c]? = some k →
    ∃ t, exec (.peakClear (.lgr c)) s = .next t ∧ t.fld (Reg.LGR_PEAK_PEAK c) = s.ldgHeld k % 2 ^ (Reg.LGR_PEAK_PEAK c).w ∧
      OnlyRegs s t [Reg.LGR_PEAK_PEAK c] []) ∧
  (∀ (s : State) (p : Nat), p < 6 →
    ∃ t, exec (.peakClear (.copPool p)) s = .next t ∧
      t.fld (Reg.COP_POOL6_PEAK_HELD p) = s.coopHeld p % 2 ^ (Reg.COP_POOL6_PEAK_HELD p).w ∧ OnlyRegs s t [Reg.COP_POOL6_PEAK_HELD p] []) ∧
  (∀ (s : State) (p q : Nat), p < 2 → q < 256 →
    ∃ t, exec (.peakClear (.txq p q)) s = .next t ∧
      t.fld (Reg.RNG_TXQ_SAMPLE1_MAX_AGE_US (p * 256 + q)) =
        s.fld (Reg.RNG_TXQ_SAMPLE0_HEAD_AGE_US (p * 256 + q)) % 2 ^ (Reg.RNG_TXQ_SAMPLE1_MAX_AGE_US (p * 256 + q)).w ∧
      OnlyRegs s t [Reg.RNG_TXQ_SAMPLE1_MAX_AGE_US (p * 256 + q)] []) ∧
  (∀ (s : State) (x : Nat), x < 256 →
    ∃ t, exec (.peakClear (.evmSrc x)) s = .next t ∧ t.fld (Reg.EVM_SRC_STAT_MERGED x) = 0 ∧ t.fld (Reg.EVM_SRC_STAT_DROPPED x) = 0 ∧
      OnlyRegs s t [Reg.EVM_SRC_STAT_MERGED x, Reg.EVM_SRC_STAT_DROPPED x] [])

/-- A lock bit written 1 reads 1; the ledger's does so only where its minima fit, judged with the values written in the same cycle,
and sets CFG_ERR where they do not. -/
def Obligations.LockBitsSet : Prop :=
  (∀ (s : State) (u : LockUnit) (f : Fld) (v : Word), bitsOf v 0 1 = 1 →
    (u = .lcm ∧ f = Reg.LCM_CTRL_LOCK) ∨ (u = .flt ∧ f = Reg.FLT_CTRL_LOCK) ∨ (u = .rng ∧ f = Reg.RNG_CTRL_LOCK) ∨
      (u = .evm ∧ f = Reg.EVM_CTRL_LOCK) →
    ∃ t, exec (.regLock u v) s = .next t ∧ t.fld f = 1 ∧ OnlyRegs s t [f] []) ∧
  (∀ (s : State) (i : Nat) (v : Word), s.hasInlay i = true → s.pd (6 + i) = 0 → bitsOf v 0 1 = 1 →
    ∃ t, exec (.regLock (.inl i) v) s = .next t ∧ t.fld (Reg.INL_CTRL_LOCK i) = 1 ∧
      OnlyRegs { s with restore := t.restore } t [Reg.INL_CTRL_LOCK i] []) ∧
  (∀ (s : State) (also : List (Nat × Word)), let s' := s.plainWrites (also.filter (fun w => w.1 / 0x10000 = 64))
    s'.fld Reg.LGR_CTRL_LOCK = 0 →
    ∃ t, exec (.lgrLock also) s = .next t ∧
      ((s'.lgrMinSum ≤ 131072 ∧ ∀ c ∈ allCls, s'.lgrLive c ≤ s'.lgrMin c) →
        t.fld Reg.LGR_CTRL_LOCK = 1 ∧ t.fld Reg.LGR_STATUS_CFG_ERR = 0) ∧
      (¬ (s'.lgrMinSum ≤ 131072 ∧ ∀ c ∈ allCls, s'.lgrLive c ≤ s'.lgrMin c) →
        t.fld Reg.LGR_CTRL_LOCK = 0 ∧ t.fld Reg.LGR_STATUS_CFG_ERR = 1) ∧
      t.ldg.entries = s'.ldg.entries ∧
      Frame { s' with ldg := t.ldg } t [Reg.LGR_CTRL_LOCK, Reg.LGR_STATUS_CFG_ERR, Reg.LGR_STATUS_LIVE_HELD] [])

/-- Command c waits as requester rq's write of w to the register at a, for domain d, and changes nothing else. -/
def WriteWaits (s : State) (c : Instr) (rq : Requester) (a : Nat) (w : Word) (d : Nat) : Prop :=
  ∃ t k, exec c s = .next t ∧ tget none t.wakes d = some k ∧ k.accs = ((tget none s.wakes d).elim [] Waking.accs) ++ [⟨rq, a, some w⟩] ∧
    { t with wakes := s.wakes } = s

/-- The rows that are named after a write of a Lathe's register: the row, and the register with the word written. -/
def latheWrites (s : State) (n : Nat) (v : Word) : List (Instr × Nat × Word) :=
  [(.lthTqPush .host n v s.time, 0x1000FC + 0x10000 * n, v), (.bsqFlushRequest n, 0x100208 + 0x10000 * n, 1),
   (.spnReload n v, 0x108004 + 0x10000 * n, v), (.traceEnable n v, 0x108044 + 0x10000 * n, v),
   (.latheDrain n, 0x100008 + 0x10000 * n, BitVec.ofNat 32 (1 + 2 * s.keptFld (Reg.LTH_CTRL_DIRECT_TQ n))),
   (.peakClear (.lthTq n), 0x100010 + 0x10000 * n, 0x8000), (.regLock (.lth n) v, 0x100008 + 0x10000 * n, v),
   (.counterClear (.lth n) [], 0x100180 + 0x10000 * n, BitVec.ofNat 32 (1 + 2 * s.keptFld ⟨0x100180 + 0x10000 * n, 1, 1, 0⟩))]

/-- An access to a domain in RET or OFF wakes it and waits, and so does each row that is named after a write of a register there; a
waking domain whose wake ends is ON, what OFF lost of it is restored before the waiting accesses perform in their order, and one that was needed
before is late; a Lathe's wake is paid by its next picture. A request held longer than LGR_HOLD_LIMIT sets HOLD_LONG, and without one nothing does.
(Where the spec leaves a choice, the model's: log entries 14, 15, 65, 66.) -/
def Obligations.SleepingDomainsWakeOnAccess : Prop :=
  (∀ (s : State) (rq : Requester) (a d : Nat) (w : Option Word) (now : Nat), s.absentAt a = false → a % 4 = 0 → mapped a = true →
    domainOf a = some d → hasDomain s.part d = true → 2 ≤ s.pd d →
    ∃ t k, exec (.domainWakeOnAccess rq a w now) s = .next t ∧ tget none t.wakes d = some k ∧
      k.accs = ((tget none s.wakes d).elim [] Waking.accs) ++ [⟨rq, a, w⟩] ∧ k.need ≤ max s.time now ∧
      { t with wakes := s.wakes } = s.at now) ∧
  (∀ (s : State) (n : Nat) (v w : Word) (c : Instr) (a : Nat), s.hasLathe n = true → 2 ≤ s.pd (12 + n) → (c, a, w) ∈ latheWrites s n v →
    WriteWaits s c .host a w (12 + n)) ∧
  (∀ (s : State) (v : Word), 2 ≤ s.pd 6 → WriteWaits s (.overrideTriggerWrite v s.time) .host 0xA0020 v 6 ∧
    WriteWaits s (.overrideReleaseWrite v s.time) .host 0xA0020 v 6) ∧
  (∀ (s : State) (d : Nat) (v : Word), s.hasHead d = true → 2 ≤ s.pd 5 → WriteWaits s (.headEnable d v) .host (0xA8000 + 0x400 * d) v 5) ∧
  (∀ (s : State) (q : Nat) (v : Word), 2 ≤ s.pd 3 → WriteWaits s (.quiesce v) .host 0x50000 v 3 ∧
    (q < 64 → WriteWaits s (.vectorUnmask q) .host (0x5200C + 0x10 * q) 0 3) ∧
    (s.hostQueue q = true → v.getLsbD 31 = true → WriteWaits s (.queueEnable q v) .host (0x51010 + 0x40 * q) v 3) ∧
    (s.hostQueue q = true → v.getLsbD 31 = false → WriteWaits s (.queueDisable q v) .host (0x51010 + 0x40 * q) v 3)) ∧
  (∀ (s : State) (d now : Nat), tget none s.wakes d = none → exec (.domainWakeDone d now) s = .next (s.at now)) ∧
  (∀ (s : State) (d now : Nat) (k : Waking), d < 12 → tget none s.wakes d = some k →
    ∃ u : State, exec (.domainWakeDone d now) s = .next (u.performAll k.accs) ∧ u.pd d = 0 ∧ tget none u.wakes d = none ∧
      (∀ j, j ≠ d → tget none u.wakes j = tget none s.wakes j) ∧ (k.need < max s.time now → u.fld Reg.SHP_STATUS_WAKE_LATE = 1) ∧
      (s.pd d ≠ 3 → OnlyRegs { s.at now with wakes := u.wakes } u [pdStateF d, Reg.SHP_STATUS_WAKE_LATE] [Cnt.SHP_WAKES_LATE]) ∧
      (s.pd d = 3 →
        (∀ a lo f v, lo < 32 → (regFields a).find? (fun g => g.lo = lo) = some f → domainOf a = some d → tsorted s.restore = true →
          tget 0 s.restore (fieldAt a f).key = v + 1 → u.fld (fieldAt a f) = v % 2 ^ f.w) ∧
        (∀ g : Fld, domainOf (g.key / 32) ≠ some d → g.key ≠ (pdStateF d).key → g.key ≠ Reg.SHP_STATUS_WAKE_LATE.key →
          g.key ≠ (Reg.LCM_DOMAIN_NEAR_MISS d).key → u.fld g = s.fld g) ∧ { u with flds := s.flds, cnts := s.cnts, wakes := s.wakes } = s.at now)) ∧
  (∀ (s : State) (n now : Nat) (k : Waking), tget none s.wakes (12 + n) = some k → s.flt.inject = none →
    ∃ u : State, exec (.domainWakeDone (12 + n) now) s = .next ((u.performAll k.accs).rotateEnd n) ∧ u.pd (12 + n) = 0 ∧ tget none u.wakes (12 + n) = none ∧
      u.lth n = { s.lth n with woke := if s.pd (12 + n) = 3 then 178200 else 9504 } ∧ (∀ m, m ≠ n → u.lth m = s.lth m) ∧
      { u with flds := s.flds, cnts := s.cnts, wakes := s.wakes, lathes := s.lathes } = s.at now) ∧
  (∀ (s : State) (now : Nat), (∀ r ∈ s.ldg.reqs, ∀ t0, r.held = some t0 → max s.time now ≤ t0 + atLeast1 (s.fld Reg.LGR_HOLD_LIMIT_LIMIT_US)) →
    exec (.holdLong now) s = .next (s.at now)) ∧
  (∀ (s : State) (now : Nat) (r : LReq) (t0 : Nat), r ∈ s.ldg.reqs → r.held = some t0 →
    t0 + atLeast1 (s.fld Reg.LGR_HOLD_LIMIT_LIMIT_US) < max s.time now →
    ∃ t, exec (.holdLong now) s = .next t ∧ t.fld Reg.LGR_STATUS_HOLD_LONG = 1 ∧
      (s.asserted 40 = false → t.fltSticky 40 = true) ∧ Frame (s.at now) t [Reg.LGR_STATUS_HOLD_LONG] [])

/-! ## Tasks -/

/-- Lathe n can start its head task q: it may pop it, the descriptor passes the checks of R97, and its opcode has a routine. -/
def Startable (s : State) (n : Nat) (q : QTask) : Prop :=
  s.headTask n = some q ∧ s.canPop n q.desc = true ∧ s.descCheck n q.desc = 0 ∧ nbits (s.dispEntry n q.desc) 12 1 = 1

/-- Lathe n has popped task q, whose ledger entry now reads STATE `st`; no other Lathe, no other part of Lathe n and no other entry
differs from b. -/
structure Popped (b t : State) (n : Nat) (q : QTask) (st : Nat) : Prop where
  queue : (t.lth n).queue = (b.lth n).queue.drop 1 ∧ (t.lth n).curDesc = q.desc
  entry : ∀ e, b.lent q.entry = some e → t.lent q.entry = some { e with state := st }
  lathe : (t.lth n).retry = (b.lth n).retry ∧ (t.lth n).lastRes = (b.lth n).lastRes ∧ (t.lth n).push = (b.lth n).push ∧
    (t.lth n).bsq = { (b.lth n).bsq with flushed := false } ∧ (t.lth n).cs = (b.lth n).cs ∧ (t.lth n).disp = (b.lth n).disp ∧
    (t.lth n).loads = (b.lth n).loads ∧
    (t.lth n).patrol = (b.lth n).patrol ∧ (t.lth n).strikes = (b.lth n).strikes ∧ (t.lth n).ladderSince = (b.lth n).ladderSince ∧
    (t.lth n).spare = (b.lth n).spare
  lathes : ∀ m, m ≠ n → t.lth m = b.lth m
  entries : ∀ k, k ≠ q.entry → t.lent k = b.lent k

/-- The state before a task, with the parts that a run changes as they are after it. -/
def runBase (b t : State) : State :=
  { b with lathes := t.lathes, ldg := { b.ldg with entries := t.ldg.entries }, freeCtr := t.freeCtr }

/-- The registers that a Lathe's trace moves. -/
def traceF (n : Nat) : List Fld := [Reg.SPN_TRACE_CTRL_WR_PTR n, Reg.SPN_TRACE_CTRL_WRAPPED n]

/-- The counters that a task's start and its steps move. -/
def runC (n : Nat) : List Nat := [Cnt.CYC_SWITCH n, Cnt.SPN_STEPS n]

/-- Lathe n runs task q from `now` on as run r, and nothing of b but what a run changes differs. -/
def Runs (b t : State) (n : Nat) (q : QTask) (r : Run) : Prop :=
  (t.lth n).run = some r ∧ r.task = q ∧ r.start = b.time ∧ Popped b t n q 3 ∧ OnlyRegs (runBase b t) t (traceF n) (runC n)

/-- A task that is due is dispatched, and asks for a TASK entry under its stream's SID and class; a ready picture of a picture-paced stream
waits where its Lathe cannot be given to it, and is dispatched where it can. The grant pushes the descriptor at the Lathe, or keeps it
for the retry while 64 are queued; the retry pushes the same task once there is room; a staged descriptor is dispatched with word 15.
(Where the spec leaves a choice, the model's: log entries 6, 57, 136.) -/
def Obligations.TasksReachTheirLathe : Prop :=
  ∀ (s : State) (n now : Nat), s.hasLathe n = true →
    (∀ desc : List Word, let d := desc.map (fun w => w.toNat)
      ((s.at now).opens d = false → (s.at now).mayGive n d = true →
        ∃ t, exec (.taskDispatch n desc now) s = .next t ∧ t.disps = s.disps ++ [⟨n, d, s.dispTag⟩] ∧ t.dispTag = s.dispTag + 1 ∧
          t.ldg.reqs.map (fun x => (x.cls, x.live, x.origin, x.tag)) =
            s.ldg.reqs.map (fun x => (x.cls, x.live, x.origin, x.tag)) ++ [(.task, s.liveTask d, dSid d, s.dispTag)] ∧
          Frame { (s.at now).placeTask n d with disps := t.disps, dispTag := t.dispTag, ldg := t.ldg } t [Reg.LGR_STATUS_LIVE_HELD] [] ∧
          t.ldg.entries = s.ldg.entries) ∧
      ((s.at now).opens d = true → (s.at now).mayDispatch d = true → (s.at now).taskDue d = true → s.shp.ready = [] →
        ((s.at now).mayGive n d = false → ∃ t, exec (.taskDispatch n desc now) s = .next t ∧
          t.shp.ready = [⟨d, (s.at now).endDeadline d, max s.time now⟩] ∧ { t with shp := s.shp } = s.at now) ∧
        ((s.at now).mayGive n d = true → ∃ t, exec (.taskDispatch n desc now) s = .next t ∧ t.shp.ready = [] ∧
          t.disps = s.disps ++ [⟨n, d, s.dispTag⟩] ∧ t.ldg.entries = s.ldg.entries))) ∧
    (∀ (pop : Bool) (d : Disp) (b : Bucket), nextDisp n s.disps [] = some d → (s.at now).grantBucket .task d.tag = some b →
      ∃ t, exec (.taskGrantPush n pop now) s = .next t ∧ t.disps = s.disps.filter (fun x => x.tag ≠ d.tag) ∧
        (∃ x, t.lent s.nextEntry = some x ∧ x.cls = .task ∧ x.bucket = b ∧ x.state = 1 ∧ x.words = taskWords d.desc) ∧
        ((s.lth n).retry = [] → (s.lth n).queue.length < 64 → (t.lth n).queue = (s.lth n).queue ++ [⟨d.desc, s.nextEntry, 0, []⟩]) ∧
        ((s.lth n).retry ≠ [] ∨ 64 ≤ (s.lth n).queue.length →
          (t.lth n).queue = (s.lth n).queue ∧ (t.lth n).retry = (s.lth n).retry ++ [⟨d.desc, s.nextEntry, 0, []⟩]) ∧
        (∀ m, m ≠ n → t.lth m = s.lth m) ∧ (∀ k, k ≠ s.nextEntry → t.lent k = s.lent k) ∧
        Frame { s.at now with disps := t.disps, ldg := t.ldg, lathes := t.lathes } t
          [Reg.LGR_PEAK_PEAK 1, Reg.LTH_TQ_PEAK n, Reg.LGR_STATUS_LIVE_HELD] []) ∧
    (∀ (q : QTask) (rest : List QTask), (s.lth n).retry = q :: rest → (s.lth n).queue.length < 64 →
      ∃ t, exec (.taskPushRetry n now) s = .next t ∧ (t.lth n).queue = (s.lth n).queue ++ [q] ∧ (t.lth n).retry = rest ∧
        (∀ m, m ≠ n → t.lth m = s.lth m) ∧
        OnlyRegs { s.at now with lathes := t.lathes } t [Reg.LTH_TQ_PEAK n] [Cnt.SHP_PUSH_RETRIES]) ∧
    (∀ (rq : Requester) (v : Word), s.on (Reg.LTH_CTRL_DIRECT_TQ n) = true → (s.lth n).queue.length < 64 → s.pd (12 + n) = 0 →
      ∃ t, exec (.lthTqPush rq n v now) s = .next t ∧
        t.disps = s.disps ++ [⟨n, (upTo 0 15).map (fun k => tget 0 (s.lth n).push k) ++ [v.toNat], s.dispTag⟩] ∧
        Frame { s.at now with disps := t.disps, dispTag := t.dispTag, ldg := t.ldg } t [Reg.LGR_STATUS_LIVE_HELD] [] ∧
        t.ldg.entries = s.ldg.entries)

/-- NOP, WAIT_EVENT, SELF_TEST, the context tasks and a patch's opcode start; all but WAIT_EVENT end at once, with the status that the
spec gives each, and a patch's with any. CTX_SAVE stores the stream's records at CTX_ADDR, and CTX_LOAD reads them back.
(Where the spec leaves a choice, the model's: log entries 35, 135.) -/
def tasksWithoutData : Prop :=
  ∀ (s : State) (n now : Nat) (q : QTask), Startable s n q →
    let op := dOpcode q.desc
    let x := s.stream (dSid q.desc)
    (op = 0 → ∃ t r, exec (.nop n now) s = .next t ∧ Runs (s.at now) t n q r ∧ r.done = true ∧ r.status = 0) ∧
    (op = 1 → ∃ t r, exec (.waitEvent n now) s = .next t ∧ Runs (s.at now) t n q r ∧ r.done = false) ∧
    (op = 2 → ∃ t r, exec (.selfTest n true now) s = .next t ∧ Runs (s.at now) t n q r ∧ r.done = true ∧ r.status = 0) ∧
    (op = 2 → ∃ t r, exec (.selfTest n false now) s = .next t ∧ Runs (s.at now) t n q r ∧ r.done = true ∧ 0 < r.status ∧ r.status < 12) ∧
    (op = 0x60 → ∃ t r, exec (.ctxSave n now) s = .next t ∧ (t.lth n).run = some r ∧ r.task = q ∧ r.done = true ∧ r.status = 0 ∧
      Popped (s.at now) t n q 3 ∧ t.dram = (s.putBytes (dCtx q.desc) (x.bytes (dSid q.desc))).dram ∧
      (∀ a, (a < dCtx q.desc ∨ dCtx q.desc + 2048 ≤ a) → t.byte a = s.byte a) ∧
      Frame (runBase { s.at now with dram := t.dram } t) t (traceF n) (runC n)) ∧
    (op = 0x61 → ∃ t r, exec (.ctxLoad n now) s = .next t ∧ (t.lth n).run = some r ∧ r.task = q ∧ r.done = true ∧ r.status = 0 ∧
      Popped (s.at now) t n q 3 ∧ t.streams = (s.loadCtx (dSid q.desc) (dCtx q.desc)).streams ∧
      (∀ k, k < 448 → (t.stream (dSid q.desc)).word (256 + 4 * k) = s.word32 (dCtx q.desc + 256 + 4 * k) % 2 ^ 32) ∧
      (∀ k, k ≠ dSid q.desc → t.stream k = s.stream k) ∧
      OnlyRegs (runBase { s.at now with streams := t.streams } t) t (traceF n) (runC n)) ∧
    (op = 0x62 → ∃ t r, exec (.ctxVerify n now) s = .next t ∧ Runs (s.at now) t n q r ∧ r.done = true ∧
      r.status = if x.dir = 0 ∨ (s.slotOf n x.nextVersion).isSome = true then 0 else 11) ∧
    (0x80 ≤ op → ∃ t r, exec (.patchOpcode n now) s = .next t ∧ Runs (s.at now) t n q r ∧ r.done = true ∧ r.status < 12)

/-- A task whose descriptor fails a check of R97 completes at once with that check's status, without running; so does one of an opcode
that the base microcode does not define, with BAD_PARAM. Its entry returns, and it counts as a task.
(Where the spec leaves a choice, the model's: log entry 34.) -/
def refusedTasks : Prop :=
  ∀ (s : State) (n now : Nat) (q : QTask), s.headTask n = some q → s.canPop n q.desc = true →
    let op := dOpcode q.desc
    let after (t : State) (st : Nat) : Prop :=
      (t.lth n).run = none ∧ (t.lth n).queue = (s.lth n).queue.drop 1 ∧
      (t.lth n).lastRes = resultWords st 0 (dTag q.desc) 0 0 0 0 false ∧ t.lent q.entry = none ∧
      (∀ k, k ≠ q.entry → t.lent k = s.lent k) ∧ (∀ m, m ≠ n → t.lth m = s.lth m) ∧ (s.on (freezeOf (Cnt.CNT_TASKS n)) = false →
        t.cnt (Cnt.CNT_TASKS n) = (s.cnt (Cnt.CNT_TASKS n) + 1) % 2 ^ 64)
    (s.descCheck n q.desc ≠ 0 → ∀ c, (c = .nop n now ∧ op = 0) ∨ (c = .waitEvent n now ∧ op = 1) ∨ (c = .ctxSave n now ∧ op = 0x60) ∨
        (c = .ctxLoad n now ∧ op = 0x61) ∨ (c = .ctxVerify n now ∧ op = 0x62) ∨ (c = .patchOpcode n now ∧ 0x80 ≤ op) →
      ∃ t, exec c s = .next t ∧ after t (s.descCheck n q.desc) ∧ t.fld (Reg.LTH_FAULT_DESC_BAD n) = 1 ∧
        Frame (runBase (s.at now) t) t [Reg.LTH_FAULT_DESC_BAD n, Reg.LTH_FAULT_VERSION n] [Cnt.CNT_TASKS n]) ∧
    ((3 ≤ op ∧ op < 0x10) ∨ (0x17 ≤ op ∧ op < 0x30) ∨ (0x34 ≤ op ∧ op < 0x60) ∨ (0x63 ≤ op ∧ op < 0x80) → s.descCheck n q.desc = 0 → nbits (s.dispEntry n q.desc) 12 1 = 1 →
      ∃ t, exec (.unknownOpcode n now) s = .next t ∧ after t 2 ∧
        Frame (runBase (s.at now) t) t (traceF n) [Cnt.CNT_TASKS n, Cnt.CYC_SWITCH n]) ∧
    (s.descCheck n q.desc = 0 → nbits (s.dispEntry n q.desc) 12 1 = 0 → op = 0 →
      ∃ t, exec (.nop n now) s = .next t ∧ after t 2 ∧ t.fld (Reg.SPN_FAULT_NO_ENTRY n) = 1 ∧
        Frame (runBase (s.at now) t) t [Reg.SPN_FAULT_NO_ENTRY n] [Cnt.CNT_TASKS n])

/-- Tasks that touch no picture: those that run, and those that a check refuses. -/
def Obligations.TasksWithoutDataRun : Prop := tasksWithoutData ∧ refusedTasks

/-! ## Decode and encode tasks -/

/-- The registers and counters that reading the bitstream queue, writing samples and the errors that these meet may move. -/
def rowF (n : Nat) : List Fld :=
  traceF n ++ [Reg.FLT_INJECT_CTRL_ARM, Reg.LTH_BSQ_FAULT_PARITY n, Reg.DMC_FAULT_UE, Reg.DMC_ERR_LOG0_CHANNEL, Reg.DMC_ERR_LOG0_BANK,
    Reg.DMC_ERR_LOG0_ROW, Reg.DMC_ERR_LOG0_SLOT, Reg.DMC_ERR_LOG0_TYPE, Reg.DMC_ERR_LOG1_PORT, Reg.DMC_ERR_LOG1_TAG,
    Reg.DMC_ERR_LOG1_TIME_MS]

/-- The counters. -/
def rowC (n : Nat) : List Nat :=
  runC n ++ [Cnt.BSQ_POISON_POPPED n, Cnt.BSQ_PARITY_ERR n, Cnt.BSQ_CYC_IDLE n, Cnt.BSQ_CYC_FULL n, Cnt.BSQ_WORDS_IN n,
    Cnt.BSQ_GAPS_OVERFLOW n, Cnt.BSQ_GAPS_LOSS n, Cnt.DMC_UE]

/-- Device DRAM is as it was outside n bytes from address a. -/
def SameOutside (s t : State) (a n : Nat) : Prop := ∀ k, k < a ∨ a + n ≤ k → t.byte k = s.byte k

/-- Every other stream is as it was. -/
def OtherStreams (s t : State) (sid : Nat) : Prop := ∀ k, k ≠ sid → t.stream k = s.stream k

/-- DEC_SEQ waits for no picture and ends at once: its sequence is refused with the reason of the first check that fails, else it is in
force, and a discarded layer's does nothing; the stream sees none of it before the commit. DEC_PIC_START starts a picture, or one that is
skipped, with no row of it done, or refuses the sequence for a tool that the picture shows.
(Where the spec leaves a choice, the model's: log entries 5, 42, 128.) -/
def Obligations.DecodePicturesStart : Prop :=
  ∀ (s : State) (n now : Nat) (q : QTask), Startable s n q → (s.stream (dSid q.desc)).dec.cur = none →
    let x := s.stream (dSid q.desc)
    (dOpcode q.desc = 0x10 → ∀ h : SeqHdr,
      ∃ t r, exec (.decSeq n h now) s = .next t ∧ Runs (s.at now) t n q r ∧ r.done = true ∧
        (h.layer ≠ 0 → r.dec = none ∧ r.lost = false) ∧
        (h.layer = 0 → ∃ ds, r.dec = some ds ∧
          (seqParses x h = false → r.lost = true ∧ ds.seq = none ∧ r.damage = some (0x0D, dRow q.desc, 0, max s.time now)) ∧
          (seqParses x h = true → seqReason x h ≠ 0 → r.lost = true ∧ r.lossCode = seqReason x h ∧ ds.seq = none ∧ r.damage = none) ∧
          (seqParses x h = true → seqReason x h = 0 → r.lost = false ∧ ds.seq = some h ∧ ds.dpb = x.dec.dpb))) ∧
    (dOpcode q.desc = 0x11 → ∀ h : PicHdr,
      ∃ t r ds p, exec (.decPicStart n h now) s = .next t ∧ (t.lth n).run = some r ∧ r.task = q ∧ r.done = true ∧ r.dec = some ds ∧
        ds.cur = some p ∧ p.seq = dPicSeq q.desc ∧ p.rowsDone = [] ∧
        (x.dec.seq = none → p.skip = true) ∧
        (p.skip = true → ds.dpb = x.dec.dpb ∧ ds.needStart = x.dec.needStart) ∧
        (p.skip = false → ds.needStart = 0 ∧ (h.newSeq = true → ds.dpb = []) ∧ p.surf.addr = dDst q.desc ∧
          p.refs.length = h.refs.length ∧ ∀ v ∈ ds.dpb, v ∈ x.dec.dpb ∧ v.id ∈ h.keep) ∧
        (x.showsTool h = true → r.lost = true ∧ r.lossCode = 7 ∧ ds.seq = none) ∧ (x.showsTool h = false → r.lost = false ∧ ds.seq = x.dec.seq) ∧
        (∀ k, t.prog k = if k / 4096 = dSid q.desc ∧ k / 512 % 8 = 0 then 0 else s.prog k) ∧
        (∀ row col, row < 512 → col < 512 → (t.blk (dSid q.desc) row col).st = 0) ∧
        (t.stream (dSid q.desc)).dec = x.dec ∧ OtherStreams s t (dSid q.desc) ∧ Popped (s.at now) t n q 3 ∧
        OnlyRegs (runBase { s.at now with progress := t.progress, streams := t.streams, blks := t.blks } t) t (traceF n) (runC n))

/-- What a picture's tasks write of device DRAM: its surface, and the grain-free one beside it. -/
def SameBeside (s t : State) (cur : DecPic) : Prop :=
  ∀ k, (k < cur.surf.addr ∨ cur.surf.addr + surfBytes cur.surf ≤ k) → (k < cur.refSurf.addr ∨ cur.refSurf.addr + surfBytes cur.refSurf ≤ k) →
    t.byte k = s.byte k

/-- A row task of decode starts on the picture that its stream decodes, in the mode of that picture. A row of a skipped picture ends at
once. Else it ends once every block that the row has come of has completed, concealed or not, and waits before the first whose row above,
whose parse or whose words are still to come; DEC_CONCEAL_ROW conceals every block that was not decoded before, and DEC_RECON_ROW none of
a row that the parse found whole. Samples go to the picture's surfaces alone. (Where the spec leaves a choice, the model's: log entries
5, 33, 43, 44, 127.) -/
def Obligations.DecodeRowsRun : Prop :=
  ∀ (s : State) (n now : Nat) (q : QTask) (cur : DecPic) (h : SeqHdr) (blocks : List BlockIn) (c : Instr), Startable s n q →
    let d := q.desc
    let x := s.stream (dSid d)
    let N := (cur.surf.w + h.block - 1) / atLeast1 h.block
    let M := if dOpcode d = 0x15 then N else min N blocks.length
    let key := rowKey (dSid d) 0 (dRow d)
    x.dec.cur = some cur → x.dec.seq = some h → s.rowReady d = true → 0 < N →
    (∀ b ∈ blocks, ∀ p ∈ b.px ++ b.grain, p.plane < planesOf cur.surf.format ∧ p.plane < planesOf cur.refSurf.format) →
    (c = .decRow n blocks now ∧ dOpcode d = 0x12) ∨ (c = .decReconRow n blocks now ∧ dOpcode d = 0x14) ∨
      (c = .decConcealRow n blocks now ∧ dOpcode d = 0x15) →
    ∃ t r, exec c s = .next t ∧ (t.lth n).run = some r ∧ r.task = q ∧ r.start = max s.time now ∧
      (cur.skip = true → r.done = true ∧ t.dram = s.dram ∧ t.progress = s.progress) ∧
      (cur.skip = false → r.done = true → t.prog key = N ∧ r.blocks = r.pos ∧ r.pos ≤ N ∧ (dOpcode d ≠ 0x14 → r.pos = M) ∧
        r.status = if 0 < r.concealed then 0x0A else 0) ∧
      (cur.skip = false → r.done = false → (r.waiting ≠ [] ∨ r.dropping = true) ∧ r.pos + r.waiting.length = M ∧
        (0 < r.pos → t.prog key = r.pos)) ∧
      (cur.skip = false → dOpcode d = 0x15 ∨ (dOpcode d = 0x14 ∧ cur.parsed = true) → dLag d = 0xFF ∨ dRow d = 0 → r.done = true) ∧
      (cur.skip = false → dOpcode d = 0x15 → r.concealed ≤ r.pos ∧ (tget false cur.rowsDone (dRow d) = false → r.concealed = r.pos)) ∧
      (cur.skip = false → dOpcode d = 0x14 → (∀ k < N, tget 0 cur.syn (dRow d * 512 + k) = 1) → r.concealed = 0) ∧
      (∀ k, k ≠ key → t.prog k = s.prog k) ∧ SameBeside s t cur ∧
      Popped ((s.at now).setBsq n (t.bsq n)) t n q (if r.dep then 2 else 3) ∧
      Frame (runBase { s.at now with dram := t.dram, progress := t.progress, blks := t.blks } t) t (rowF n) (rowC n)

/-- DEC_PARSE marks lost blocks in the picture's syntax buffers and stores no sample; it ends when no block waits for words and no item is
still to be dropped. (Where the spec leaves a choice, the model's: log entries 5, 33, 129.) -/
def parsesAhead : Prop :=
  ∀ (s : State) (n now : Nat) (q : QTask) (cur : DecPic) (h : SeqHdr) (blocks : List BlockIn), Startable s n q →
    dOpcode q.desc = 0x13 → (s.stream (dSid q.desc)).dec.cur = some cur → (s.stream (dSid q.desc)).dec.seq = some h →
    s.rowReady q.desc = true →
    ∃ t r p, exec (.decParse n blocks now) s = .next t ∧ (t.lth n).run = some r ∧ r.task = q ∧
      (cur.skip = true → r.done = true ∧ p = cur) ∧
      (cur.skip = false → (r.done = true ↔ r.waiting = [] ∧ r.dropping = false) ∧ p.parsed = r.done ∧
        r.pos + r.waiting.length = blocks.length) ∧
      (blocks = [] → r.done = true) ∧
      (t.stream (dSid q.desc)).dec.cur = some p ∧ p = { cur with syn := p.syn, parsed := p.parsed } ∧
      { t.stream (dSid q.desc) with dec := { (t.stream (dSid q.desc)).dec with cur := some cur } } = s.stream (dSid q.desc) ∧
      OtherStreams s t (dSid q.desc) ∧ Popped ((s.at now).setBsq n (t.bsq n)) t n q 3 ∧ t.dram = s.dram ∧
      Frame (runBase { s.at now with streams := t.streams } t) t (rowF n) (rowC n)

/-- The blocks of a picture that no slice has covered: those of R block rows of N. -/
def uncovered (s : State) (sid R N : Nat) : List (Nat × Nat) :=
  ((upTo 0 R).map (fun r => (upTo 0 N).map (fun c => (r, c)))).flatten.filter (fun p => (s.blk sid p.1 p.2).st = 0)

/-- DEC_PIC_END waits until no row of its picture is left, and ends at once: of a skipped picture nothing is kept; else the blocks that no
slice covered are concealed, and the picture enters the decoded picture buffer with its taint.
(Where the spec leaves a choice, the model's: log entries 5, 43, 130, 137.) -/
def decodePicturesEnd : Prop :=
  ∀ (s : State) (n now : Nat) (q : QTask) (cur : DecPic) (h : SeqHdr) (e : PicEndIn), Startable s n q →
    let x := s.stream (dSid q.desc)
    let N := (cur.surf.w + h.block - 1) / atLeast1 h.block
    let rows := (cur.surf.h + h.block - 1) / atLeast1 h.block
    let hashFail : Bool := x.hashCheck && e.hashPresent && !e.hashOk
    dOpcode q.desc = 0x16 → x.dec.cur = some cur → x.dec.seq = some h → s.picEndReady q.desc = true → rows ≤ 512 → N ≤ 512 →
    ∃ t r, exec (.decPicEnd n e now) s = .next t ∧ (t.lth n).run = some r ∧ r.task = q ∧ r.done = true ∧
      (cur.skip = true → r.dec = none ∧ t.dram = s.dram) ∧
      (cur.skip = false →
        r.concealed = (uncovered s (dSid q.desc) rows N).length ∧
        (∃ ds pic, r.dec = some ds ∧ ds.cur = none ∧ ds.dpb = x.dec.dpb ++ [pic] ∧ pic.surf = cur.surf ∧ pic.refSurf = cur.refSurf ∧
          pic.id = cur.id ∧ pic.taint = r.taint ∧ (cur.shown = true → ds.prev = some pic)) ∧
        r.status = (if r.taint then 0x0A else 0) ∧
        (r.taint = true ↔ 0 < cur.concealed + r.concealed ∨ hashFail = true ∨ (cur.taint = true ∧ cur.clears = false))) ∧
      (uncovered s (dSid q.desc) rows N = [] → t.dram = s.dram) ∧
      t.cnt (Cnt.DMC_ACCT (dSid q.desc)) = (s.cnt (Cnt.DMC_ACCT (dSid q.desc)) + e.moved) % 2 ^ 64 ∧
      SameBeside s t cur ∧ Popped (s.at now) t n q 3 ∧
      Frame (runBase { s.at now with dram := t.dram, blks := t.blks } t) t (rowF n) (Cnt.DMC_ACCT (dSid q.desc) :: rowC n)

/-- ENC_PIC_START of a decided picture starts it: its kind, an I picture with no reference where it is a refresh point in the intra form.
ANA_ROW stores a record for each 8x8 block of its row, with zero vectors in a REPEAT. Both end at once, and the stream sees neither
before the commit. (Where the spec leaves a choice, the model's: log entries 5, 131, 132.) -/
def encodePicturesStart : Prop :=
  ∀ (s : State) (n now : Nat) (q : QTask), Startable s n q →
    let d := q.desc
    let x := s.stream (dSid d)
    (∀ z, dOpcode d = 0x30 → x.startable (dRend d) (dPicSeq d) = some z →
      ∃ t r p, exec (.encPicStart n now) s = .next t ∧ (t.lth n).run = some r ∧ r.task = q ∧ r.done = true ∧ r.enc = some p ∧
        p.c = z.c ∧ p.kind = z.kind ∧ p.input = z.input ∧ (p.intra = true → p.type = 0 ∧ p.refs = [] ∧ p.roll = none) ∧ p.rowsDone = [] ∧
        p.bits = [] ∧ (p.intra = true ↔ z.intra = true ∨ p.cause = some 5) ∧
        (p.cause = if (x.rendition (dRend d)).total = 0 ∧ z.c ≠ 0 then some 5 else z.cause) ∧
        (∀ k, t.prog k = if k / 4096 = dSid d ∧ (k / 512 % 8 = dRend d ∨ (dRend d = 0 ∧ k / 512 % 8 = 4)) then 0 else s.prog k) ∧
        Popped (s.at now) t n q 3 ∧ OnlyRegs (runBase { s.at now with progress := t.progress } t) t (traceF n) (runC n)) ∧
    (∀ (recs : List AnaIn) (pic : EncPic), dOpcode d = 0x31 → (x.rendition 0).cur = some pic → pic.c % 65536 = dPicSeq d →
      ∃ t r e, exec (.anaRow n recs now) s = .next t ∧ Runs (s.at now) t n q r ∧ r.done = true ∧ r.encSt = some e ∧
        (tget [] e.ana (anaKey pic.c (dRow d))).length = (s.geo x 0).recCount (dRow d) ∧
        (pic.kind = 1 ∨ pic.c = 0 → ∀ a ∈ tget [] e.ana (anaKey pic.c (dRow d)), a.mv = (0, 0) ∧ a.mv2 = (0, 0)))

/-- What an ENC_ROW run has coded: its reconstruction is in device DRAM, its record waits for the commit, and its blocks leave in order: it is
done with the last. With no row above to wait for and room for its words, it is done at once. -/
def RowCoded (s t : State) (n now : Nat) (k : EncCtx) (e : EncRowIn) (r : Run) : Prop :=
  let d := r.task.desc
  let key := rowKey (dSid d) (dRend d) (dRow d)
  r.encIn = none ∧
  (∃ o, t.dram = ((s.at now).putRecon k (dDst d) o e.recon).dram ∧ r.enc = some (k.rowResult (dRow d) (dDst d) e o) ∧
    r.statics = k.staticBlocks o ∧ r.status = if o.conceal then 0x0A else 0) ∧
  (r.done = true ↔ r.out = []) ∧ r.pos + r.out.length = k.g.blocks ∧ r.blocks = r.pos ∧ (0 < r.pos → t.prog key = r.pos) ∧
  (dLag d = 0xFF ∨ dRow d = 0 →
    (∀ o, r.enc = some o → (s.bsq n).words.length + ((tget [] o.bytes (dRow d)).length + 7) / 8 ≤ 16383) → r.done = true)

/-- ENC_ROW codes its row, writes the reconstruction to DST_ADDR and lets its blocks leave once the analysis and the rows that it needs have
committed; else it waits, in STATE WAIT_DEP for the analysis. (Where the spec leaves a choice, the model's: log entries 5, 33, 49, 133.) -/
def Obligations.EncodeRowsRun : Prop :=
  ∀ (s : State) (n now : Nat) (q : QTask) (pic : EncPic) (e : EncRowIn), Startable s n q →
    let d := q.desc
    let x := s.stream (dSid d)
    let k := (s.at now).encCtx x (dRend d) pic
    let ready : Bool := s.anaReady k (dSid d) (dRow d) && k.delayMet (dRow d)
    dOpcode d = 0x32 → (x.rendition (dRend d)).cur = some pic → pic.c % 65536 = dPicSeq d →
    ∃ t r, exec (.encRow n e now) s = .next t ∧ (t.lth n).run = some r ∧ r.task = q ∧
      (ready = false → r.done = false ∧ r.encIn = some e ∧ t.dram = s.dram ∧ t.progress = s.progress ∧ t.streams = s.streams ∧
        r.dep = !s.anaReady k (dSid d) (dRow d)) ∧
      (ready = true → RowCoded s t n now k e r) ∧
      (∀ j, j ≠ rowKey (dSid d) (dRend d) (dRow d) → t.prog j = s.prog j) ∧ OtherStreams s t (dSid d) ∧
      ((∀ p ∈ e.recon, p.plane < planesOf k.y.chroma) → SameOutside s t (dDst d) (surfBytes (k.surfAt (dDst d)))) ∧
      Popped ((s.at now).setBsq n (t.bsq n)) t n q (if r.dep then 2 else 3) ∧
      Frame (runBase { s.at now with dram := t.dram, progress := t.progress, streams := t.streams } t) t (rowF n) (rowC n)

/-- ENC_PIC_END of a picture whose rows have all committed ends at once, and the traffic of its tasks counts in its stream's tag.
(Where the spec leaves a choice, the model's: log entries 5, 137.) -/
def encodePicturesEnd : Prop :=
  ∀ (s : State) (n moved now : Nat) (q : QTask) (pic : EncPic), Startable s n q →
    let d := q.desc
    let x := s.stream (dSid d)
    dOpcode d = 0x33 → (x.rendition (dRend d)).cur = some pic → pic.c % 65536 = dPicSeq d →
    (∀ i < s.rendRows x (dRend d), tget false pic.rowsDone i = true) →
    ∃ t r, exec (.encPicEnd n moved now) s = .next t ∧ Runs ((s.at now).tasksMoved d moved) t n q r ∧ r.done = true ∧
      r.status = (if pic.conceal then 0x0A else 0)

/-- A waiting row goes on when what it waits for has come: the blocks left of a row whose row above is complete, and an ENC_ROW whose
analysis and rows before have committed. (Where the spec leaves a choice, the model's: log entry 33.) -/
def waitingRowsGoOn : Prop :=
  ∀ (s : State) (n now : Nat) (r : Run), (s.lth n).run = some r → r.done = false → r.exhausted = false →
    let d := r.task.desc
    let x := s.stream (dSid d)
    (∀ (cur : DecPic) (h : SeqHdr), let N := (cur.surf.w + h.block - 1) / atLeast1 h.block
      dOpcode d = 0x15 ∨ (dOpcode d = 0x14 ∧ ∀ k < N, tget 0 cur.syn (dRow d * 512 + k) ≠ 0) → r.waiting ≠ [] → r.dropping = false →
      x.dec.cur = some cur → x.dec.seq = some h →
      cur.skip = false → r.pos + r.waiting.length = N → 0 < dRow d → N ≤ s.prog (rowKey (dSid d) 0 (dRow d - 1)) →
      ∃ t r', exec (.blockDepRelease n now) s = .next t ∧ (t.lth n).run = some r' ∧ r'.done = true ∧ r'.pos = N ∧
        t.prog (rowKey (dSid d) 0 (dRow d)) = N ∧ (∀ m, m ≠ n → t.lth m = s.lth m) ∧
        Frame (runBase { s.at now with dram := t.dram, progress := t.progress, blks := t.blks } t) t (rowF n) (rowC n)) ∧
    (∀ (pic : EncPic) (e : EncRowIn), let k := (s.at now).encCtx x (dRend d) pic
      dOpcode d = 0x32 → r.encIn = some e → r.pos = 0 → r.blocks = 0 → (x.rendition (dRend d)).cur = some pic →
      s.anaReady k (dSid d) (dRow d) = true → k.delayMet (dRow d) = true →
      ∃ t r', exec (.encRowWaitRelease n now) s = .next t ∧ (t.lth n).run = some r' ∧ r'.task = r.task ∧ RowCoded s t n now k e r' ∧
        (∀ m, m ≠ n → t.lth m = s.lth m) ∧
        Frame (runBase { s.at now with dram := t.dram, progress := t.progress, streams := t.streams } t) t (rowF n) (rowC n))

/-- Decode tasks beside the rows: parsing ahead, and the end of a picture. -/
def Obligations.DecodeParsesAheadAndEnds : Prop := parsesAhead ∧ decodePicturesEnd

/-- Encode tasks beside the rows: a picture's start and end, and its analysis. -/
def Obligations.EncodePicturesStartAndEnd : Prop := encodePicturesStart ∧ encodePicturesEnd

/-! ## Commits, reruns and the ladder -/

/-- Nothing but registers, counters, what events and faults reach, and the parts that `u` takes over from t differs. -/
def Touches (b t : State) (u : State → State) : Prop := t.body = (u b).body

/-- The fields and counters that a task's commit writes. -/
def commitF (n : Nat) : List Fld :=
  traceF n ++ [Reg.LTH_DEC_ERR0_CODE n, Reg.LTH_DEC_ERR0_SID n, Reg.LTH_DEC_ERR0_ROW n, Reg.LTH_DEC_ERR1_PIC_SEQ n,
    Reg.LTH_DEC_ERR1_BLOCK n, Reg.LTH_FAULT_VERSION n, Reg.FLT_LT_LADDER_RUNG n]

/-- The counters. -/
def commitC (n : Nat) : List Nat :=
  [Cnt.CNT_TASKS n, Cnt.CNT_BLOCKS n, Cnt.CNT_STATIC n, Cnt.CYC_BUSY n, Cnt.CYC_DRAM_STALL n, Cnt.CYC_WAIT_DEP n, Cnt.BYTES_OUT n,
    Cnt.BYTES_IN n, Cnt.SPN_STEPS n]

/-- Lathe n's task r has committed: the Lathe runs nothing, its result words and its task count are written, the task's entry is free
and no other entry or Lathe differs. -/
structure Committed (b t : State) (n : Nat) (r : Run) (cycles bytes : Nat) : Prop where
  idle : (t.lth n).run = none ∧ (t.lth n).queue = (b.lth n).queue
  result : (t.lth n).lastRes = resultWords r.status r.reruns (dTag r.task.desc) cycles bytes r.statics r.concealed false
  counted : b.on (freezeOf (Cnt.CNT_TASKS n)) = false → t.cnt (Cnt.CNT_TASKS n) = (b.cnt (Cnt.CNT_TASKS n) + 1) % 2 ^ 64
  freed : t.lent r.task.entry = none
  others : (∀ k, k ≠ r.task.entry → t.lent k = b.lent k) ∧ ∀ m, m ≠ n → t.lth m = b.lth m

/-- TASK_COMMIT of a run whose routine has ended commits it once: a task without stream records changes nothing else; a decode row
enters its picture, DEC_PIC_START's and DEC_SEQ's outcomes reach their stream, and ENC_PIC_START's picture becomes its rendition's. (No
ready picture waits for a Lathe; where one does, the Lathe goes to it.) (Where the spec leaves a choice, the model's: log entry 32.) -/
def Obligations.TasksCommitOnce : Prop :=
  ∀ (s : State) (n now : Nat) (r : Run) (c : CommitIn), (s.lth n).run = some r → r.done = true → r.exhausted = false → r.commit = none →
    s.shp.ready = [] →
    let d := r.task.desc
    let op := dOpcode d
    let x := s.stream (dSid d)
    (op < 0x10 ∨ 0x60 ≤ op ∨ (op = 0x10 ∧ r.dec = none) →
      ∃ t, exec (.taskCommit n c now) s = .next t ∧ Committed (s.at now) t n r c.cycles c.bytes ∧
        Frame (runBase (s.at now) t) t (commitF n) (commitC n)) ∧
    (op = 0x12 ∨ op = 0x14 ∨ op = 0x15 → ∀ cur, x.dec.cur = some cur →
      ∃ t, exec (.taskCommit n c now) s = .next t ∧ Committed (s.at now) t n r c.cycles c.bytes ∧
        t.stream (dSid d) = { x with dec := { x.dec with cur := some (cur.take r true (max s.time now)) } } ∧ OtherStreams s t (dSid d) ∧
        tget false (cur.take r true (max s.time now)).rowsDone (dRow d) = true ∧
        Frame (runBase { s.at now with streams := t.streams } t) t (commitF n) (commitC n)) ∧
    (∀ ds, op = 0x11 → r.dec = some ds →
      ∃ t, exec (.taskCommit n c now) s = .next t ∧ Committed (s.at now) t n r c.cycles c.bytes ∧
        OtherStreams s t (dSid d) ∧ (t.stream (dSid d)).dec = ds ∧
        (r.lost = true → (t.stream (dSid d)).state = 5 ∧ (t.bsq n).flushPending = true ∧
          Touches (s.at now) t
            (fun b => { b with lathes := t.lathes, ldg := t.ldg, freeCtr := t.freeCtr, streams := t.streams, dram := t.dram })) ∧
        (r.lost = false → t.stream (dSid d) = { x with dec := ds, state := if x.state = 5 then 5 else 2 } ∧
          Frame (runBase { s.at now with streams := t.streams } t) t (commitF n) (commitC n))) ∧
    (∀ ds, op = 0x10 → r.dec = some ds →
      ∃ t, exec (.taskCommit n c now) s = .next t ∧ Committed (s.at now) t n r c.cycles c.bytes ∧
        (t.stream (dSid d)).dec.seq = ds.seq ∧ (r.lost = true → (t.stream (dSid d)).state = 5) ∧
        (r.lost = false → (t.stream (dSid d)).state = if x.state = 5 then 1 else x.state) ∧ OtherStreams s t (dSid d) ∧
        Touches (s.at now) t
          (fun b => { b with lathes := t.lathes, ldg := t.ldg, freeCtr := t.freeCtr, streams := t.streams, dram := t.dram })) ∧
    (∀ p, op = 0x30 → r.enc = some p →
      ∃ t, exec (.taskCommit n c now) s = .next t ∧ Committed (s.at now) t n r c.cycles 0 ∧
        ((t.stream (dSid d)).rendition (dRend d)).cur.map (fun y => (y.c, y.kind, y.rq, y.target)) = some (p.c, p.kind, p.rq, p.target) ∧
        (t.stream (dSid d)).state = 2 ∧ OtherStreams s t (dSid d) ∧
        Frame (runBase { s.at now with streams := t.streams, dram := t.dram } t) t (commitF n) (commitC n))

/-- The commits that close a row or a picture: ANA_ROW completes its row of the progress table; ENC_ROW that ends no slice enters its
picture; ENC_PIC_END ends the rendition's picture, and DEC_PIC_END the stream's; a row that ends a slice commits with its slice's buffer or
waits for one in STATE COMMITTING. A coded row commits after those that must commit before it. (No ready picture waits for a Lathe.)
(Where the spec leaves a choice, the model's: log entries 40, 41, 46, 50, 132.) -/
def Obligations.RowsAndPicturesCommit : Prop :=
  ∀ (s : State) (n now : Nat) (r : Run) (c : CommitIn), (s.lth n).run = some r → r.done = true → r.exhausted = false → r.commit = none →
    s.shp.ready = [] → (s.at now).rowCommits r = true →
    let d := r.task.desc
    let x := s.stream (dSid d)
    let y := x.rendition (dRend d)
    (∀ e p, dOpcode d = 0x31 → r.encSt = some e → (x.rendition 0).cur = some p →
      ∃ t, exec (.taskCommit n c now) s = .next t ∧ Committed (s.at now) t n r c.cycles 0 ∧
        t.prog (rowKey (dSid d) 4 (dRow d)) = atLeast1 (s.geo x 0).blocks ∧
        tget [] (t.stream (dSid d)).enc.ana (anaKey p.c (dRow d)) = tget [] e.ana (anaKey p.c (dRow d)) ∧
        OtherStreams s t (dSid d) ∧
        Frame (runBase { s.at now with streams := t.streams, progress := t.progress } t) t (commitF n) (commitC n)) ∧
    (∀ o p, dOpcode d = 0x32 → dSliceLast d = false → r.enc = some o → y.cur = some p →
      ∃ t p', exec (.taskCommit n c now) s = .next t ∧ Committed (s.at now) t n r c.cycles (tget [] o.bytes (dRow d)).length ∧
        ((t.stream (dSid d)).rendition (dRend d)).cur = some p' ∧ tget false p'.rowsDone (dRow d) = true ∧
        tget [] p'.bytes (dRow d) = tget [] o.bytes (dRow d) ∧ p'.conceal = (p.conceal || o.conceal) ∧
        OtherStreams s t (dSid d) ∧
        Frame (runBase { s.at now with streams := t.streams, dram := t.dram } t) t (commitF n) (commitC n)) ∧
    (dOpcode d = 0x32 → dSliceLast d = true →
      ∃ t, exec (.taskCommit n c now) s = .next t ∧
        (((t.lth n).run = none ∧ t.lent r.task.entry = none) ∨
          ((t.lth n).run = some { r with commit := some c } ∧
            ∀ e, s.lent r.task.entry = some e → t.lent r.task.entry = some { e with state := 5 })) ∧
        (s.on Reg.COP_STATUS_READY = false → 0 < ((s.at now).sliceBytes r c.hdr).length →
          ((s.at now).sliceBytes r c.hdr).length ≤ 8388608 → (t.lth n).run = some { r with commit := some c }) ∧
        (∀ m, m ≠ n → t.lth m = s.lth m)) ∧
    (∀ p, dOpcode d = 0x33 → y.cur = some p → x.closeBy = none →
      ∃ t, exec (.taskCommit n c now) s = .next t ∧ Committed (s.at now) t n r c.cycles 0 ∧
        ((t.stream (dSid d)).rendition (dRend d)).cur = none ∧ ((t.stream (dSid d)).rendition (dRend d)).total = y.total + 1 ∧
        ((t.stream (dSid d)).rendition (dRend d)).refs = (p.asRef :: y.refs).take 16 ∧ OtherStreams s t (dSid d)) ∧
    (∀ ds, dOpcode d = 0x16 → r.dec = some ds → x.closeBy = none →
      ∃ t, exec (.taskCommit n c now) s = .next t ∧ Committed (s.at now) t n r c.cycles c.bytes ∧
        (t.stream (dSid d)).dec = ds ∧ (t.stream (dSid d)).state = 1 ∧ OtherStreams s t (dSid d)) ∧
    (dOpcode d = 0x16 → r.dec = none → x.closeBy = none →
      ∃ t, exec (.taskCommit n c now) s = .next t ∧ Committed (s.at now) t n r c.cycles c.bytes ∧
        (t.stream (dSid d)).dec.cur = none ∧ (t.stream (dSid d)).dec.dpb = x.dec.dpb ∧ OtherStreams s t (dSid d))

/-- A pulse that a WAIT_EVENT task names commits it, and no run that does not wait for it; a pulse that the block emits itself ends the wait at
the task's commit. (No ready picture waits for a Lathe.) -/
def eventPulsesCommit : Prop :=
  (∀ (s : State) (n now : Nat) (r : Run) (c : CommitIn), (s.lth n).run = some r → r.exhausted = false → r.commit = none → s.shp.ready = [] →
    s.eventCame r = true →
    ∃ t, exec (.taskCommit n c now) s = .next t ∧ (t.lth n).run = none ∧ t.lent r.task.entry = none ∧ (∀ m, m ≠ n → t.lth m = s.lth m)) ∧
  ∀ (s : State) (x now : Nat), s.shp.ready = [] →
    ∃ t, exec (.waitEventPulse x now) s = .next t ∧
      (∀ n r, s.hasLathe n = true → (s.lth n).run = some r → r.awaits x = true →
        (t.lth n).run = none ∧ t.lent r.task.entry = none ∧
        nth 0 (t.lth n).lastRes 0 = r.status % 256 + min r.reruns 127 * 2 ^ 9 + dTag r.task.desc * 2 ^ 16) ∧
      (∀ n, (∀ r, (s.lth n).run = some r → r.awaits x = false) → t.lth n = s.lth n) ∧
      Touches (s.at now) t (fun b => { b with lathes := t.lathes, ldg := t.ldg, freeCtr := t.freeCtr, streams := t.streams })

/-- A step that stops for a live cause starts again from its entry: RD returns to MARK, in encode WR to where the routine entered, the ledger entry
reads RERUN, the causes and the
rerun count; at the limit, or at a location uncorrectable twice in the task, rung 1 is spent instead. An abandon of the same cycle wins.
(Where the spec leaves a choice, the model's: log entry 39.) -/
def Obligations.StepsRerun : Prop :=
  ∀ (s : State) (n loc pc now : Nat) (r : Run) (l : List RerunCause) (c : RerunCause), s.hasLathe n = true → (s.lth n).run = some r →
    topCause (s.liveCauses n pc l) = some c → r.exhausted = false →
    (exec (.stepRerun n l loc pc true now) s = .next (s.at now)) ∧
    (∃ t, exec (.stepRerun n l loc pc false now) s = .next t ∧
      t.fld (Reg.SPN_LAST_RERUN_CAUSE n) = causeCode c ∧ t.fld (Reg.SPN_LAST_RERUN_OPCODE n) = dOpcode r.task.desc ∧
      t.fld (Reg.SPN_LAST_RERUN_PC n) = pc % 4096 ∧
      (l.contains .csUncorr = true → t.fld (Reg.SPN_FAULT_CS_UNCORR n) = 1) ∧
      (l.contains .pipeParity = true → t.fld (Reg.LTH_FAULT_PIPE_PARITY n) = 1) ∧
      (r.stepReruns < atLeast1 (s.fld (Reg.SPN_RERUN_LIMIT_LIMIT n)) → ¬ (l.contains .csUncorr = true ∧ r.uncorr.contains loc = true) →
        (∃ out, (t.lth n).run = some { r with out := out, reruns := r.reruns + 1, stepReruns := r.stepReruns + 1,
                                              uncorr := if c = .csUncorr then loc :: r.uncorr else r.uncorr } ∧
          (encOpcode (dOpcode r.task.desc) = false → out = r.out ∧ (t.lth n).bsq = { (s.lth n).bsq with rd := 0 }) ∧
          (encOpcode (dOpcode r.task.desc) = true →
            (∀ ws rest, r.out = ws :: rest → out = ((s.bsq n).words.drop r.entered ++ ws) :: rest) ∧
            (t.lth n).bsq = { (s.lth n).bsq with words := (s.bsq n).words.take r.entered } ∧
            t.cnt (Cnt.BSQ_REWINDS n) = s.cnt (Cnt.BSQ_REWINDS n))) ∧ 1 ≤ t.fld (Reg.FLT_LT_LADDER_RUNG n) ∧
        (∀ e, s.lent r.task.entry = some e → t.lent r.task.entry = some { e with state := 4 })) ∧
      (atLeast1 (s.fld (Reg.SPN_RERUN_LIMIT_LIMIT n)) ≤ r.stepReruns ∨ (l.contains .csUncorr = true ∧ r.uncorr.contains loc = true) →
        (t.lth n).run = some { r with exhausted := true } ∧ t.fld (Reg.SPN_FAULT_RERUN_EXHAUSTED n) = 1 ∧
        (t.lth n).bsq = (s.lth n).bsq) ∧
      (∀ m, m ≠ n → t.lth m = s.lth m) ∧ (∀ k, k ≠ r.task.entry → t.lent k = s.lent k) ∧
      Frame { runBase (s.at now) t with restore := t.restore } t
        (traceF n ++ [Reg.SPN_TRACE_CTRL_EN n, Reg.SPN_LAST_RERUN_CAUSE n, Reg.SPN_LAST_RERUN_OPCODE n, Reg.SPN_LAST_RERUN_PC n,
          Reg.SPN_ERR_ADDR_ADDR n, Reg.SPN_ERR_ADDR_UNCORR n, Reg.SPN_FAULT_CS_UNCORR n, Reg.SPN_FAULT_CS_HARD n,
          Reg.SPN_FAULT_RERUN_EXHAUSTED n, Reg.LTH_FAULT_PIPE_PARITY n, Reg.FLT_LT_LADDER_RUNG n, Reg.FLT_INJECT_CTRL_ARM])
        [Cnt.SPN_CS_UNCORRECTED n, causeCnt n c, Cnt.CNT_RERUN n, Cnt.BSQ_REWINDS n])

/-- A task past its limit sets TASK_TIMEOUT and runs on; a task that the Shepherd may abandon leaves its Lathe with ABANDONED in its
result and is queued again with its entry; a rung 3 that lasts too long is spent, and its Lathe retires where a sticky source says so.
(Where the spec leaves a choice, the model's: log entries 27, 28, 30, 115.) -/
def Obligations.LadderActsOnLathes : Prop :=
  (∀ (s : State) (n cycles now : Nat) (r : Run), (s.lth n).run = some r → r.commit = none → r.timedOut = false →
    atLeast1 (s.fld (Reg.LTH_TASK_LIMIT_LIMIT_KCYC n)) * 1024 < cycles →
    ∃ t, exec (.taskTimeout n cycles now) s = .next t ∧ (t.lth n).run = some { r with timedOut := true } ∧
      t.fld (Reg.LTH_FAULT_TASK_TIMEOUT n) = 1 ∧ (∀ m, m ≠ n → t.lth m = s.lth m) ∧
      Frame { s.at now with lathes := t.lathes } t [Reg.LTH_FAULT_TASK_TIMEOUT n] []) ∧
  (∀ (s : State) (n cycles now : Nat) (r : Run), (s.lth n).run = some r → r.canAbandon = true → s.shp.ready = [] →
    ∃ t, exec (.taskAbandon n cycles now) s = .next t ∧ (t.lth n).run = none ∧ nbits (nth 0 (t.lth n).lastRes 0) 8 1 = 1 ∧
      nth 0 (t.lth n).lastRes 1 = min cycles (2 ^ 32 - 1) ∧
      (∃ m, nextAttempt n r.task ∈ (t.lth m).queue ++ (t.lth m).retry) ∧
      ((s.lent r.task.entry).isSome = true → (t.lent r.task.entry).isSome = true) ∧
      Touches (s.at now) t
        (fun b => { b with lathes := t.lathes, ldg := t.ldg, freeCtr := t.freeCtr, streams := t.streams, wakes := t.wakes,
                           dram := t.dram })) ∧
  (∀ (s : State) (n now t0 : Nat), s.hasLathe n = true → (s.lth n).ladderSince = some t0 →
    t0 + atLeast1 (s.fld Reg.FLT_LADDER_CFG_MIGRATE_MS) * 1000 ≤ max s.time now →
    ∃ t, exec (.migrateTimeout n now) s = .next t ∧ (t.lth n).ladderSince = none ∧ t.fld (Reg.FLT_LT_LADDER_RUNG n) = 4 ∧
      t.fld (Reg.LTH_CTRL_DRAIN n) = 1 ∧ (s.mayRetire n = true → t.role n = 3) ∧
      (s.mayRetire n = false → t.fld (Reg.FLT_LT_LADDER_RETIRE_BLOCKED n) = 1 ∧ t.role n = 2) ∧
      Touches (s.at now) t (fun b => { b with lathes := t.lathes, ldg := t.ldg, streams := t.streams, wakes := t.wakes })) ∧
  (∀ (s : State) (n : Nat), s.hasLathe n = true → s.pd (12 + n) = 0 →
    ∃ t, exec (.latheDrain n) s = .next t ∧ t.fld (Reg.LTH_CTRL_DRAIN n) = 1 ∧ OnlyRegs s t [Reg.LTH_CTRL_DRAIN n] [])

/-! ## The bitstream queue -/

/-- A word offered to a queue with room is stored, as a LOSS GAP where the depacketiser lost packets and as POISON where its range is poisoned;
at a full queue the feeder holds it; in the discarding state a word that starts no item is dropped, and one that a flush covers is flushed. A
pop of the same cycle does not see it. The word held for the stall limit gives way to an OVERFLOW GAP. A flush
waits while a routine holds words, then empties the queue and counts what it discards.
(Where the spec leaves a choice, the model's: log entry 32.) -/
def Obligations.BitstreamQueueTakesWords : Prop :=
  ∀ (s : State) (n : Nat), s.hasLathe n = true → (s.lth n).run = none →
    let q := s.bsq n
    (∀ (w : BsqWord) (src : Nat) (loss : Option Nat), q.held = none → s.flt.inject = none →
      let v := s.feederWord n w src loss
      let free : Prop := q.flushed = false ∧ (q.discarding = false ∨ v.start = true)
      (loss = none → s.rangePoison src 8 = true → v.kind = 2) ∧ (loss = none → s.rangePoison src 8 = false → v = w) ∧
      (∀ k c, loss = some k → (lossesOf (tget [] s.ring.arrived 0))[k]? = some c → v = gapWord 2 c w.start w.last) ∧
      (∃ t, exec (.feederPush n ⟨w, src⟩ loss false) s = .next t ∧ (∀ m, m ≠ n → t.lth m = s.lth m) ∧
        (q.flushed = true ∨ (q.discarding = true ∧ v.start = false) → t.bsq n = q) ∧
        (free → q.occupied < 16383 →
          t.bsq n = { q with words := q.words ++ [v], discarding := false, gapWritten := q.gapWritten || isOverflow v, item := !v.last }) ∧
        (free → 16383 ≤ q.occupied → t.bsq n = { q with held := some v, stalled := true, discarding := false }) ∧
        OnlyRegs { s with lathes := t.lathes } t []
          [Cnt.BSQ_WORDS_IN n, Cnt.BSQ_WORDS_DROPPED n, Cnt.BSQ_WORDS_FLUSHED n, Cnt.BSQ_GAPS_OVERFLOW n, Cnt.BSQ_GAPS_LOSS n]) ∧
      (free → q.unread = 0 → q.occupied < 16383 → ∃ t, exec (.feederPush n ⟨w, src⟩ loss true) s = .next t ∧ (t.bsq n).words = q.words ++ [v] ∧
        (t.bsq n).rd = q.rd ∧ (s.on (freezeOf (Cnt.BSQ_CYC_IDLE n)) = false →
          t.cnt (Cnt.BSQ_CYC_IDLE n) = (s.cnt (Cnt.BSQ_CYC_IDLE n) + 1) % 2 ^ 64))) ∧
    (∀ (w : BsqWord), q.held = some w →
      ∃ t, exec (.feederStallLimit n false) s = .next t ∧ (t.bsq n).held = none ∧ (t.bsq n).stalled = false ∧
        (t.bsq n).discarding = true ∧
        (q.words.length < 16384 → (t.bsq n).words = q.words ++ [gapWord 1 0 false true]) ∧
        (16384 ≤ q.words.length → (t.bsq n).words = q.words) ∧ (∀ m, m ≠ n → t.lth m = s.lth m) ∧
        OnlyRegs { s with lathes := t.lathes } t []
          [Cnt.BSQ_WORDS_DROPPED n, Cnt.BSQ_WORDS_IN n, Cnt.BSQ_GAPS_OVERFLOW n, Cnt.BSQ_CYC_FULL n]) ∧
    (s.pd (12 + n) = 0 → ∃ t, exec (.bsqFlushRequest n) s = .next t ∧ t.bsq n = { q with flushPending := true } ∧ t.fld (Reg.LTH_BSQ_CTRL_FLUSH n) = 1 ∧
      (∀ m, m ≠ n → t.lth m = s.lth m) ∧ OnlyRegs { s with lathes := t.lathes } t [Reg.LTH_BSQ_CTRL_FLUSH n] []) ∧
    (∀ (k : Nat) (c : CycleIn), q.flushPending = true → q.rd = 0 →
      ∃ t, exec (.bsqFlush n k c) s = .next t ∧ (t.bsq n).words = [] ∧ (t.bsq n).held = none ∧ (t.bsq n).flushPending = false ∧
        t.fld (Reg.LTH_BSQ_CTRL_FLUSH n) = 0 ∧
        (s.on (freezeOf (Cnt.BSQ_WORDS_FLUSHED n)) = false → t.cnt (Cnt.BSQ_WORDS_FLUSHED n) = (s.cnt (Cnt.BSQ_WORDS_FLUSHED n) +
          (q.words.length + (if q.held.isSome then 1 else 0) + k + (if c.push then 1 else 0))) % 2 ^ 64) ∧
        (∀ m, m ≠ n → t.lth m = s.lth m) ∧
        OnlyRegs { s with lathes := t.lathes } t [Reg.LTH_BSQ_CTRL_FLUSH n]
          [Cnt.BSQ_FLUSHES n, Cnt.BSQ_WORDS_FLUSHED n, Cnt.BSQ_CYC_IDLE n])

/-! ## The Spindle -/

/-- The patrol reads one location and moves on: a correctable error is corrected and noted, an uncorrectable one noted and its location
loaded again from the master copy. (Where the spec leaves a choice, the model's: log entry 36.) -/
def patrolReads : Prop :=
  ∀ (s : State) (n outcome : Nat), s.hasLathe n = true → s.pd (12 + n) ≤ 1 →
    s.fld (Reg.SPN_STATUS_STATE n) = 3 ∨ s.fld (Reg.SPN_STATUS_STATE n) = 4 → s.flt.inject = none → outcome < 3 →
    ∃ t, exec (.csPatrol n outcome) s = .next t ∧ (t.lth n).patrol = ((s.lth n).patrol + 1) % 4608 ∧
      (outcome = 0 → { t with lathes := s.lathes } = s ∧ (t.lth n).cs = (s.lth n).cs ∧ (t.lth n).disp = (s.lth n).disp) ∧
      (outcome = 1 → t.fld (Reg.SPN_FAULT_CS_CORR n) = 1 ∧ t.fld (Reg.SPN_ERR_ADDR_ADDR n) = (s.lth n).patrol % 8192 ∧
        t.fld (Reg.SPN_ERR_ADDR_UNCORR n) = 0 ∧ (t.lth n).cs = (s.lth n).cs ∧ (t.lth n).disp = (s.lth n).disp) ∧
      (outcome = 2 → t.fld (Reg.SPN_FAULT_CS_UNCORR n) = 1 ∧ t.fld (Reg.SPN_ERR_ADDR_UNCORR n) = 1 ∧
        ((s.lth n).patrol < 4096 → tget 0 (t.lth n).cs (s.lth n).patrol =
          leNat (s.getBytes (s.mcBase n (s.fld (Reg.SPN_STATUS_LOADED_FROM n)) + 16 * (s.lth n).patrol) 16))) ∧
      (∀ m, m ≠ n → t.lth m = s.lth m) ∧
      Frame { s with lathes := t.lathes, freeCtr := t.freeCtr } t
        (traceF n ++ [Reg.SPN_ERR_ADDR_ADDR n, Reg.SPN_ERR_ADDR_UNCORR n, Reg.SPN_FAULT_CS_CORR n, Reg.SPN_FAULT_CS_UNCORR n])
        [Cnt.SPN_CS_CORRECTED n, Cnt.SPN_CS_UNCORRECTED n]

/-- A load fills the control store and the dispatch RAM from the master copy that SPN_SRC names; it begins when the domain is ON and
the Spindle empty, and on RELOAD while drained or FAILED. A load whose CRC-64 is the manifest's is READY and shows its image; a first
failure loads again; TRACE_ENABLE writes the trace control. (Where the spec leaves a choice, the model's: log entry 38.) -/
def spindleLoads : Prop :=
  ∀ (s : State) (n : Nat), s.hasLathe n = true →
    let loaded (t : State) (m k : Nat) : Prop :=
      t.fld (Reg.SPN_STATUS_STATE n) = 1 ∧ t.fld (Reg.SPN_STATUS_LOADED_FROM n) = m % 2 ∧ (t.lth n).loads = k ∧
      (∀ i < 4096, tget 0 (t.lth n).cs i = leNat (s.getBytes (s.mcBase n m + 16 * i) 16)) ∧
      (∀ i < 512, tget 0 (t.lth n).disp i = leNat (s.getBytes (s.mcBase n m + 65536 + 4 * i) 4)) ∧
      (t.lth n).queue = (s.lth n).queue ∧ (∀ j, j ≠ n → t.lth j = s.lth j)
    (s.pd (12 + n) = 0 → s.fld (Reg.SPN_STATUS_STATE n) = 0 →
      ∃ t, exec (.spindleLoad n) s = .next t ∧ loaded t (s.fld (Reg.SPN_SRC_SEL n)) 1 ∧
        OnlyRegs { s with lathes := t.lathes } t [Reg.SPN_STATUS_STATE n, Reg.SPN_STATUS_LOADED_FROM n, Reg.SPN_STATUS_RETRIED n]
          [Cnt.SPN_LOADS n, Cnt.DMC_ACCT 595]) ∧
    (∀ v : Word, s.pd (12 + n) = 0 → v.getLsbD 1 = true → s.drained n = true ∨ s.fld (Reg.SPN_STATUS_STATE n) = 5 →
      ∃ t, exec (.spnReload n v) s = .next t ∧ loaded t (s.fld (Reg.SPN_SRC_SEL n)) 1 ∧ t.fld (Reg.SPN_CTRL_RELOAD n) = 1 ∧
        (t.lth n).lastPic = none ∧ (v.getLsbD 0 = true → t.fld (Reg.SPN_CTRL_LOCK n) = 1) ∧
        (v.getLsbD 0 = false → t.fld (Reg.SPN_CTRL_LOCK n) = s.fld (Reg.SPN_CTRL_LOCK n)) ∧
        OnlyRegs { s with lathes := t.lathes, restore := t.restore } t [Reg.SPN_STATUS_STATE n, Reg.SPN_STATUS_LOADED_FROM n,
          Reg.SPN_STATUS_RETRIED n, Reg.SPN_CTRL_RELOAD n, Reg.SPN_CTRL_LOCK n] [Cnt.SPN_LOADS n, Cnt.DMC_ACCT 595]) ∧
    (∀ m, s.fld (Reg.SPN_STATUS_STATE n) = 1 → s.flt.inject = none → tget none s.manifests (s.fld (Reg.SPN_STATUS_LOADED_FROM n)) = some m →
      (m.crc = storeCrc (s.lth n).cs (s.lth n).disp →
        ∃ t, exec (.spindleLoadDone n false) s = .next t ∧ t.fld (Reg.SPN_STATUS_STATE n) = 3 ∧ t.fld (Reg.SPN_CTRL_RELOAD n) = 0 ∧
          t.fld (Reg.SPN_BUILD_BUILD n) = m.build % 2 ^ 32 ∧ t.fld (Reg.SPN_SECVER_SECVER n) = m.secver % 2 ^ (Reg.SPN_SECVER_SECVER n).w ∧
          t.fld (Reg.SPN_BASE_ID_BASE_ID n) = m.baseId % 2 ^ 32 ∧
          (∀ k < 4, t.fld (Reg.SPN_VSLOT_VERSION n k) = nth 0 m.versions k % 256 ∧
            t.fld (Reg.SPN_VSLOT_VALID n k) = if nth 0 m.versions k = 0 then 0 else 1) ∧
          ((s.lth n).loads = 2 → t.fld (Reg.SPN_FAULT_LOAD_RETRIED n) = 1) ∧ t.lathes = s.lathes ∧ Touches s t (fun b => b)) ∧
      (∀ bad, (m.crc ≠ storeCrc (s.lth n).cs (s.lth n).disp ∨ bad = true) →
        ((s.lth n).loads = 1 → ∃ t, exec (.spindleLoadDone n bad) s = .next t ∧ loaded t (s.fld (Reg.SPN_STATUS_LOADED_FROM n)) 2 ∧
          Touches s t (fun b => { b with lathes := t.lathes })) ∧
        ((s.lth n).loads = 2 → ∃ t, exec (.spindleLoadDone n bad) s = .next t ∧ t.fld (Reg.SPN_STATUS_STATE n) = 5 ∧
          t.fld (Reg.SPN_FAULT_LOAD_FAIL n) = 1 ∧
          Touches s t (fun b => { b with lathes := t.lathes, ldg := t.ldg, streams := t.streams, wakes := t.wakes, restore := t.restore })))) ∧
    (∀ v : Word, s.pd (12 + n) = 0 →
      ∃ t, exec (.traceEnable n v) s = .next t ∧ t.fld (Reg.SPN_TRACE_CTRL_EN n) = bitsOf v 0 1 ∧
        t.fld (Reg.SPN_TRACE_CTRL_FREEZE_ON_FAULT n) = bitsOf v 1 1 ∧
        (v.getLsbD 0 = true → s.on (Reg.SPN_TRACE_CTRL_EN n) = false → t.fld (Reg.SPN_TRACE_CTRL_WRAPPED n) = 0) ∧
        (s.testLife = true → t.fld (Reg.SPN_TRACE_CTRL_BREAK_EN n) = bitsOf v 11 1 ∧ t.fld (Reg.SPN_TRACE_CTRL_BREAK_PC n) = bitsOf v 12 12) ∧
        (s.testLife = false → t.fld (Reg.SPN_TRACE_CTRL_BREAK_EN n) = s.fld (Reg.SPN_TRACE_CTRL_BREAK_EN n)) ∧
        OnlyRegs { s with restore := t.restore } t [Reg.SPN_TRACE_CTRL_EN n, Reg.SPN_TRACE_CTRL_FREEZE_ON_FAULT n,
          Reg.SPN_TRACE_CTRL_WRAPPED n, Reg.SPN_TRACE_CTRL_BREAK_EN n, Reg.SPN_TRACE_CTRL_BREAK_PC n] [])

/-- Waits inside tasks end: rows that wait for others, and WAIT_EVENT. -/
def Obligations.WaitingTasksGoOn : Prop := waitingRowsGoOn ∧ eventPulsesCommit

/-- The Spindle's patrol and loads. -/
def Obligations.SpindleLoadsAndPatrols : Prop := patrolReads ∧ spindleLoads

/-! ## When an encode stream's pictures are decided -/

/-- Only stream `sid` differs from b. -/
def OnlyStream (b t : State) (sid : Nat) : Prop := OtherStreams b t sid ∧ { t with streams := b.streams } = b

/-- Only stream `sid`, and device DRAM where its context lies, differ from b. -/
def OnlyStreamSaved (b t : State) (sid : Nat) : Prop := OtherStreams b t sid ∧ { t with streams := b.streams, dram := b.dram } = b

/-- A waiting re-pin is due once it has waited REPIN_WAIT; a waiting signalled rate change then asks for a refresh point, once.
(Where the spec leaves a choice, the model's: log entry 5.) -/
def refreshWaitsExpire : Prop :=
  ∀ (s : State) (sid now t0 : Nat), let x := s.stream sid
    (x.enc.repinAt = some t0 → x.enc.repinDue = false → x.repinWait * 1000 ≤ max s.time now - t0 →
      ∃ t, exec (.repinWaitExpiry sid now) s = .next t ∧
        t.stream sid = { x with enc := { x.enc with repinDue := true } } ∧ OnlyStream (s.at now) t sid) ∧
    (∀ r, let y := x.rendition r
      y.changeAt = some t0 → y.signalled = true → x.repinWait * 1000 ≤ max s.time now - t0 → x.state ≠ 0 → x.dir = 1 →
      ∃ t, exec (.rateChangeWaitExpiry sid r now) s = .next t ∧ ((t.stream sid).rendition r).changeAt = none ∧
        ((t.stream sid).rendition r).change = y.change ∧
        (x.enc.request = none → (t.stream sid).enc.request = some x.enc.c) ∧
        (x.enc.request ≠ none → (t.stream sid).enc.request = x.enc.request) ∧ OnlyStreamSaved (s.at now) t sid)

/-- The next canvas picture of a stream is decided NORMAL once the picture before it has ended and the lines of its first row are
composed, at once or at its limit; at its limit it is a REPEAT where one of these fails or the Shepherd lets it pass, which counts; picture
0 waits. Ahead of its limit nothing is decided for it. A group of REORDER_8 is decided in coding order once each of its pictures is composed
or past its limit, those missing at their limit SUBSTITUTE. (Where the spec leaves a choice, the model's: log entries 80, 89, 116.) -/
def picturesDecided : Prop :=
  ∀ (s : State) (sid now : Nat), let x := s.stream sid
    let c := x.enc.c
    let level := s.levelFor x
    let ready : Bool := x.enc.previousEnded && (s.at now).rowZeroDone x c
    let limit (k : Nat) : Prop := (s.at now).limitReached x k = true
    let decided (t : State) (kind input : Nat) : Prop := ∃ z, (t.stream sid).enc.decided = x.enc.decided ++ [z] ∧ z.c = c ∧ z.kind = kind ∧
      z.input = input ∧ z.rends = x.rendsAt c kind ∧ z.cause.isSome = (pointCause x c kind).isSome ∧ (t.stream sid).enc.c = c + 1
    x.encoding = true → s.inService = true →
    ((x.rendition 0).structure_ ≠ 3 → ¬ limit c → exec (.decisionLimit sid now) s = .next (s.at now)) ∧
    ((x.rendition 0).structure_ ≠ 3 → ready = true → encShed x.cls level c = false → ∀ cmd,
      cmd = .picDispatchNormal sid now ∨ (cmd = .decisionLimit sid now ∧ limit c) →
      ∃ t, exec cmd s = .next t ∧ decided t 0 c ∧ (t.stream sid).shed = level ∧ OnlyStreamSaved (s.at now) t sid) ∧
    ((x.rendition 0).structure_ ≠ 3 → limit c → ready = false ∨ encShed x.cls level c = true → c ≠ 0 →
      ∃ t, exec (.decisionLimit sid now) s = .next t ∧ decided t 1 x.enc.input ∧
        (t.stream sid).enc.overs = (if x.enc.previousEnded then x.enc.overs else x.enc.overs ++ [c]) ∧
        (t.stream sid).picsShed = (if encShed x.cls level c then satAdd (2 ^ 32 - 1) x.picsShed 1 else x.picsShed) ∧
        OtherStreams s t sid ∧ OnlyRegs { s.at now with streams := t.streams, dram := t.dram } t [] [Cnt.SHP_PICS_SHED]) ∧
    ((x.rendition 0).structure_ ≠ 3 → ready = false → c = 0 → exec (.decisionLimit sid now) s = .next (s.at now)) ∧
    ((x.rendition 0).structure_ = 3 → ∃ t, exec (.decisionLimit sid now) s = .next t ∧ (t.stream sid).enc.decided = x.enc.decided ∧
      (∀ k ∈ groupOrder c, k ≠ 0 → (s.cv x.canvas).composed k = false → limit k → k ∈ (t.stream sid).enc.missed) ∧ OnlyStream (s.at now) t sid) ∧
    ((x.rendition 0).structure_ = 3 → x.enc.decided = [] → encHeld x.cls level = false → c ≠ 0 ∨ (s.cv x.canvas).composed 0 = true →
      (∀ k ∈ groupOrder c, (s.cv x.canvas).composed k = true ∨ limit k) →
      ∃ t, exec (.groupDispatch sid now) s = .next t ∧
        (t.stream sid).enc.decided.map (fun z => (z.c, z.kind)) =
          (groupOrder c).map (fun k => (k, if (s.cv x.canvas).composed k && !x.enc.missed.contains k then 0 else 2)) ∧
        (t.stream sid).enc.c = c + (groupOrder c).length ∧
        (encHeld x.cls x.shed = true → (t.stream sid).enc.request ≠ none ∨ ∃ z ∈ (t.stream sid).enc.decided, z.cause.isSome = true) ∧
        OnlyStreamSaved (s.at now) t sid)

/-! ## Device DRAM -/

/-- The registers that an access's error may write. -/
def errF : List Fld :=
  [Reg.DMC_FAULT_UE, Reg.DMC_FAULT_CE_THRESH, Reg.DMC_ERR_LOG0_CHANNEL, Reg.DMC_ERR_LOG0_BANK, Reg.DMC_ERR_LOG0_ROW,
    Reg.DMC_ERR_LOG0_SLOT, Reg.DMC_ERR_LOG0_TYPE, Reg.DMC_ERR_LOG1_PORT, Reg.DMC_ERR_LOG1_TAG, Reg.DMC_ERR_LOG1_TIME_MS]

/-- The counters. -/
def errC : List Nat := [Cnt.DMC_CE, Cnt.DMC_UE, Cnt.DMC_POISON_READS, Cnt.DMC_RETRY_OK, Cnt.DMC_PATROL_LINES]

/-- A read of DRAM returns its bytes where its line decodes with at most 3 erroneous bytes; POISON where the line is marked and at most
one byte is wrong; else the read is retried, up to the configured number of times, and then the line is marked. A read past the usable
size returns 0 and is noted. No read changes a byte, and each counts its lines against its tag.
(Where the spec leaves a choice, the model's: log entries 60, 67.) -/
def dramReads : Prop :=
  ∀ (s : State) (port tag a len bad : Nat), let n := bad + tget 0 s.dram.errs (a / 64)
    (∃ t, exec (.dramRead port tag a len bad) s = .next t ∧ t.dram.mem = s.dram.mem ∧
      (partUsable s.part < a + len → t.dram.rd = some ⟨port, tag, a, List.replicate len 0, false⟩ ∧ Notes 0 s t ∧
        Frame { s with dram := t.dram } t [] []) ∧
      (a + len ≤ partUsable s.part →
        (s.poisoned (a / 64) = false → n ≤ 3 →
          t.dram.rd = some ⟨port, tag, a, s.getBytes a len, s.rangePoison a len⟩ ∧ t.dram.poison = s.dram.poison ∧
          t.dram.retry = s.dram.retry ∧ (0 < n → t.fld Reg.DMC_ERR_LOG0_TYPE = 0 ∧ t.fld Reg.DMC_ERR_LOG1_PORT = port % 16)) ∧
        (s.poisoned (a / 64) = true → n ≤ 1 →
          t.dram.rd = some ⟨port, tag, a, s.getBytes a len, true⟩ ∧ t.dram.poison = s.dram.poison ∧ t.dram.retry = s.dram.retry ∧
          t.fld Reg.DMC_ERR_LOG0_TYPE = 3) ∧
        (3 < n ∨ (s.poisoned (a / 64) = true ∧ 1 < n) → s.fld Reg.DMC_ECC_CTRL_RETRIES ≠ 0 →
          t.dram = { s.dram with retry := s.dram.retry ++ [⟨port, tag, a, len, 0⟩], bw := t.dram.bw }) ∧
        (3 < n ∨ (s.poisoned (a / 64) = true ∧ 1 < n) → s.fld Reg.DMC_ECC_CTRL_RETRIES = 0 →
          t.dram.rd = some ⟨port, tag, a, s.getBytes a len, true⟩ ∧ t.poisoned (a / 64) = true) ∧
        t.cnt (Cnt.DMC_ACCT tag) = (s.cnt (Cnt.DMC_ACCT tag) + 64 * (linesOf a len).length) % 2 ^ 64 ∧
        Frame { s with dram := t.dram } t (pdStateF (8 + s.quadOf a) :: errF) (Cnt.DMC_ACCT tag :: errC))) ∧
    (∀ (r : Retry) (k now : Nat), s.dram.retry.find? (fun r => r.port = port && r.tag = tag && r.addr / 64 = a / 64) = some r →
      ∃ t, exec (.dramReadRetry port tag a k now) s = .next t ∧ t.dram.mem = s.dram.mem ∧
        (s.poisoned (a / 64) = false → k ≤ 3 →
          t.dram.rd = some ⟨port, tag, r.addr, s.getBytes r.addr r.len, s.rangePoison r.addr r.len⟩ ∧
          t.dram.retry = s.dram.retry.erase r ∧ t.dram.poison = s.dram.poison) ∧
        (s.poisoned (a / 64) = false → 3 < k → s.fld Reg.DMC_ECC_CTRL_RETRIES ≤ r.tries + 1 →
          t.dram.rd = some ⟨port, tag, r.addr, s.getBytes r.addr r.len, true⟩ ∧ t.poisoned (a / 64) = true ∧
          t.dram.retry = s.dram.retry.erase r) ∧
        (s.poisoned (a / 64) = false → 3 < k → r.tries + 1 < s.fld Reg.DMC_ECC_CTRL_RETRIES →
          t.dram = { s.dram with retry := { r with tries := r.tries + 1 } :: s.dram.retry.erase r }) ∧
        Frame { s.at now with dram := t.dram } t errF errC)

/-- A write of DRAM stores its bytes and no other, and takes the poison off every line that it covers whole; a write past the usable
size stores nothing and is noted. (Where the spec leaves a choice, the model's: log entry 67.) -/
def dramWrites : Prop :=
  ∀ (s : State) (port tag a bad : Nat) (bytes : List Nat), bytes ≠ [] →
    ∃ t, exec (.dramWrite port tag a bytes bad) s = .next t ∧ SameOutside s t a bytes.length ∧
      (partUsable s.part < a + bytes.length → t.dram = s.dram ∧ Notes 0 s t ∧ Frame s t [] []) ∧
      (a + bytes.length ≤ partUsable s.part →
        (∀ i (h : i < bytes.length), t.byte (a + i) = BitVec.ofNat 8 bytes[i]) ∧
        (∀ l, a ≤ 64 * l → 64 * l + 64 ≤ a + bytes.length → t.poisoned l = false) ∧
        (∀ l, 64 * l + 64 ≤ a ∨ a + bytes.length ≤ 64 * l → t.poisoned l = s.poisoned l) ∧
        (∀ l, s.poisoned l = true → ¬ (a ≤ 64 * l ∧ 64 * l + 64 ≤ a + bytes.length) → t.poisoned l = true) ∧
        t.cnt (Cnt.DMC_ACCT tag) = (s.cnt (Cnt.DMC_ACCT tag) + 64 * (linesOf a bytes.length).length) % 2 ^ 64 ∧
        Frame { s with dram := t.dram } t (Reg.FLT_INJECT_CTRL_ARM :: pdStateF (8 + s.quadOf a) :: errF) (Cnt.DMC_ACCT tag :: errC))

/-- A refresh fixes the channel's next slot on its shifted grid; a warmer reading raises the multiplier at once, and a reading above
140 degrees reports OVERTEMP; drift beyond 1/8 UI asks for retraining; a window's traffic leaves the window.
(Where the spec leaves a choice, the model's: log entries 60, 69.) -/
def Obligations.DramUpkeep : Prop :=
  ∀ (s : State) (ch now : Nat), ch < partChannels s.part →
    (s.pd (8 + ch / 4) < 2 →
      let T := refInterval (s.fld (Reg.DMC_CH_STATE_MULT ch))
      let off := ch * T / partChannels s.part
      let at_ := max s.time now * 1000
      ∃ t nx, exec (.refreshSlot ch now) s = .next t ∧ tget 0 t.dram.refLast ch = at_ ∧ tget 0 t.dram.refNext ch = nx ∧
        at_ < nx ∧ nx ≤ at_ + T ∧ off ≤ nx ∧ (nx - off) % T = 0 ∧
        t.dram = { s.dram with refLast := t.dram.refLast, refNext := t.dram.refNext } ∧
        OnlyRegs { s.at now with dram := t.dram } t [] [Cnt.DMC_REFRESHES]) ∧
    (∀ temp : Int, -256 ≤ temp → temp < 256 →
      ∃ t, exec (.dramTempRead ch temp now) s = .next t ∧ t.fld (Reg.DMC_CH_STATE_TEMP ch) = temp9 temp ∧
        (s.fld (Reg.DMC_CH_STATE_MULT ch) ≤ multFor temp → t.fld (Reg.DMC_CH_STATE_MULT ch) = multFor temp) ∧
        (multFor temp < s.fld (Reg.DMC_CH_STATE_MULT ch) →
          (t.fld (Reg.DMC_CH_STATE_MULT ch) = s.fld (Reg.DMC_CH_STATE_MULT ch) ∨
            t.fld (Reg.DMC_CH_STATE_MULT ch) = (s.fld (Reg.DMC_CH_STATE_MULT ch) - 1) % 4) ∧
          (multEdge (s.fld (Reg.DMC_CH_STATE_MULT ch)) - 2 < temp →
            t.fld (Reg.DMC_CH_STATE_MULT ch) = s.fld (Reg.DMC_CH_STATE_MULT ch))) ∧
        (140 < temp → t.fld Reg.DMC_STATUS_OVERTEMP = 1 ∧ (s.asserted (236 + ch / 4) = false → t.fltSticky (236 + ch / 4) = true)) ∧
        t.dram.mem = s.dram.mem ∧
        Frame { s.at now with dram := t.dram } t [Reg.DMC_CH_STATE_TEMP ch, Reg.DMC_CH_STATE_MULT ch, Reg.DMC_STATUS_OVERTEMP] []) ∧
    (∀ drift,
      ∃ t, exec (.driftTrack ch drift) s = .next t ∧ t.fld (Reg.DMC_CH_STATE_DRIFT ch) = min 255 drift ∧
        (8 < drift → t.on (Reg.DMC_CH_STATE_RETRAIN_DUE ch) = true) ∧
        (8 < drift → s.on (Reg.DMC_CH_STATE_RETRAIN_DUE ch) = false →
          t.fld Reg.DMC_STATUS_RETRAIN_DUE = 1 ∧ (t.fld Reg.DMC_FAULT_DRIFT).testBit (ch / 4) = true) ∧
        Frame s t [Reg.DMC_CH_STATE_DRIFT ch, Reg.DMC_CH_STATE_RETRAIN_DUE ch, Reg.DMC_STATUS_RETRAIN_DUE, Reg.DMC_FAULT_DRIFT] []) ∧
    (∃ t, exec (.bwWindow now) s = .next t ∧ t.dram = { s.dram with bw := [] } ∧
      (∀ k < 16, tget 0 s.dram.bw k = 0 → t.fld (Reg.DMC_BW_DGB k) = 0) ∧
      (∀ k < 16, 0 < tget 0 s.dram.bw k → ∃ checks, t.fld (Reg.DMC_BW_DGB k) = (tget 0 s.dram.bw k + checks) / 100000 % 2 ^ (Reg.DMC_BW_DGB k).w) ∧
      OnlyRegs { s.at now with dram := t.dram, freeCtr := t.freeCtr } t ((upTo 0 16).map Reg.DMC_BW_DGB) [Cnt.DMC_PROMOTIONS])

/-- The patrol reads the next line of a channel, changes no byte and marks a line that stays uncorrectable; a soft repair serves the
oldest open candidate, once a second. DMC_LOCK takes the regions as the map only where they cover every granule exactly once. The wipe
leaves no byte, entry or queue and goes on to LOAD. (Where the spec leaves a choice, the model's: log entries 1, 70, 112.) -/
def Obligations.DramPatrolRepairLockWipe : Prop :=
  (∀ (s : State) (ch bad now : Nat), ch < partChannels s.part → s.on Reg.DMC_SCRUB_EN = true →
    let i := tget 0 s.dram.patrol ch
    let line := s.lineOfPlace (placeAt ch i)
    i < chLines →
    ∃ t, exec (.scrubLine ch bad now) s = .next t ∧ t.dram.mem = s.dram.mem ∧
      (i + 1 < chLines → tget 0 t.dram.patrol ch = i + 1) ∧
      (∀ l, line = some l → s.poisoned l = false → 3 < bad → t.poisoned l = true) ∧
      (∀ l, line ≠ some l → t.poisoned l = s.poisoned l) ∧
      (s.on (freezeOf Cnt.DMC_PATROL_LINES) = false → t.cnt Cnt.DMC_PATROL_LINES = (s.cnt Cnt.DMC_PATROL_LINES + 1) % 2 ^ 64) ∧
      Frame { s.at now with dram := t.dram } t (Reg.DMC_SCRUB_STATUS_PASSES :: Reg.DMC_SCRUB_STATUS_PERCENT :: errF) errC) ∧
  (∀ (s : State) (ch now : Nat) (spare : Bool) (c : RowRec), ch < partChannels s.part → s.on Reg.DMC_ECC_CTRL_SOFT_EN = true →
    s.inService = true → s.softCand ch = some c →
    tget 0 s.dram.lastSoft ch = 0 ∨ 1000000 ≤ max s.time now + 1 - tget 0 s.dram.lastSoft ch →
    ∃ t, exec (.softRepair ch spare now) s = .next t ∧
      tget [] t.dram.cands ch = (tget [] s.dram.cands ch).map (fun x => if x = c then
        (if spare then { c with softDone := true } else { c with exhausted := true }) else x) ∧
      tget 0 t.dram.lastSoft ch = max s.time now + 1 ∧ (spare = false → (t.fld Reg.DMC_FAULT_PPR_EXHAUSTED).testBit (ch / 4) = true) ∧
      t.dram = { s.dram with cands := t.dram.cands, lastSoft := t.dram.lastSoft } ∧
      Frame { s.at now with dram := t.dram } t [Reg.DMC_FAULT_PPR_EXHAUSTED] [Cnt.DMC_SOFT_REPAIRS]) ∧
  (∀ (s : State) (also : List (Nat × Word)), let s' := s.plainWrites (also.filter (fun w => w.1 / 0x10000 = 9))
    s'.fld Reg.DMC_CTRL_LOCK = 0 →
    ∃ t, exec (.dmcLock also) s = .next t ∧
      (mapCovers s'.regions = true → t.dram.map = s'.regions ∧ t.fld Reg.DMC_CTRL_LOCK = 1 ∧ t.fld Reg.DMC_STATUS_CFG_ERR = 0) ∧
      (mapCovers s'.regions = false → t.dram = s'.dram ∧ t.fld Reg.DMC_CTRL_LOCK = 0 ∧ t.fld Reg.DMC_STATUS_CFG_ERR = 1) ∧
      OnlyRegs { s' with dram := { s'.dram with map := t.dram.map } } t [Reg.DMC_CTRL_LOCK, Reg.DMC_STATUS_CFG_ERR] []) ∧
  (∀ (s : State) (now : Nat), s.mode = 2 →
    ∃ t, exec (.wipeDone now) s = .next t ∧ t.mode = 3 ∧ t.fld Reg.LCM_MODE_PREV = 2 ∧ t.fld Reg.DMC_STATUS_WIPE_BUSY = 0 ∧
      (∀ a, t.byte a = 0) ∧ (∀ l, t.poisoned l = false) ∧ (∀ k, t.lent k = none) ∧ t.ldg.reqs = [] ∧ (∀ n, t.lth n = lathe0) ∧
      (∀ p i, (t.cbuf p i).held = false) ∧
      OnlyRegs ((s.at now).wipeDram.wipeDie) t [Reg.LCM_MODE_MODE, Reg.LCM_MODE_PREV, Reg.LCM_MODE_REASON, Reg.DMC_STATUS_WIPE_BUSY] [])

/-- Canvas pictures are decided for coding, and waits for a refresh point expire. -/
def Obligations.PicturesAreDecided : Prop := refreshWaitsExpire ∧ picturesDecided

/-- Reads, retries and writes of DRAM. -/
def Obligations.DramReadsAndWrites : Prop := dramReads ∧ dramWrites

/-! ## The Coop -/

/-- COP_CTRL.LOCK holds only where the pools and owner limits fit, judged with the writes of its cycle. READY follows LOCK and judges the
waiting requests; later the first that a pool can serve has its buffer. (Where the spec leaves a choice, the model's: log entries 71, 72.) -/
def coopServes : Prop :=
  (∀ (s : State) (also : List (Nat × Word)), let s' := s.plainWrites (also.filter (fun w => w.1 / 0x10000 = 7))
    s'.fld Reg.COP_CTRL_LOCK = 0 →
    ∃ t, exec (.coopLock also) s = .next t ∧
      (s'.coopCfgOk = true → t.fld Reg.COP_CTRL_LOCK = 1 ∧ t.fld Reg.COP_STATUS_CFG_ERR = 0) ∧
      (s'.coopCfgOk = false → t.fld Reg.COP_CTRL_LOCK = 0 ∧ t.fld Reg.COP_STATUS_CFG_ERR = 1) ∧
      OnlyRegs s' t [Reg.COP_CTRL_LOCK, Reg.COP_STATUS_CFG_ERR] []) ∧
  (∀ (s : State) (now : Nat), s.on Reg.COP_CTRL_LOCK = true → s.fld Reg.COP_STATUS_READY = 0 →
    ∃ t, exec (.coopReady now) s = .next t ∧ t.fld Reg.COP_STATUS_READY = 1 ∧
      (s.coop.waits = [] → OnlyRegs (s.at now) t [Reg.COP_STATUS_READY] []) ∧
      (∀ w ∈ t.coop.waits, w ∈ s.coop.waits) ∧ (∀ w ∈ t.coop.waits, isTry w.whom = false) ∧
      t.life = s.life ∧ t.canvases = s.canvases ∧ t.drvs = s.drvs ∧ t.heads = s.heads) ∧
  (∀ (s : State) (e now p : Nat) (b : Bool) (o size t0 : Nat), s.on Reg.COP_STATUS_READY = true →
    s.coop.waits = [⟨.host e, o, size, t0⟩] → s.coopChoice o size = some (p, b) →
    ∃ t, exec (.coopWaitGrant now) s = .next t ∧ t.coop.waits = [] ∧ (t.cbuf p (s.nextBuf p)).held = true ∧
      (t.cbuf p (s.nextBuf p)).owner = o ∧ (t.cbuf p (s.nextBuf p)).gen = ((s.cbuf p (s.nextBuf p)).gen + 1) % 16 ∧
      (∀ q i, (q, i) ≠ (p, s.nextBuf p) → i < 2 ^ 18 → s.nextBuf p < 2 ^ 18 → t.cbuf q i = s.cbuf q i) ∧
      (∀ c, s.cmd e = some c → c.lost = false → ∃ c', t.cmd e = some c' ∧
        c'.fin = some ⟨0, 0, 0, handleOf p (s.nextBuf p) ((s.cbuf p (s.nextBuf p)).gen + 1), 0⟩) ∧
      Touches (s.at now) t
        (fun x => { x with coop := t.coop, cmds := t.cmds, ldg := t.ldg, freeCtr := t.freeCtr, hqs := t.hqs, ring := t.ring }))

/-- A free of a handle whose buffer is held under that generation frees it, to be given next; any other free changes no buffer, counts
and sets BAD_FREE. (Where the spec leaves a choice, the model's: log entries 71, 73.) -/
def coopFrees : Prop :=
  ∀ (s : State) (h : Nat), let p := h % 8
    let i := h / 8 % 2 ^ 18
    let b := s.cbuf p i
    ((b.held = true ∧ b.gen = h / 2 ^ 21 % 16 ∧ p < 6 ∧ h < 2 ^ 25) →
      ∃ t, exec (.coopFree h) s = .next t ∧ t.cbuf p i = { b with held := false } ∧ t.nextBuf p = i ∧
        (∀ q j, j < 2 ^ 18 → (q, j) ≠ (p, i) → t.cbuf q j = s.cbuf q j) ∧
        (s.on (freezeOf Cnt.COP_FREES) = false → t.cnt Cnt.COP_FREES = (s.cnt Cnt.COP_FREES + 1) % 2 ^ 64) ∧
        OnlyRegs { s with coop := t.coop } t [] [Cnt.COP_FREES]) ∧
    (¬ (b.held = true ∧ b.gen = h / 2 ^ 21 % 16 ∧ p < 6 ∧ h < 2 ^ 25) →
      ∃ t, exec (.coopFree h) s = .next t ∧ t.coop = s.coop ∧ t.fld Reg.COP_STATUS_BAD_FREE = 1 ∧
        (s.on (freezeOf Cnt.COP_BAD_FREES) = false → t.cnt Cnt.COP_BAD_FREES = (s.cnt Cnt.COP_BAD_FREES + 1) % 2 ^ 64) ∧
        Frame s t [Reg.COP_STATUS_BAD_FREE] [Cnt.COP_BAD_FREES])

/-! ## The Drover -/

/-- START asks for a DMA entry and sets BUSY, unless the channel is busy or ABORT is written with it: then it is ignored.
(Where the spec leaves a choice, the model's: log entry 75.) -/
def jobsStart : Prop :=
  ∀ (s : State) (ch now : Nat) (v : Word) (c : Instr), ch < 16 → v.getLsbD 0 = true →
    (c = .drvCopy ch v now ∧ (s.drvMode ch = 0 ∨ s.drvMode ch = 3)) ∨ (c = .drvFill ch v now ∧ s.drvMode ch = 1) ∨
      (c = .drvCompare ch v now ∧ s.drvMode ch = 2) →
    (s.on (Reg.DRV_STATUS_BUSY ch) = true ∨ v.getLsbD 1 = true →
      ∃ t, exec c s = .next t ∧ t.fld (Reg.DRV_STATUS_WRITE_IGNORED ch) = 1 ∧
        OnlyRegs (s.at now) t [Reg.DRV_STATUS_WRITE_IGNORED ch] []) ∧
    (s.on (Reg.DRV_STATUS_BUSY ch) = false → v.getLsbD 1 = false →
      ∃ t, exec c s = .next t ∧ t.fld (Reg.DRV_STATUS_BUSY ch) = 1 ∧ t.fld (Reg.DRV_STATUS_STATUS ch) = 0 ∧
        t.fld (Reg.DRV_STATUS_ABORTED ch) = 0 ∧ t.drv ch = { drv0 with phase := .asked } ∧ (∀ k, k ≠ ch → t.drv k = s.drv k) ∧
        t.ldg.reqs.map (fun x => (x.cls, x.live, x.origin, x.tag)) =
          s.ldg.reqs.map (fun x => (x.cls, x.live, x.origin, x.tag)) ++ [(.dma, s.on (Reg.DRV_CFG_LIVE ch), ch, ch)] ∧
        t.ldg.entries = s.ldg.entries ∧
        Frame { s.at now with drvs := t.drvs, ldg := t.ldg } t
          [Reg.DRV_STATUS_BUSY ch, Reg.DRV_STATUS_DESCENDING ch, Reg.DRV_STATUS_STATUS ch, Reg.DRV_STATUS_MISMATCH ch,
            Reg.DRV_STATUS_POISON ch, Reg.DRV_STATUS_ABORTED ch, Reg.LGR_STATUS_LIVE_HELD] [])

/-- The registers and counters that a Drover job's end and its accesses may write. -/
def drvF (ch : Nat) : List Fld :=
  [Reg.DRV_STATUS_BUSY ch, Reg.DRV_STATUS_DESCENDING ch, Reg.DRV_STATUS_STATUS ch, Reg.DRV_STATUS_MISMATCH ch, Reg.DRV_STATUS_POISON ch,
    Reg.DRV_STATUS_ABORTED ch, Reg.DRV_DONE_BYTES ch, Reg.DRV_FIRST_OFF_OFFSET ch, Reg.DRV_JOBS_COUNT ch, Reg.FLT_INJECT_CTRL_ARM,
    pdStateF 8, pdStateF 9, pdStateF 10, pdStateF 11] ++ errF

/-- A granted job that fails a check ends with its status and makes no access; one that passes runs with the bytes that host memory
returned. At its end a FILL of device memory has stored its pattern, and a COPY within device memory the bytes of its source as they were,
poison with them; the status registers are written, BUSY clears and the entry returns. ABORT withdraws a waiting request.
(Where the spec leaves a choice, the model's: log entries 6, 74.) -/
def jobsRun : Prop :=
  ∀ (s : State) (ch now : Nat), ch < 16 →
    (∀ b (src dst : List Nat), (s.at now).grantBucket .dma ch = some b → (s.drv ch).phase = .asked →
      ∃ t, exec (.drvLedgerGrant ch src dst now) s = .next t ∧ (t.drv ch).entry = some s.nextEntry ∧
        (s.drvCheck ch ≠ 0 → (t.drv ch).phase = .ended ∧ (t.drv ch).status = s.drvCheck ch) ∧
        (s.drvCheck ch = 0 → (t.drv ch).phase = .running ∧ (t.drv ch).descending = s.drvDescends ch ∧
          (s.drvSrcHost ch = true → (t.drv ch).src = (src.take (s.drvLen ch)).map (fun x => (x % 256, false)))) ∧
        (∃ e, t.lent s.nextEntry = some e ∧ e.cls = .dma ∧ e.state = 1 ∧ e.words = s.drvWords ch 0) ∧
        (∀ k, k ≠ s.nextEntry → t.lent k = s.lent k) ∧ (∀ k, k ≠ ch → t.drv k = s.drv k) ∧
        Frame { s.at now with drvs := t.drvs, ldg := t.ldg } t [Reg.LGR_PEAK_PEAK 4, Reg.LGR_STATUS_LIVE_HELD] []) ∧
    ((s.drv ch).phase = .ended →
      ∃ t, exec (.drvDone ch now) s = .next t ∧ t.drv ch = drv0 ∧ t.fld (Reg.DRV_STATUS_BUSY ch) = 0 ∧
        t.fld (Reg.DRV_STATUS_STATUS ch) = (s.drv ch).status % 2 ^ (Reg.DRV_STATUS_STATUS ch).w ∧
        t.fld (Reg.DRV_STATUS_ABORTED ch) = (if (s.drv ch).aborted then 1 else 0) ∧
        t.fld (Reg.DRV_DONE_BYTES ch) = (s.drv ch).done % 2 ^ 32 ∧ t.fld (Reg.DRV_FIRST_OFF_OFFSET ch) = (s.drv ch).first % 2 ^ 32 ∧
        (∀ e, (s.drv ch).entry = some e → t.lent e = none ∧ ∀ k, k ≠ e → t.lent k = s.lent k) ∧ (∀ k, k ≠ ch → t.drv k = s.drv k) ∧
        Frame { s.at now with drvs := t.drvs, ldg := t.ldg } t (drvF ch) []) ∧
    ((s.drv ch).phase = .running → s.drvDstHost ch = false → s.drvDst ch + s.drvLen ch ≤ partUsable s.part →
      s.drvMode ch = 1 ∨ (s.drvMode ch = 0 ∧ s.drvSrcHost ch = false) →
      ∃ t, exec (.drvDone ch now) s = .next t ∧ t.drv ch = drv0 ∧ t.fld (Reg.DRV_STATUS_BUSY ch) = 0 ∧
        t.fld (Reg.DRV_STATUS_STATUS ch) = 0 ∧ t.fld (Reg.DRV_DONE_BYTES ch) = s.drvLen ch % 2 ^ 32 ∧
        (s.drvMode ch = 1 → ∀ i < s.drvLen ch, t.byte (s.drvDst ch + i) = BitVec.ofNat 8 (s.fld (Reg.DRV_FILL_PATTERN ch) / 256 ^ (i % 4))) ∧
        (s.drvMode ch = 0 → ∀ i < s.drvLen ch, t.byte (s.drvDst ch + i) = s.byte (s.drvSrc ch + i)) ∧
        SameOutside s t (s.drvDst ch) (s.drvLen ch) ∧
        Frame { s.at now with drvs := t.drvs, ldg := t.ldg, dram := t.dram } t (drvF ch) (Cnt.DMC_ACCT (579 + ch) :: errC)) ∧
    ((s.drv ch).phase = .running → s.drvMode ch = 2 → s.drvSrcHost ch = false → s.drvDstHost ch = false →
      s.drvSrc ch + s.drvLen ch ≤ partUsable s.part → (∀ l, s.poisoned l = false) →
      ∃ t, exec (.drvDone ch now) s = .next t ∧ t.drv ch = drv0 ∧ t.fld (Reg.DRV_STATUS_BUSY ch) = 0 ∧ t.dram.mem = s.dram.mem ∧
        ((∀ i < s.drvLen ch, s.byte (s.drvSrc ch + i) = s.byte (s.drvDst ch + i)) →
          t.fld (Reg.DRV_STATUS_MISMATCH ch) = 0 ∧ t.fld (Reg.DRV_DONE_BYTES ch) = s.drvLen ch % 2 ^ 32) ∧
        (∀ i < s.drvLen ch, (∀ j < i, s.byte (s.drvSrc ch + j) = s.byte (s.drvDst ch + j)) →
          s.byte (s.drvSrc ch + i) ≠ s.byte (s.drvDst ch + i) →
          t.fld (Reg.DRV_STATUS_MISMATCH ch) = 1 ∧ t.fld (Reg.DRV_FIRST_OFF_OFFSET ch) = i % 2 ^ 32) ∧
        Frame { s.at now with drvs := t.drvs, ldg := t.ldg, dram := t.dram } t (drvF ch) (Cnt.DMC_ACCT (579 + ch) :: errC)) ∧
    (∀ v : Word, v.getLsbD 1 = true →
      (v.getLsbD 0 = true → ∃ t, exec (.drvAbort ch v now) s = .next t ∧ t.fld (Reg.DRV_STATUS_WRITE_IGNORED ch) = 1 ∧
        OnlyRegs (s.at now) t [Reg.DRV_STATUS_WRITE_IGNORED ch] []) ∧
      (v.getLsbD 0 = false → (s.drv ch).phase = .asked → ∃ t, exec (.drvAbort ch v now) s = .next t ∧
        t.drv ch = { drv0 with phase := .ended, aborted := true } ∧ t.reqOf .dma ch = none ∧ t.ldg.entries = s.ldg.entries ∧
        (∀ k, k ≠ ch → t.drv k = s.drv k) ∧ OnlyRegs { s.at now with drvs := t.drvs, ldg := t.ldg } t [] []) ∧
      (v.getLsbD 0 = false → (s.drv ch).phase = .running → ∃ t, exec (.drvAbort ch v now) s = .next t ∧ (t.drv ch).phase = .ended ∧
        (s.drvMode ch ≠ 2 → (t.drv ch).aborted = true) ∧ 
        (s.drvSrcHost ch = false → s.drvDstHost ch = false → (t.drv ch).done ≤ s.drvLen ch) ∧
        (s.drvMode ch = 2 → t.dram.mem = s.dram.mem) ∧ (s.drvDstHost ch = true → t.dram.mem = s.dram.mem) ∧
        (∀ k, k ≠ ch → t.drv k = s.drv k) ∧ Touches (s.at now) t (fun b => { b with drvs := t.drvs, dram := t.dram, freeCtr := t.freeCtr })))

/-- The Coop: its lock, grants and frees. -/
def Obligations.CoopLendsBuffers : Prop := coopServes ∧ coopFrees

/-- The Drover: its jobs from their START to their end. -/
def Obligations.DroverMovesData : Prop := jobsStart ∧ jobsRun

/-! ## The Shepherd -/

/-- A tick shows the hottest valid reading and how many are valid, raises the band at once where they ask for it, and never lowers it;
after a rise no more Lathes serve than N allows, and SHP_GUAR shows N. (Readings of 160 degrees and above withdraw the node instead.) Where no
picture waits for a Lathe no stream changes. (Where the spec leaves a choice, the model's: log entries 58, 136.) -/
def Obligations.TicksFollowTheSensors : Prop :=
  ∀ (s : State) (tj : List (Option Int)) (now : Nat), let temps := (s.at now).validTemps 0 (tj.take 64)
    let hot := (maxTemp temps).getD (ofTemp9 (s.fld Reg.SHP_TEMP_TJ_MAX))
    let valid := (temps.filter (fun t => t.isSome)).length
    let want := if valid < 56 then 2 else bandOf hot
    hot < 160 →
    ∃ t, exec (.shepherdTick tj now) s = .next t ∧ t.shp.temps = temps ∧ t.fld Reg.SHP_TEMP_TJ_MAX = temp9 hot ∧
      t.fld Reg.SHP_TEMP_SENSORS_VALID = valid % 2 ^ Reg.SHP_TEMP_SENSORS_VALID.w ∧
      t.fld Reg.SHP_STATUS_SENSORS_LOW = (if valid < 56 then 1 else 0) ∧
      (s.band < want → t.band = want ∧ t.fld Reg.SHP_GUAR_N = t.guarN % 2 ^ Reg.SHP_GUAR_N.w ∧ t.serving.length ≤ t.guarN ∧
        t.fld Reg.SHP_STATUS_BAND_CHANGED = 1) ∧
      (want ≤ s.band → t.band = s.band ∧ t.serving = s.serving ∧ (s.shp.ready = [] → t.streams = s.streams)) ∧
      (s.shp.ready = [] → t.shp.ready = [] ∧ Touches (s.at now) t (fun b => { b with shp := t.shp, life := t.life, streams := t.streams })) ∧
      Touches (s.at now) t (fun b => { b with shp := t.shp, life := t.life, streams := t.streams, disps := t.disps, dispTag := t.dispTag,
                                              ldg := t.ldg })

/-- After the dwell the band falls by one, and while the Lathes that it frees wake, no shed level is lowered; once every serving Lathe is
ON the level follows the three levels. A parked Lathe that is drained goes OFF. A rotation unparks the coolest parked Lathe.
(Where the spec leaves a choice, the model's: log entries 59, 66.) -/
def Obligations.BandsFallAndLathesPark : Prop :=
  (∀ (s : State) (now t0 : Nat), LevelsInRange s → s.shp.fallSince = some t0 → 0 < s.band →
    atLeast1 (s.fld Reg.SHP_BAND_CFG_DWELL_MS) * 1000 ≤ max s.time now - t0 →
    ∃ t, exec (.bandFall now) s = .next t ∧ t.band = s.band - 1 ∧ t.shp.falling = true ∧ t.fld Reg.SHP_STATUS_BAND_CHANGED = 1 ∧
      s.fld Reg.SHP_SHED_LEVEL ≤ t.fld Reg.SHP_SHED_LEVEL ∧ (∀ n ∈ s.serving, n ∈ t.serving) ∧
      Touches (s.at now) t (fun b => { b with shp := t.shp, wakes := t.wakes })) ∧
  (∀ (s : State) (now : Nat), LevelsInRange s → s.shp.falling = true → (∀ n ∈ s.serving, s.pd (12 + n) ≤ 1) →
    ∃ t, exec (.unparkComplete now) s = .next t ∧ t.shp.falling = false ∧
      t.fld Reg.SHP_SHED_LEVEL =
        max (t.fld Reg.SHP_SHED_HEAT_LEVEL) (max (t.fld Reg.SHP_SHED_POWER_LEVEL) (t.fld Reg.SHP_SHED_BW_LEVEL)) ∧
      t.fld Reg.SHP_SHED_HEAT_LEVEL = s.heatLevel ∧ Touches (s.at now) t (fun b => { b with shp := t.shp })) ∧
  (∀ (s : State) (n : Nat), s.hasLathe n = true → s.parked n = true → s.drained n = true → s.pd (12 + n) ≤ 1 →
    ∃ t, exec (.parkedLatheOff ⟨n, true⟩) s = .next t ∧ t.pd (12 + n) = 0 ∧ OnlyRegs s t [pdStateF (12 + n)] []) ∧
  (∀ (s : State) (n : Nat), s.hasLathe n = true → s.parked n = true → s.drained n = true → s.pd (12 + n) ≠ 3 →
    ∃ t, exec (.parkedLatheOff ⟨n, false⟩) s = .next t ∧ t.pd (12 + n) = 3 ∧ (t.lth n).cs = [] ∧ (t.lth n).run = none ∧
      (∀ m, m ≠ n → t.lth m = s.lth m) ∧
      (∀ g : Fld, domainOf (g.key / 32) ≠ some (12 + n) → g.key ≠ (pdStateF (12 + n)).key → t.fld g = s.fld g) ∧
      (∀ g : Fld, domainOf (g.key / 32) = some (12 + n) → t.fld g = g.rst) ∧
      (∀ c, domainOf c ≠ some (12 + n) → t.cnt c = s.cnt c) ∧ { t with flds := s.flds, cnts := s.cnts, lathes := s.lathes } = s) ∧
  (∀ (s : State) (now n : Nat), s.on Reg.SHP_CTRL_ROTATE_EN = true → nLim s.part s.band < s.healthy.length → s.shp.rotating = none →
    atLeast1 (s.fld Reg.SHP_ROTATE_ROTATE_MIN) * 60000000 ≤ max s.time now - s.shp.rotateAt → s.coolest s.parkedAll = some n →
    2 ≤ s.pd (12 + n) →
    ∃ t, exec (.parkRotate now) s = .next t ∧ t.shp.rotating = some n ∧ t.shp.rotateAt = max s.time now ∧ t.role n = 0 ∧
      (tget none t.wakes (12 + n)).isSome = true ∧ t.fld (Reg.LTH_CTRL_DRAIN n) = 0 ∧
      Touches (s.at now) t (fun b => { b with shp := t.shp, wakes := t.wakes }))

/-- A window above the cap raises the power level by one, up to 5, and reports CAP_UNMET at 5; one 5 W below it for 1 s lowers it. A
bandwidth level that has been too high for 1 s takes the level needed. The largest of the three levels applies.
(Where the spec leaves a choice, the model's: log entry 59.) -/
def Obligations.BudgetsMoveTheLevels : Prop :=
  (∀ (s : State) (dw now : Nat), let l := s.fld Reg.SHP_SHED_POWER_LEVEL
    LevelsInRange s →
    ∃ t, exec (.powerWindow dw now) s = .next t ∧ t.fld Reg.SHP_PWR_POWER_DW = min 4095 dw ∧
      (s.capDw < dw → t.fld Reg.SHP_PWR_OVER_CAP = 1 ∧ t.fld Reg.SHP_SHED_POWER_LEVEL = min 5 (l + 1) ∧
        t.fld Reg.SHP_STATUS_CAP_UNMET = if l = 5 then 1 else 0) ∧
      (dw ≤ s.capDw → t.fld Reg.SHP_PWR_OVER_CAP = 0 ∧ t.fld Reg.SHP_STATUS_CAP_UNMET = 0) ∧
      (dw ≤ s.capDw → s.capDw < dw + 50 → t.fld Reg.SHP_SHED_POWER_LEVEL = l ∧ t.shp.capSince = none) ∧
      (∀ t0, s.shp.capSince = some t0 → dw + 50 ≤ s.capDw → 1000000 ≤ max s.time now - t0 →
        t.fld Reg.SHP_SHED_POWER_LEVEL = l - 1) ∧
      (s.shp.falling = false → t.fld Reg.SHP_SHED_LEVEL =
        max (t.fld Reg.SHP_SHED_HEAT_LEVEL) (max (t.fld Reg.SHP_SHED_POWER_LEVEL) (t.fld Reg.SHP_SHED_BW_LEVEL))) ∧
      Touches (s.at now) t (fun b => { b with shp := t.shp })) ∧
  (∀ (s : State) (now t0 : Nat), LevelsInRange s → s.shp.bwSince = some t0 → s.bwNeed < s.fld Reg.SHP_SHED_BW_LEVEL → 1000000 ≤ max s.time now - t0 →
    ∃ t, exec (.bwLevelLower now) s = .next t ∧ t.fld Reg.SHP_SHED_BW_LEVEL = s.bwNeed ∧ t.shp.bwSince = none ∧
      (s.shp.falling = false → t.fld Reg.SHP_SHED_LEVEL =
        max (t.fld Reg.SHP_SHED_HEAT_LEVEL) (max (t.fld Reg.SHP_SHED_POWER_LEVEL) (t.fld Reg.SHP_SHED_BW_LEVEL))) ∧
      OnlyRegs { s.at now with shp := t.shp } t
        [Reg.SHP_SHED_BW_LEVEL, Reg.SHP_SHED_LEVEL, Reg.SHP_STATUS_SHED_CHANGED, Reg.SHP_CHARGE_CHARGE_MPX 0, Reg.SHP_CHARGE_CHARGE_MPX 1,
          Reg.SHP_CHARGE_CHARGE_MPX 2, Reg.SHP_CHARGE_CHARGE_MPX 3, Reg.SHP_BW_BUDGET_DGB, Reg.SHP_BW_DEMAND_DGB] [])

/-- Stream sid has left the Lathes `gone`: the queue of each that runs no other stream's task has a flush asked for; nothing else of a Lathe
differs. -/
def QueuesLeft (s t : State) (sid : Nat) (gone : List Nat) : Prop :=
  ∀ n, t.lth n = if n ∈ gone ∧ (∀ r, (s.lth n).run = some r → dSid r.task.desc = sid) then
    { s.lth n with bsq := { s.bsq n with flushPending := true } } else s.lth n

/-- At a frame boundary a stream takes a span that it may take: it reads MIGRATING, counts the move, its context is in DRAM, and the queues of
the Lathes that it leaves are to be flushed; a first span is no move. (Where the spec leaves a choice, the model's: log entries 57, 62, 126.) -/
def Obligations.StreamsMigrateAtFrameBoundaries : Prop :=
  ∀ (s : State) (sid now : Nat) (lanes : List Nat), let x := s.stream sid
    x.state ≠ 0 → x.state ≠ 5 → x.idle = true → s.spanOk x lanes = true → lanes ≠ x.lanes →
    ∃ t, exec (.frameBoundaryMigrate sid lanes now) s = .next t ∧ (t.stream sid).lanes = lanes ∧ OtherStreams s t sid ∧
      (x.lanes ≠ [] → (t.stream sid).state = 3 ∧ (t.stream sid).migrations = x.migrations + 1 ∧ (t.stream sid).migratePending = false ∧
        (s.on (freezeOf Cnt.SHP_MIGRATIONS) = false → t.cnt Cnt.SHP_MIGRATIONS = (s.cnt Cnt.SHP_MIGRATIONS + 1) % 2 ^ 64) ∧
        SameOutside s t (s.ctxAddr sid) 2048 ∧ QueuesLeft s t sid (x.lanes.filter (fun n => !lanes.contains n))) ∧
      (x.lanes = [] → t.stream sid = { x with lanes := lanes } ∧ OnlyStream (s.at now) t sid) ∧
      Frame { s.at now with streams := t.streams, dram := t.dram, lathes := t.lathes } t
        (x.lanes.map Reg.LTH_BSQ_CTRL_FLUSH ++ errF) (Cnt.SHP_MIGRATIONS :: errC)

/-- The Shepherd's choice for an idle domain is the deepest state that the gap, SHP_PD_LIMIT and R16 allow; a domain that works, or an
access in the same cycle, is woken instead. A foreseen need wakes a sleeping domain its wake time and the guard ahead.
(Where the spec leaves a choice, the model's: log entries 64, 65, 66.) -/
def Obligations.DomainsSleepAndWake : Prop :=
  ∀ (s : State) (d now : Nat),
    (∀ gnext, s.chooses d = true → s.busyPd d = false → tget none s.wakes d = none →
      let st := min ((s.at now).wantPd d gnext) (min (deepest d) (s.fld (pdLimit d)))
      s.pd d ≤ 1 ∨ s.pd d < st →
      ∃ t, exec (.powerStateDecision d gnext false now) s = .next t ∧ t.pd d = st ∧
        (st ≠ 3 → OnlyRegs (s.at now) t [pdStateF d] []) ∧
        (st = 3 → (∀ g : Fld, domainOf (g.key / 32) ≠ some d → g.key ≠ (pdStateF d).key → t.fld g = s.fld g) ∧
          Touches (s.at now) t (fun b => { b with lathes := t.lathes, canvases := t.canvases }) ∧
          (∀ m, d ≠ 12 + m → t.lth m = s.lth m) ∧ (∀ cv, (s.cv cv).inlay = none ∨ ¬ (d = 6 ∨ d = 7) → t.cv cv = s.cv cv) ∧
          ∀ cv, t.cv cv = { s.cv cv with picSeq := (t.cv cv).picSeq, stale := (t.cv cv).stale })) ∧
    (∀ gnext access, s.chooses d = true → access = true ∨ s.busyPd d = true →
      ∃ t, exec (.powerStateDecision d gnext access now) s = .next t ∧ (s.pd d ≤ 1 → t.pd d = 0) ∧
        (2 ≤ s.pd d → t.pd d = s.pd d ∧ ∃ w, tget none t.wakes d = some w ∧ w.need ≤ max s.time now) ∧
        OnlyRegs { s.at now with wakes := t.wakes } t [pdStateF d] []) ∧
    (∀ need, hasDomain s.part d = true → 2 ≤ s.pd d → need ≤ max s.time now + wakeUs d (s.pd d) + s.fld Reg.SHP_GUARD_WAKE_GUARD_US →
      ∃ t w, exec (.domainWakeStart d need now) s = .next t ∧ tget none t.wakes d = some w ∧ w.need ≤ need ∧
        { t with wakes := s.wakes } = s.at now)

/-- A maintenance begins on a Lathe whose versions the others hold: it takes role MAINTENANCE and is drained; else it waits for a version
check that passes. Drained, it is done: a Lathe that passes becomes a spare, one that fails or is retired takes role RETIRED.
(Where the spec leaves a choice, the model's: log entries 28, 56, 61.) -/
def Obligations.MaintenanceRuns : Prop :=
  ∀ (s : State) (n now : Nat), s.hasLathe n = true → n < 32 →
    let begun (t : State) : Prop := t.role n = 2 ∧ t.fld (Reg.LTH_CTRL_DRAIN n) = 1 ∧ t.fld Reg.SHP_MAINT_STATE = 2 ∧
      t.fld (Reg.FLT_LT_LADDER_RUNG n) = 0 ∧ t.fld (Reg.FLT_LT_LADDER_RETIRE_BLOCKED n) = 0
    (∀ (v : Word) (k : Nat) (c : Instr), (c = .maintRestart v now ∧ k = 0) ∨ (c = .maintRecalibrate v now ∧ k = 1) ∨
        (c = .maintRetire v now ∧ k = 2) →
      s.fld Reg.SHP_MAINT_START = 0 → bitsOf v 7 1 = 1 → bitsOf v Reg.SHP_MAINT_ACTION.lo Reg.SHP_MAINT_ACTION.w = k →
      bitsOf v Reg.SHP_MAINT_LATHE.lo Reg.SHP_MAINT_LATHE.w = n → s.role n ≠ 3 →
      ∃ t, exec c s = .next t ∧ t.fld Reg.SHP_MAINT_START = 1 ∧ t.fld Reg.SHP_MAINT_LATHE = n ∧ t.fld Reg.SHP_MAINT_ACTION = k ∧
        (s.maintOk n = true → begun t) ∧ (s.maintOk n = false → t.fld Reg.SHP_MAINT_STATE = 1 ∧ t.role n = s.role n) ∧
        Touches (s.at now) t (fun b => { b with streams := t.streams, wakes := t.wakes, restore := t.restore })) ∧
    (s.fld Reg.SHP_MAINT_STATE = 1 → s.fld Reg.SHP_MAINT_LATHE = n → s.maintOk n = true →
      ∃ t, exec (.maintVersionOk now) s = .next t ∧ begun t ∧
        Touches (s.at now) t (fun b => { b with streams := t.streams, wakes := t.wakes })) ∧
    (s.fld Reg.SHP_MAINT_STATE = 2 → s.fld Reg.SHP_MAINT_LATHE = n → s.drained n = true → ∀ pass,
      ∃ t, exec (.maintDrained n pass now) s = .next t ∧ t.fld Reg.SHP_MAINT_START = 0 ∧
        (pass = true → s.fld Reg.SHP_MAINT_ACTION ≠ 2 →
          t.fld Reg.SHP_MAINT_STATE = 4 ∧ t.role n = 1 ∧ t.fld (Reg.LTH_CTRL_DRAIN n) = 0) ∧
        (s.fld Reg.SHP_MAINT_ACTION = 2 → t.fld Reg.SHP_MAINT_STATE = 4 ∧ t.role n = 3) ∧
        (pass = false → s.fld Reg.SHP_MAINT_ACTION ≠ 2 → t.fld Reg.SHP_MAINT_STATE = 5 ∧ t.role n = 3) ∧
        (∀ m, m ≠ n → t.lth m = s.lth m) ∧ Touches (s.at now) t (fun b => { b with lathes := t.lathes, freeCtr := t.freeCtr })) ∧
    (s.fld Reg.SHP_MAINT_STATE ≠ 2 → (s.lth n).ladderSince.isSome = true → s.role n = 2 → s.drained n = true →
      ∃ t, exec (.maintDrained n true now) s = .next t ∧ t.role n = 1 ∧ t.fld (Reg.LTH_CTRL_DRAIN n) = 0 ∧
        t.fld (Reg.FLT_LT_LADDER_RUNG n) = 0 ∧ (t.lth n).ladderSince = none ∧ (∀ m, m ≠ n → t.lth m = s.lth m) ∧
        Touches (s.at now) t (fun b => { b with lathes := t.lathes }))

/-! ## Inlays and heads -/

/-- Every other canvas is as it was. -/
def OtherCanvases (s t : State) (cv : Nat) : Prop := ∀ k, k ≠ cv → t.cv k = s.cv k

/-- Counter c adds n, unless its unit's counters are frozen. -/
def Counted (s t : State) (c n : Nat) : Prop := s.on (freezeOf c) = false → t.cnt c = (s.cnt c + n) % 2 ^ 64

/-- At a commit point a canvas picture asks for its COMP entry and the next picture's number follows. Where the entry can be granted the
queued commit whose fences are latched is checked and applied, or refused; a commit that waited too long is discarded; a switch to an
override set takes effect. A picture whose Inlay still composes the one before is dropped. The picture starts no less than half a period after the
one before it. (Where the spec leaves a choice, the model's: log entries 79, 80, 89.) -/
def commitPoints : Prop :=
  ∀ (s : State) (cv now i : Nat), let v := s.cv cv
    let asking := (s.at now).ask .comp (s.cvLive cv) cv cv
    let free := v.cur = none ∧ v.delivering.length < 2 ∧ tget 0 v.surfC v.nextSurf = 0
    v.inlay = some i → v.asked = none →
    (v.startAt ≠ 0 → v.startAt + v.halfNs ≤ (s.at now).startNs v) ∧
    (s.inService = true → v.switch = none → free → v.queue = [] →
      ∃ t, exec (.commitPoint cv now) s = .next t ∧
        t.cv cv = { v with asked := some v.c, judged := (asking.servable .comp cv).isSome, taken := offered s.streams, c := v.c + 1,
                           startAt := (s.at now).startNs v } ∧ OtherCanvases s t cv ∧
        t.ldg = asking.ldg ∧ t.ldg.entries = s.ldg.entries ∧
        t.ldg.reqs.map (fun x => (x.cls, x.live, x.origin, x.tag)) =
          s.ldg.reqs.map (fun x => (x.cls, x.live, x.origin, x.tag)) ++ [(.comp, s.cvLive cv, cv, cv)] ∧
        Frame { s.at now with canvases := t.canvases, ldg := t.ldg } t [Reg.LGR_STATUS_LIVE_HELD] []) ∧
    (∀ m, s.inService = true → v.switch = none → free → v.queue = [m] → (asking.servable .comp cv).isSome = true →
      (m.fences.all fun f => f.2) = true →
      ∃ t, exec (.commitPoint cv now) s = .next t ∧ (t.cv cv).queue = [] ∧ (t.cv cv).c = v.c + 1 ∧ (t.cv cv).judged = true ∧
        (∀ ls, applyRecs v.layers m.recs [] = some ls → s.stackStillOk v ls = true → s.bufFits i cv ls = true →
          (t.cv cv).layers = ls ∧ Counted s t (Cnt.INL_COMMITS_APPLIED i) 1 ∧
          (cv < 32 → (t.fld Reg.EVM_CV_APPLIED_LO_CANVAS).testBit cv = true) ∧
          ∀ h, s.cmd m.own = some h → h.lost = false → ∃ h', t.cmd m.own = some h' ∧ h'.fin = some ⟨0, 0, 0, 0, 0⟩) ∧
        (applyRecs v.layers m.recs [] = none ∨ (∃ ls, applyRecs v.layers m.recs [] = some ls ∧
            (s.stackStillOk v ls = false ∨ s.bufFits i cv ls = false)) →
          (t.cv cv).layers = v.layers ∧ Counted s t (Cnt.INL_COMMITS_REFUSED i) 1) ∧ OtherCanvases s t cv ∧
        Touches (s.at now) t
          (fun b => { b with canvases := t.canvases, ldg := t.ldg, cmds := t.cmds, hqs := t.hqs })) ∧
    (∀ m, s.outputsHeld = true → v.switch = none → v.ovr = none → v.queue = [m] → (m.fences.all fun f => f.2) = false →
      atLeast1 (s.fld (Reg.INL_COMMIT_TIMEOUT_MS i)) * 1000 ≤ max s.time now - m.entered →
      ∃ t, exec (.commitPoint cv now) s = .next t ∧
        t.cv cv = { v with queue := [], c := v.c + 1, startAt := (s.at now).startNs v } ∧ OtherCanvases s t cv ∧
        Counted s t (Cnt.INL_COMMITS_TIMEOUT i) 1 ∧ t.fld (Reg.INL_FAULT_FENCE_TIMEOUT i) = 1 ∧
        Counted s t (Cnt.INL_PICS_DROPPED i) 1 ∧
        (∀ h, s.cmd m.own = some h → h.lost = false → ∃ h', t.cmd m.own = some h' ∧ h'.fin = some ⟨6, 0, 0, 0, 0⟩) ∧
        Touches (s.at now) t
          (fun b => { b with canvases := t.canvases, ldg := t.ldg, cmds := t.cmds, hqs := t.hqs })) ∧
    (s.inService = true → v.switch = none → v.cur ≠ none →
      ∃ t, exec (.commitPoint cv now) s = .next t ∧ t.cv cv = { v with c := v.c + 1, startAt := (s.at now).startNs v } ∧
        OtherCanvases s t cv ∧ Counted s t (Cnt.INL_PICS_DROPPED i) 1 ∧ t.fld (Reg.INL_FAULT_DROPPED i) = 1 ∧
        Frame { s.at now with canvases := t.canvases } t [Reg.INL_FAULT_DROPPED i] [Cnt.INL_PICS_DROPPED i]) ∧
    (∀ tgt, s.inService = true → v.switch = some tgt → tgt ≠ v.ovr → v.cur ≠ none →
      ∃ t, exec (.commitPoint cv now) s = .next t ∧ (t.cv cv).ovr = tgt ∧ (t.cv cv).switch = none ∧ (t.cv cv).all = true ∧
        (t.cv cv).layers = v.layers ∧ (t.cv cv).queue = v.queue ∧ OtherCanvases s t cv ∧
        (tgt.isSome = true → Counted s t (Cnt.INL_OVERRIDES i) 1) ∧
        Touches (s.at now) t (fun b => { b with canvases := t.canvases, streams := t.streams, dram := t.dram }))

/-- A granted COMP entry holds the picture's number, and composition starts with no band written, each video layer showing the picture
that the commit point offered it. When the last line is delivered the entry returns.
(Where the spec leaves a choice, the model's: log entries 6, 81.) -/
def compositionStarts : Prop :=
  (∀ (s : State) (cv now i c : Nat) (b : Bucket), let v := s.cv cv
    v.inlay = some i → v.asked = some c → (s.at now).grantBucket .comp cv = some b → v.judged = true →
    ∃ t p, exec (.compGrant cv now) s = .next t ∧ (t.cv cv).cur = some p ∧ p.c = c ∧ p.entry = s.nextEntry ∧ p.bands = 0 ∧
      p.surf = v.nextSurf ∧ (t.cv cv).asked = none ∧ (t.cv cv).queue = v.queue ∧ (t.cv cv).layers = v.layers ∧
      (v.ovr = none → ∀ k l q, v.layers[k]? = some l → l.video = true → (tget (none, none) v.taken (2 * l.sid + l.sync)).1 = some q →
        samePic (tget shown0 (t.cv cv).shows k).pic (some q) = true) ∧
      OtherCanvases s t cv ∧ t.reqOf .comp cv = none ∧
      (∃ e, t.lent s.nextEntry = some e ∧ e.cls = .comp ∧ e.bucket = b ∧ e.state = 1 ∧ e.words = [c % 65536]) ∧
      (∀ k, k ≠ s.nextEntry → t.lent k = s.lent k) ∧
      Frame { s.at now with canvases := t.canvases, ldg := t.ldg } t [Reg.LGR_PEAK_PEAK 2, Reg.LGR_STATUS_LIVE_HELD]
        [Cnt.INL_COLOUR_MISMATCH i]) ∧
  (∀ (s : State) (cv now : Nat) (p : CvPic) (rest : List CvPic), (s.cv cv).delivering = p :: rest →
    ∃ t, exec (.compDelivered cv now) s = .next t ∧ t.cv cv = { s.cv cv with delivering := rest } ∧ OtherCanvases s t cv ∧
      t.lent p.entry = none ∧ (∀ k, k ≠ p.entry → t.lent k = s.lent k) ∧
      Frame { s.at now with canvases := t.canvases, ldg := t.ldg } t [Reg.LGR_STATUS_LIVE_HELD] [])

/-- Commit points and grants of canvas pictures. -/
def Obligations.CommitPointsStartPictures : Prop := commitPoints ∧ compositionStarts

/-- The bytes of tile k of plane p of a surface: its header word and its payload's place. -/
def InTile (u : Surf) (p k a : Nat) : Prop :=
  (hdrAddr u p + 4 * k ≤ a ∧ a < hdrAddr u p + 4 * k + 4) ∨ (payAddr u p + 256 * k ≤ a ∧ a < payAddr u p + 256 * k + 256)

/-- A band is composed in order, each with the cells of its hint map: CHANGED and the class of each; its tiles and its cell row are all that
is written where the canvas feeds no scaled copy. The last one ends the picture. A poisoned source tile counts and sets POISON.
(Where the spec leaves a choice, the model's: log entries 81, 82.) -/
def Obligations.BandsCompose : Prop :=
  ∀ (s : State) (cv now i : Nat) (p : CvPic), let v := s.cv cv
    let k := (s.at now).compCtx i cv p
    let u := (v.surf p.surf).1
    let cellsAt := (v.surf p.surf).2 + p.bands * cellRowBytes v.width
    let q := { p with bands := p.bands + 1 }
    v.inlay = some i → v.cur = some p → p.bands < v.bands →
    ∃ t, exec (.bandDone cv now) s = .next t ∧ (t.cv cv).layers = v.layers ∧ (t.cv cv).queue = v.queue ∧ OtherCanvases s t cv ∧
      (q.bands < v.bands → (t.cv cv).cur = some q ∧ (t.cv cv).delivering = v.delivering ∧ (t.cv cv).rects = v.rects ∧
        ∀ e, s.lent p.entry = some e → t.lent p.entry = some { e with words := [p.c % 65536 + q.bands % 65536 * 65536] }) ∧
      (q.bands = v.bands → (t.cv cv).cur = none ∧ (t.cv cv).delivering = v.delivering ++ [q] ∧ (t.cv cv).last = some p.surf ∧
        (t.cv cv).lastPic = some p.c ∧ (t.cv cv).rects = [] ∧ Counted s t (Cnt.INL_PICS_COMPOSED i) 1 ∧
        ∀ e, s.lent p.entry = some e → ∃ e', t.lent p.entry = some e' ∧ e'.state = 2) ∧
      (∀ e, e ≠ p.entry → t.lent e = s.lent e) ∧
      (s.poisonTiles k p.bands ≠ 0 → t.fld (Reg.INL_FAULT_POISON i) = 1) ∧
      (s.poisonTiles k p.bands = 0 → t.fld (Reg.INL_FAULT_POISON i) = s.fld (Reg.INL_FAULT_POISON i)) ∧
      ((s.at now).bandDue cv p < (s.at now).ptpNs → t.fld (Reg.INL_FAULT_BAND_LATE i) = 1 ∧ Counted s t (Cnt.INL_BANDS_LATE i) 1) ∧
      (k.hints = false → ∀ a, (∀ j < 3, ∀ z ∈ v.bandTiles u j p.bands, ¬ InTile u j (z.2 * ((planeW u j + 31) / 32) + z.1) a) →
        t.byte a = s.byte a) ∧
      (k.hints = true → (∀ sid x, s.feeds cv = some (sid, x) → ∀ r < x.rends, (s.geo x r).sc = (1, 1)) →
        (∀ a, (∀ j < 3, ∀ z ∈ v.bandTiles u j p.bands, ¬ InTile u j (z.2 * ((planeW u j + 31) / 32) + z.1) a) →
          a < cellsAt ∨ cellsAt + cellRowBytes v.width ≤ a → t.byte a = s.byte a) ∧
        ∀ col < cellsAcross v.width, cellsAt + 4 + col < partUsable s.part →
          t.byte (cellsAt + 4 + col) = BitVec.ofNat 8
            ((if (s.at now).cellChanged k p.bands col then 1 else 0) + 2 * (s.at now).cellClass k p.bands col)) ∧
      (∀ d, d ≠ cv → t.head d = s.head d) ∧
      Touches (s.at now) t (fun b => { b with canvases := t.canvases, ldg := t.ldg, dram := t.dram, heads := t.heads })

/-- A fence's pulse is latched by the commits that name it and by nothing else. A trigger (a register write, or the debounced assertion of
the selected GPIO input) makes its set the active one and the canvases that the set names wait to switch to it; a release lets them switch
back; with both bits a write is ignored. A layer that has shown one picture for a second makes its canvas STALE.
(Where the spec leaves a choice, the model's: log entry 78.) -/
def Obligations.FencesAndOverridesAct : Prop :=
  (∀ (s : State) (src : Nat), ∃ t, exec (.fenceLatch src) s = .next t ∧ { t with canvases := s.canvases } = s ∧
    ∀ cv, t.cv cv = { s.cv cv with queue := (s.cv cv).queue.map (fun m =>
      { m with fences := m.fences.map (fun f => if f.1 = src then (f.1, true) else f) }) }) ∧
  (∀ (s : State) (v : Word) (now : Nat) (c : Instr), c = .overrideTriggerWrite v now ∨ c = .overrideReleaseWrite v now →
    s.pd 6 = 0 → v.getLsbD 3 = true → v.getLsbD 4 = true → exec c s = .next (s.at now)) ∧
  (∀ (s : State) (now k source : Nat) (c : Instr),
    (∃ v : Word, c = .overrideTriggerWrite v now ∧ s.pd 6 = 0 ∧ v.getLsbD 3 = true ∧ v.getLsbD 4 = false ∧ k = bitsOf v 0 3 ∧ source = 0) ∨
      (∃ g, c = .overrideGpioAssert g now ∧ s.ovrGpio g = true ∧ k = s.fld Reg.INL_OVR_CTRL_GPIO_SET ∧ source = 2) →
    ∃ t, exec c s = .next t ∧ t.fld Reg.INL_OVR_STATUS_ACTIVE = 1 ∧ t.fld Reg.INL_OVR_STATUS_ACTIVE_SET = k % 8 ∧
      t.fld Reg.INL_OVR_STATUS_SOURCE = source ∧
      (∀ cv, t.cv cv = { s.cv cv with switch := (t.cv cv).switch }) ∧
      (∀ cv e, (cv, e) ∈ s.canvases → (∃ l, (cv, l) ∈ (s.ovrSet k).canvases) → (t.cv cv).switch = some (some k)) ∧
      (∀ cv e, (cv, e) ∈ s.canvases → (∀ l, (cv, l) ∉ (s.ovrSet k).canvases) → (s.cv cv).ovr.isSome ∨ (s.cv cv).switch.isSome →
        (t.cv cv).switch = some none) ∧
      Touches (s.at now) t (fun b => { b with canvases := t.canvases, restore := t.restore })) ∧
  (∀ (s : State) (now : Nat) (c : Instr),
    (∃ v : Word, c = .overrideReleaseWrite v now ∧ s.pd 6 = 0 ∧ v.getLsbD 4 = true ∧ v.getLsbD 3 = false) ∨
      (∃ g, c = .overrideGpioDeassert g now ∧ s.ovrGpio g = true ∧ s.on Reg.INL_OVR_CTRL_GPIO_RELEASE = true) →
    s.on Reg.INL_OVR_STATUS_ACTIVE = true →
    ∃ t, exec c s = .next t ∧ t.fld Reg.INL_OVR_STATUS_ACTIVE = 0 ∧
      (∀ cv, t.cv cv = { s.cv cv with
        switch := if (s.cv cv).ovr.isSome || (s.cv cv).switch.isSome then some none else (s.cv cv).switch }) ∧
      Touches (s.at now) t (fun b => { b with canvases := t.canvases, restore := t.restore })) ∧
  (∀ (s : State) (cv now : Nat), (s.at now).anyStale (s.cv cv) = true →
    ∃ t, exec (.layerStale cv now) s = .next t ∧ t.cv cv = { s.cv cv with stale := true } ∧ OtherCanvases s t cv ∧
      { t with canvases := s.canvases } = s.at now)

/-- ENABLE holds only for a mode that passes its checks. A head whose link is trained starts its frame with the newest picture whose first
band is written, locked where its phase is within 1 us; each frame sent counts and emits VBLANK. Without HPD the head sends nothing; its
return trains the link again, and a training that fails sets LINK_FAIL. (Where the spec leaves a choice, the model's: log entry 83.) -/
def Obligations.HeadsSendFrames : Prop :=
  ∀ (s : State) (d : Nat), s.hasHead d = true → d < 4 →
    (∀ v : Word, s.pd 5 = 0 → let s' := s.plainWrite (0xA8000 + 0x400 * d) v 0 [0]
      ∃ t, exec (.headEnable d v) s = .next t ∧
        (v.getLsbD 0 = false → t.fld (Reg.DP_CTRL_ENABLE d) = 0 ∧ t.fld (Reg.DP_STATUS_LINK_UP d) = 0) ∧
        (v.getLsbD 0 = true → s.on (Reg.DP_CTRL_ENABLE d) = false → s'.modeOk d = true →
          t.fld (Reg.DP_CTRL_ENABLE d) = 1 ∧ t.fld (Reg.DP_STATUS_MODE_REFUSED d) = 0) ∧
        (v.getLsbD 0 = true → s.on (Reg.DP_CTRL_ENABLE d) = false → s'.modeOk d = false →
          t.fld (Reg.DP_CTRL_ENABLE d) = 0 ∧ t.fld (Reg.DP_STATUS_MODE_REFUSED d) = 1) ∧
        (∀ h, h ≠ d → t.head h = s.head h) ∧ { t with flds := s.flds, heads := s.heads, restore := s.restore } = s ∧
        ∀ g : Fld, g.a ≠ 0xA8000 + 0x400 * d → g.lo < 32 → g.key ≠ (Reg.DP_STATUS_MODE_REFUSED d).key → g.key ≠ (Reg.DP_NVID_NVID d).key →
          g.key ≠ (Reg.DP_STATUS_LINK_UP d).key → g.key ≠ (Reg.DP_STATUS_GENLOCKED d).key → t.fld g = s.fld g) ∧
    (∀ (err : Int) (now : Nat), s.on (Reg.DP_CTRL_ENABLE d) = true → (s.head d).resume = true ∨ s.on (Reg.DP_STATUS_LINK_UP d) = true →
      let locked := s.on Reg.RNG_PTP_STATUS_LOCKED
      ∃ t, exec (.headFrameStart d err now) s = .next t ∧ t.fld (Reg.DP_STATUS_LINK_UP d) = 1 ∧
        (t.fld (Reg.DP_STATUS_GENLOCKED d) = 1 ↔ -1000 ≤ err ∧ err ≤ 1000) ∧ (t.head d).shown = (s.scanPic d).map (fun p => p.1) ∧
        (t.head d).before = (s.head d).shown ∧ (t.head d).torn = false ∧ (t.head d).frameAt = max s.time now ∧
        (locked = true → 1000000 < err ∨ err < -1000000 → Counted s t (Cnt.DP_RESYNCS d) 1 ∧ t.fld (Reg.DP_MVID_MVID d) = s.fld (Reg.DP_MVID_MVID d)) ∧
        (locked = false → t.fld (Reg.DP_MVID_MVID d) = s.mvidNominal d % 2 ^ (Reg.DP_MVID_MVID d).w) ∧
        (∀ h, h ≠ d → t.head h = s.head h) ∧
        OnlyRegs { s.at now with heads := t.heads, freeCtr := s.freeCtr + 1 } t
          [Reg.DP_STATUS_LINK_UP d, Reg.DP_GENLOCK_ERR_NS d, Reg.DP_STATUS_GENLOCKED d, Reg.DP_MVID_MVID d] [Cnt.DP_RESYNCS d]) ∧
    (s.on (Reg.DP_CTRL_ENABLE d) = true → s.on (Reg.DP_STATUS_LINK_UP d) = true →
      ∃ t, exec (.vblank d) s = .next t ∧ Counted s t (Cnt.DP_FRAMES d) 1 ∧ ((s.cv d).cur = none → t.heads = s.heads) ∧
        (∀ p, (s.cv d).cur = some p → s.scanning d p.c = true → (t.head d).torn = true ∧ Counted s t (Cnt.DP_TEARS d) 1) ∧
        Frame { s with heads := t.heads } t [] [Cnt.DP_FRAMES d, Cnt.DP_TEARS d]) ∧
    (∃ t, exec (.hpdLoss d) s = .next t ∧ t.fld (Reg.DP_STATUS_HPD d) = 0 ∧ t.fld (Reg.DP_STATUS_LINK_UP d) = 0 ∧
      (s.on (Reg.DP_CTRL_ENABLE d) = true → t.fld (Reg.DP_STATUS_LINK_FAIL d) = 1) ∧ t.head d = { s.head d with resume := false } ∧
      (∀ h, h ≠ d → t.head h = s.head h) ∧
      Frame { s with heads := t.heads } t
        [Reg.DP_STATUS_HPD d, Reg.DP_STATUS_LINK_UP d, Reg.DP_STATUS_GENLOCKED d, Reg.DP_STATUS_LINK_FAIL d] []) ∧
    (∀ edid, ∃ t, exec (.hpdReturn d edid) s = .next t ∧ t.fld (Reg.DP_STATUS_HPD d) = 1 ∧
      t.head d = { s.head d with edid := (edid.take 256).map (fun b => b % 256) } ∧ (∀ h, h ≠ d → t.head h = s.head h) ∧
      OnlyRegs { s with heads := t.heads } t [Reg.DP_STATUS_HPD d] []) ∧
    (∀ (ok : Bool) (rate lanes : Nat), s.on (Reg.DP_CTRL_ENABLE d) = true → s.on (Reg.DP_STATUS_HPD d) = true →
      ∃ t, exec (.linkTrainingDone d ok rate lanes) s = .next t ∧ (t.head d).trainings = (s.head d).trainings + 1 ∧
        (0 < (s.head d).trainings → Counted s t (Cnt.DP_RETRAINS d) 1) ∧
        (ok = true → (t.head d).resume = true ∧ t.fld (Reg.DP_STATUS_RATE d) ≤ rateCode (s.fld (Reg.DP_CTRL_MAX_RATE d)) ∧
          t.fld (Reg.DP_MVID_MVID d) = t.mvidNominal d % 2 ^ (Reg.DP_MVID_MVID d).w) ∧
        (ok = false → (t.head d).resume = false ∧ t.fld (Reg.DP_STATUS_LINK_UP d) = 0 ∧ t.fld (Reg.DP_STATUS_LINK_FAIL d) = 1) ∧
        (∀ h, h ≠ d → t.head h = s.head h) ∧
        Frame { s with heads := t.heads } t
          [Reg.DP_STATUS_RATE d, Reg.DP_STATUS_LANES d, Reg.DP_MVID_MVID d, Reg.DP_STATUS_LINK_UP d, Reg.DP_STATUS_GENLOCKED d,
            Reg.DP_STATUS_LINK_FAIL d] [Cnt.DP_RETRAINS d])

/-! ## Events and faults -/

/-- Sink k lets a pulse of source x pass: it is enabled, selects x, and its divide counter stands at 0. -/
def passes (s : State) (x k : Nat) : Bool :=
  s.on (Reg.EVM_SINK_EN k) && s.fld (Reg.EVM_SINK_SOURCE k) = x && tget 0 s.evm.div k = 0

/-- The state of a Bellwether source after a pulse. -/
def pulsed (st : Nat) : Nat := if st = 0 then 1 else if st = 2 then 3 else st

/-- One pulse of source x has left every sink that lets it pass: each selected sink's divide counter advances, and what lies behind a sink
(a Bellwether source, a GPIO output, a core's event input, a stamp) takes one pulse; nothing else differs but vectors and messages. -/
structure PulseReaches (s t : State) (x : Nat) : Prop where
  div : ∀ k < 256, let c := tget 0 s.evm.div k
    tget 0 t.evm.div k = if s.on (Reg.EVM_SINK_EN k) = true ∧ s.fld (Reg.EVM_SINK_SOURCE k) = x then
      (if c < s.fld (Reg.EVM_SINK_DIV k) then c + 1 else 0) else c
  bellwether : ∀ k < 192, t.bst k = if passes s x k then pulsed (s.bst k) else s.bst k
  gpio : ∀ g < 16, tget false t.evm.gpioHigh g =
    ((passes s x (192 + g) && (s.fld Reg.EVM_GPIO_DIR_DIR).testBit g) || tget false s.evm.gpioHigh g)
  cores : ∀ n < 32, tget 0 t.evm.coreEvt n = tget 0 s.evm.coreEvt n + if passes s x (208 + n) then 1 else 0
  stamps : ∀ j < 16, tget stamp0 t.evm.stamps j = if passes s x (240 + j) then
      ⟨s.ptpNs % 1000000000, s.ptpNs / 1000000000 % 2 ^ 32, (tget stamp0 s.evm.stamps j).valid, true⟩
    else tget stamp0 s.evm.stamps j
  flds : ∀ g : Fld, (∀ k < 192, g.key ≠ (Reg.BWT_SRC_CFG_STATE k).key) → t.fld g = s.fld g
  cnts : ∀ c, eventCnt c = false → t.cnt c = s.cnt c
  rest : t.body = s.body ∧ t.flt = s.flt

/-- Pulses of the sources of a list have reached their sinks one after another. -/
inductive PulsesReach : List Nat → State → State → Prop where
  | none (s : State) : PulsesReach [] s s
  | more (x : Nat) (l : List Nat) (s u t : State) : PulseReaches s u x → PulsesReach l u t → PulsesReach (x :: l) s t

/-- Each bit set in a word written to EVM_SW_PULSE pulses its source, and so does a delivery of a crossing: the pulse reaches the sinks that select
its source. A crossing that is busy holds one more pulse and merges further ones; its delivery sends the held one; in RESET a pulse of an input is
dropped and counted, and in ABSENT it does nothing. (Where the spec leaves a choice, the model's: log entries 18, 19.) -/
def pulsesReachSinks : Prop :=
  (∀ (s : State) (hi : Bool) (b : Nat), b < 32 →
    ∃ t, exec (.swFencePulse hi (BitVec.ofNat 32 (2 ^ b))) s = .next t ∧ PulseReaches s t (192 + (if hi then 32 else 0) + b) ∧
      t.evm.xing = s.evm.xing) ∧
  (∀ (s : State) (hi : Bool) (v : Word), ∃ t, exec (.swFencePulse hi v) s = .next t ∧ t.evm.xing = s.evm.xing ∧
    PulsesReach (((upTo 0 32).filter (fun b => v.toNat.testBit b)).map (fun b => 192 + (if hi then 32 else 0) + b)) s t) ∧
  (∀ (s : State) (x : Nat),
    (tget .idle s.evm.xing x = .idle → exec (.crossingDelivery x) s = .next s) ∧
    (tget .idle s.evm.xing x ≠ .idle → ∃ t, exec (.crossingDelivery x) s = .next t ∧
      (sourcePresent s.part x = true → PulseReaches s t x) ∧
      (sourcePresent s.part x = false → { t with evm := { t.evm with xing := s.evm.xing } } = s) ∧
      tget .idle t.evm.xing x = (if tget .idle s.evm.xing x = .busy then .idle else .busy) ∧
      ∀ y, y ≠ x → tget .idle t.evm.xing y = tget .idle s.evm.xing y)) ∧
  (∀ (s : State) (g : Nat), g < 16 →
    ((s.fld Reg.EVM_GPIO_DIR_DIR).testBit g = true → exec (.gpioInputEdge g) s = .next s) ∧
    ((s.fld Reg.EVM_GPIO_DIR_DIR).testBit g = false → s.mode = 0 → exec (.gpioInputEdge g) s = .next s) ∧
    ((s.fld Reg.EVM_GPIO_DIR_DIR).testBit g = false → s.mode = 1 → ∃ t, exec (.gpioInputEdge g) s = .next t ∧
      t.fld (Reg.EVM_SRC_STAT_DROPPED (161 + g)) = min 32767 (s.fld (Reg.EVM_SRC_STAT_DROPPED (161 + g)) + 1) ∧
      OnlyRegs s t [Reg.EVM_SRC_STAT_DROPPED (161 + g)] []) ∧
    ((s.fld Reg.EVM_GPIO_DIR_DIR).testBit g = false → 1 < s.mode →
      (tget .idle s.evm.xing (161 + g) ≠ .busyPending → ∃ t, exec (.gpioInputEdge g) s = .next t ∧
        tget .idle t.evm.xing (161 + g) = (if tget .idle s.evm.xing (161 + g) = .idle then .busy else .busyPending) ∧
        (∀ y, y ≠ 161 + g → tget .idle t.evm.xing y = tget .idle s.evm.xing y) ∧
        { t with evm := { t.evm with xing := s.evm.xing } } = s) ∧
      (tget .idle s.evm.xing (161 + g) = .busyPending → ∃ t, exec (.gpioInputEdge g) s = .next t ∧
        t.fld (Reg.EVM_SRC_STAT_MERGED (161 + g)) = min 65535 (s.fld (Reg.EVM_SRC_STAT_MERGED (161 + g)) + 1) ∧
        OnlyRegs s t [Reg.EVM_SRC_STAT_MERGED (161 + g)] [])))

/-- A sink's configuration restarts its divide counter, and locked it keeps still; a GPIO output whose sink is not enabled, or whose pin
becomes an input, drives low, and a pulse of an output ends; a read of a stamp's first word returns it, keeps the second for its
requester, and clears VALID and OVERWRITTEN. (Where the spec leaves a choice, the model's: log entry 20.) -/
def sinksAndStamps : Prop :=
  (∀ (s : State) (k : Nat) (v : Word), k < 256 →
    (s.on Reg.EVM_CTRL_LOCK = true → exec (.sinkWrite k v) s = .next s) ∧
    (s.on Reg.EVM_CTRL_LOCK = false → ∃ t, exec (.sinkWrite k v) s = .next t ∧ t.fld (Reg.EVM_SINK_SOURCE k) = bitsOf v 0 8 ∧
      t.fld (Reg.EVM_SINK_EN k) = bitsOf v 8 1 ∧ t.fld (Reg.EVM_SINK_DIV k) = bitsOf v 16 8 ∧ tget 0 t.evm.div k = 0 ∧
      (∀ j, j ≠ k → tget 0 t.evm.div j = tget 0 s.evm.div j) ∧
      (∀ g, tget false t.evm.gpioHigh g = if k = 192 + g ∧ g < 16 ∧ bitsOf v 8 1 = 0 then false else tget false s.evm.gpioHigh g) ∧
      OnlyRegs { s with evm := { s.evm with div := t.evm.div, gpioHigh := t.evm.gpioHigh } } t
        [Reg.EVM_SINK_SOURCE k, Reg.EVM_SINK_EN k, Reg.EVM_SINK_DIV k] [])) ∧
  (∀ (s : State) (v : Word), ∃ t, exec (.gpioDirWrite v) s = .next t ∧
    t.fld Reg.EVM_GPIO_DIR_DIR = (if s.on Reg.EVM_CTRL_LOCK then s.fld Reg.EVM_GPIO_DIR_DIR else bitsOf v 0 16) ∧
    (∀ g, tget false t.evm.gpioHigh g = ((t.fld Reg.EVM_GPIO_DIR_DIR).testBit g && tget false s.evm.gpioHigh g)) ∧
    OnlyRegs { s with evm := { s.evm with gpioHigh := t.evm.gpioHigh } } t [Reg.EVM_GPIO_DIR_DIR] []) ∧
  (∀ (s : State) (g : Nat), ∃ t, exec (.gpioPulseEnd g) s = .next t ∧
    (∀ h, tget false t.evm.gpioHigh h = if h = g then false else tget false s.evm.gpioHigh h) ∧
    { t with evm := { t.evm with gpioHigh := s.evm.gpioHigh } } = s) ∧
  (∀ (s : State) (rq : Requester) (j : Nat), j < 16 → let x := tget stamp0 s.evm.stamps j
    ∃ t, exec (.stampRead rq j) s = .next t ∧
      t.resp = some ⟨rq, 0x40C00 + 8 * j, BitVec.ofNat 32 (x.ns + (if x.above then 2 ^ 30 else 0) + (if x.valid then 2 ^ 31 else 0))⟩ ∧
      t.snap rq (0x40C00 + 8 * j + 4) = x.secs ∧ tget stamp0 t.evm.stamps j = { x with above := false, valid := false } ∧
      (∀ i, i ≠ j → tget stamp0 t.evm.stamps i = tget stamp0 s.evm.stamps i) ∧
      (∀ r a, r ≠ rq → a < 2 ^ 28 → t.snap r a = s.snap r a) ∧
      { t with resp := s.resp, snaps := s.snaps, evm := { t.evm with stamps := s.evm.stamps } } = s)

/-- The event matrix. -/
def Obligations.PulsesReachTheirSinks : Prop := pulsesReachSinks ∧ sinksAndStamps

/-- Only what the Bellwether holds of source x, and its counters, vectors and messages, differ. -/
def OnlySource (s t : State) (x : Nat) : Prop :=
  Frame s t [Reg.BWT_SRC_CFG_STATE x] [] ∧ (∀ y < 1024, y ≠ x → t.bst y = s.bst y) ∧ t.evm = s.evm ∧ t.flt = s.flt ∧ t.mode = s.mode

/-- The source that another target claims in the same cycle, where that target is the one that its TARGET names. -/
def RivalTakes (s : State) (t₀ : Nat) (rival : Option Nat) (y : Nat) : Prop :=
  ∃ r, rival = some r ∧ r ≠ t₀ ∧ s.bestClaim r [] = some y ∧ s.fld (Reg.BWT_SRC_CFG_TARGET y) = r

/-- A pulse takes a source from INACTIVE to PENDING and from ACTIVE to ACTIVE_PENDING. A claim by a target's owner returns its best
claimable source (highest priority, lowest number) but one that a target claims in the same cycle which the source's TARGET names, makes it ACTIVE
and puts it on the target's stack; with none it returns 0. A claim sees no pulse of its own cycle that an INACTIVE source takes. An end of the top of
the stack pops it, a pulse of the cycle applying as well; any other end is refused, and so is every access by another requester.
(Where the spec leaves a choice, the model's: log entry 22.) -/
def sourcesAndClaims : Prop :=
  (∀ (s : State) (x : Nat), x < 1024 → ∃ t, exec (.bwtSourcePulse x) s = .next t ∧ t.bst x = pulsed (s.bst x) ∧ t.nests = s.nests ∧
    OnlySource s t x) ∧
  (∀ (s : State) (l : List Nat) (y : Nat), y < 1024 → (s.bwtPulses l).bst y = if y ∈ l then pulsed (s.bst y) else s.bst y) ∧
  (∀ (s : State) (rq : Requester) (t₀ : Nat) (l : List Nat) (rival : Option Nat), t₀ < 5 →
    (owns rq t₀ = false → ∃ u, exec (.bwtClaim rq t₀ [] rival) s = .next u ∧ exec (.bwtClaim rq t₀ l rival) s = .next (u.bwtPulses l)) ∧
    (owns rq t₀ = true → ∃ u, exec (.bwtClaim rq t₀ [] rival) (s.bwtPulses (l.filter (fun x => s.bst x ≠ 0))) = .next u ∧
      exec (.bwtClaim rq t₀ l rival) s = .next (u.bwtPulses (l.filter (fun x => s.bst x = 0))))) ∧
  (∀ (s : State) (rq : Requester) (t₀ : Nat) (rival : Option Nat), t₀ < 5 →
    (owns rq t₀ = false → ∃ t, exec (.bwtClaim rq t₀ [] rival) s = .next t ∧ t.fld Reg.BWT_FAULT_FOREIGN = 1 ∧
      t.resp = some ⟨rq, 0x44040 + 4 * t₀, 0⟩ ∧ OnlyRegs { s with resp := t.resp } t [Reg.BWT_FAULT_FOREIGN] []) ∧
    (owns rq t₀ = true → (∀ y < 1024, s.claimable t₀ y = true → RivalTakes s t₀ rival y) →
      ∃ t, exec (.bwtClaim rq t₀ [] rival) s = .next t ∧ t.resp = some ⟨rq, 0x44040 + 4 * t₀, 0⟩ ∧ { t with resp := s.resp } = s) ∧
    (owns rq t₀ = true → (∃ y < 1024, s.claimable t₀ y = true ∧ ¬ RivalTakes s t₀ rival y) →
      ∃ t x, exec (.bwtClaim rq t₀ [] rival) s = .next t ∧ x < 1024 ∧ s.claimable t₀ x = true ∧ ¬ RivalTakes s t₀ rival x ∧
        let p := s.fld (Reg.BWT_SRC_CFG_PRIORITY x)
        (∀ y < 1024, s.claimable t₀ y = true → ¬ RivalTakes s t₀ rival y →
          s.fld (Reg.BWT_SRC_CFG_PRIORITY y) < p ∨ (s.fld (Reg.BWT_SRC_CFG_PRIORITY y) = p ∧ x ≤ y)) ∧
        t.resp = some ⟨rq, 0x44040 + 4 * t₀, BitVec.ofNat 32 (x + p * 2 ^ 10 + 2 ^ 31)⟩ ∧ t.bst x = 2 ∧
        t.fld (Reg.BWT_SRC_CFG_OWNER x) = t₀ ∧ t.stack t₀ = (x, p) :: s.stack t₀ ∧ (∀ u, u ≠ t₀ → t.stack u = s.stack u) ∧
        Counted s t Cnt.BWT_CLAIMS 1 ∧
        OnlyRegs { s with resp := t.resp, nests := t.nests } t [Reg.BWT_SRC_CFG_STATE x, Reg.BWT_SRC_CFG_OWNER x]
          [Cnt.BWT_CLAIMS, Cnt.BWT_FALLBACK_CLAIMS])) ∧
  (∀ (s : State) (rq : Requester) (t₀ : Nat) (v : Word), ∃ t, exec (.bwtEoi rq t₀ v false) (s.bwtPulse (bitsOf v 0 10)) = .next t ∧
    exec (.bwtEoi rq t₀ v true) s = .next t) ∧
  (∀ (s : State) (rq : Requester) (t₀ : Nat) (v : Word), t₀ < 5 → let x := bitsOf v 0 10
    (owns rq t₀ = false → ∃ t, exec (.bwtEoi rq t₀ v false) s = .next t ∧ t.fld Reg.BWT_FAULT_FOREIGN = 1 ∧
      OnlyRegs s t [Reg.BWT_FAULT_FOREIGN] []) ∧
    (owns rq t₀ = true → (∀ p r, s.stack t₀ ≠ (x, p) :: r) → ∃ t, exec (.bwtEoi rq t₀ v false) s = .next t ∧
      (t.fld Reg.BWT_FAULT_EOI_ORDER).testBit t₀ = true ∧ t.nests = s.nests ∧ Counted s t Cnt.BWT_EOI_REFUSED 1 ∧ Frame s t [] []) ∧
    (∀ p r, owns rq t₀ = true → s.stack t₀ = (x, p) :: r → ∃ t, exec (.bwtEoi rq t₀ v false) s = .next t ∧ t.stack t₀ = r ∧
      (∀ u, u ≠ t₀ → t.stack u = s.stack u) ∧ t.bst x = (if s.bst x = 3 then 1 else 0) ∧ OnlySource { s with nests := t.nests } t x))

/-- A software pulse reaches only the sources that its requester may set; a clear takes back what is PENDING, unless a pulse of the cycle wins; a source's configuration takes
its written fields, and a PENDING one that now goes to the host counts one event. A target that goes offline loses its stack, whose sources
are PENDING again. (Where the spec leaves a choice, the model's: log entry 21.) -/
def softwareAndTargets : Prop :=
  (∀ (s : State) (rq : Requester) (v : Word), let x := bitsOf v 0 10
    (maySet rq x = true → ∃ t, exec (.bwtSet rq v) s = .next t ∧ t.bst x = pulsed (s.bst x) ∧ t.nests = s.nests ∧ OnlySource s t x) ∧
    (maySet rq x = false → ∃ t, exec (.bwtSet rq v) s = .next t ∧ t.fld Reg.BWT_FAULT_FOREIGN = 1 ∧
      OnlyRegs s t [Reg.BWT_FAULT_FOREIGN] [])) ∧
  (∀ (s : State) (v : Word), let x := bitsOf v 0 10
    ∃ t, exec (.bwtClear v false) s = .next t ∧ t.bst x = (if s.bst x = 1 then 0 else if s.bst x = 3 then 2 else s.bst x) ∧
      OnlyRegs s t [Reg.BWT_SRC_CFG_STATE x] []) ∧
  (∀ (s : State) (v : Word), let x := bitsOf v 0 10
    ∃ t, exec (.bwtClear v true) s = .next t ∧ t.bst x = pulsed (s.bst x) ∧ t.nests = s.nests ∧ OnlySource s t x) ∧
  (∀ (s : State) (x : Nat) (v : Word), x < 1024 →
    ∃ t, exec (.bwtSrcCfgWrite x v) s = .next t ∧ t.fld (Reg.BWT_SRC_CFG_PRIORITY x) = bitsOf v 0 4 ∧
      t.fld (Reg.BWT_SRC_CFG_TARGET x) = bitsOf v 4 3 ∧ t.fld (Reg.BWT_SRC_CFG_FALLBACK x) = bitsOf v 7 3 ∧
      t.fld (Reg.BWT_SRC_CFG_VECTOR x) = bitsOf v 10 6 ∧ t.fld (Reg.BWT_SRC_CFG_ENABLE x) = bitsOf v 16 1 ∧
      (∀ y < 1024, t.bst y = s.bst y) ∧
      (s.bst x = 1 → bitsOf v 4 3 = 4 → bitsOf v 16 1 = 1 → s.offline 4 = false →
        ¬ (s.on (Reg.BWT_SRC_CFG_ENABLE x) = true ∧ s.fld (Reg.BWT_SRC_CFG_TARGET x) = 4) → Counted s t Cnt.BWT_TH_EVENTS 1) ∧
      Frame s t [] []) ∧
  (∀ (s : State) (t₀ : Nat), t₀ < 5 → s.offline t₀ = false → (∀ e ∈ s.stack t₀, e.1 < 1024) →
    ∃ t, exec (.targetOffline t₀) s = .next t ∧ t.offline t₀ = true ∧ t.stack t₀ = [] ∧ (∀ u, u ≠ t₀ → t.stack u = s.stack u) ∧
      (∀ x < 1024, t.bst x = if (s.stack t₀).any (fun e => e.1 = x) then 1 else s.bst x) ∧
      (s.stack t₀ ≠ [] → Counted s t Cnt.BWT_REQUEUED (s.stack t₀).length) ∧ Frame { s with nests := t.nests } t [] []) ∧
  (∀ (s : State) (t₀ : Nat), t₀ < 5 → s.offline t₀ = true →
    ∃ t, exec (.targetOnline t₀) s = .next t ∧ t.offline t₀ = false ∧ (∀ x < 1024, t.bst x = s.bst x) ∧ Frame s t [] [])

/-- The Bellwether. -/
def Obligations.BellwetherRoutesSources : Prop := sourcesAndClaims ∧ softwareAndTargets

/-- A rising edge of a present source sets its sticky bit with a log entry, pulses its Bellwether source where IRQ is set, and enters HOLD
where HOLD is; while the bit is 1 it merges. A write of 1 clears a sticky or broken bit whose cause is gone, and is refused else.
(Where the spec leaves a choice, the model's: log entries 17, 24, 26.) -/
def edgesAndClears : Prop :=
  (∀ (s : State) (k now : Nat), faultPresent s.part k = true → k ≠ 115 →
    (s.fltSticky k = false → ∃ t, exec (.faultEdge k now) s = .next t ∧ t.fltSticky k = true ∧ (∀ j, j ≠ k → t.fltSticky j = s.fltSticky j) ∧
      (∃ e, tget logEnt0 t.flt.log s.flt.logWr = e ∧ e.source = k ∧ e.valid = true ∧ e.time = max s.time now % 2 ^ 32 ∧
        e.injected = false) ∧
      t.flt.logWr = (s.flt.logWr + 1) % 64 ∧
      (s.on (fltIrq k) = true → t.bst (256 + k) = pulsed (s.bst (256 + k))) ∧
      (s.holdSet k = true → 5 ≤ s.mode → s.mode ≤ 10 → t.mode = 9) ∧ (s.holdSet k = false → t.mode = s.mode) ∧
      Counted s t Cnt.FLT_SETS 1 ∧ Frame (s.at now) t [] []) ∧
    (s.fltSticky k = true → ∃ t, exec (.faultEdge k now) s = .next t ∧
      t.flt = { s.flt with count := tset 0 s.flt.count k (min 255 (tget 0 s.flt.count k + 1)) } ∧ Counted s t Cnt.FLT_MERGED 1 ∧
      OnlyRegs { s.at now with flt := t.flt } t [] [Cnt.FLT_MERGED])) ∧
  (∀ (s : State) (now : Nat), ∃ t, exec (.faultEdge 115 now) s = .next t ∧ t.fld Reg.HIF_FAULT_AER_UNCORR = 1 ∧
    (s.asserted 115 = false → t.fltSticky 115 = true) ∧ Frame (s.at now) t [Reg.HIF_FAULT_AER_UNCORR] []) ∧
  (∀ (s : State) (k now : Nat), faultPresent s.part k = false → k ≠ 115 → exec (.faultEdge k now) s = .next (s.at now)) ∧
  (∀ (s : State) (i : Nat) (v : Word), i < 16 →
    let named (k : Nat) : Prop := k / 32 = i ∧ v.toNat.testBit (k % 32) = true
    let gone (k : Nat) : Prop := s.cause k = false ∧ s.fltBroken k = false
    let stays (l : Nat → Bool) : Nat :=
      ((upTo 0 32).filter (fun b => v.toNat.testBit b && l (32 * i + b) && (s.cause (32 * i + b) || s.fltBroken (32 * i + b)))).length
    (∀ (edges : List Nat) (now : Nat), ∃ u, exec (.stickyClear i v edges now) s = .next (u.faultEdges edges) ∧
      (∀ k, (named k ∧ s.fltSticky k = true ∧ gone k → u.fltSticky k = false ∧ tget 0 u.flt.count k = 0) ∧
        (¬ (named k ∧ s.fltSticky k = true ∧ gone k) → u.fltSticky k = s.fltSticky k ∧ tget 0 u.flt.count k = tget 0 s.flt.count k)) ∧
      (0 < stays s.fltSticky → Counted s u Cnt.FLT_CLEAR_REFUSED (stays s.fltSticky)) ∧
      OnlyRegs { s.at now with flt := { s.flt with sticky := u.flt.sticky, count := u.flt.count } } u [] [Cnt.FLT_CLEAR_REFUSED]) ∧
    (∃ t, exec (.brokenClear i v) s = .next t ∧
      (∀ k, tget false t.flt.latched k = if named k ∧ gone k then false else tget false s.flt.latched k) ∧
      (0 < stays (tget false s.flt.latched) → Counted s t Cnt.FLT_CLEAR_REFUSED (stays (tget false s.flt.latched))) ∧
      OnlyRegs { s with flt := { s.flt with latched := t.flt.latched } } t [] [Cnt.FLT_CLEAR_REFUSED])) ∧
  (∀ (s : State) (i b now : Nat), i < 16 → b < 32 → let k := 32 * i + b
    let v := BitVec.ofNat 32 (2 ^ b)
    (s.fltSticky k = false → exec (.stickyClear i v [] now) s = .next (s.at now)) ∧
    (s.fltSticky k = true → s.cause k = false → s.fltBroken k = false →
      ∃ t, exec (.stickyClear i v [] now) s = .next t ∧ t.fltSticky k = false ∧ tget 0 t.flt.count k = 0 ∧
        (∀ j, j ≠ k → t.fltSticky j = s.fltSticky j ∧ tget 0 t.flt.count j = tget 0 s.flt.count j) ∧
        { t with flt := { t.flt with sticky := s.flt.sticky, count := s.flt.count } } = s.at now) ∧
    (s.fltSticky k = true → s.cause k = true ∨ s.fltBroken k = true →
      ∃ t, exec (.stickyClear i v [] now) s = .next t ∧ Counted s t Cnt.FLT_CLEAR_REFUSED 1 ∧
        OnlyRegs (s.at now) t [] [Cnt.FLT_CLEAR_REFUSED]) ∧
    (s.fltSticky k = true → s.cause k = false → s.fltBroken k = false → faultPresent s.part k = true →
      ∃ t, exec (.stickyClear i v [k] now) s = .next t ∧ t.fltSticky k = true ∧ (tget logEnt0 t.flt.log s.flt.logWr).source = k) ∧
    (tget false s.flt.latched k = true → s.cause k = false → s.fltBroken k = false →
      ∃ t, exec (.brokenClear i v) s = .next t ∧ tget false t.flt.latched k = false ∧
        (∀ j, j ≠ k → tget false t.flt.latched j = tget false s.flt.latched j) ∧
        { t with flt := { t.flt with latched := s.flt.latched } } = s) ∧
    (tget false s.flt.latched k = true → s.cause k = true ∨ s.fltBroken k = true →
      ∃ t, exec (.brokenClear i v) s = .next t ∧ Counted s t Cnt.FLT_CLEAR_REFUSED 1 ∧ OnlyRegs s t [] [Cnt.FLT_CLEAR_REFUSED]))

/-- A pair that is invalid for eight cycles, or does not invert at its test, is broken: it counts as asserted, its FLT_BROKEN bit sets and
FS001 has an edge; a pair that inverts passes its test, and a restored pair is no longer broken. A read of a log entry's first word returns it,
keeps the second for its requester, and marks the entry read. (Where the spec leaves a choice, the model's: log entries 23, 24.) -/
def wiresAndLog : Prop :=
  (∀ (s : State) (k now : Nat) (c : Instr), c = .wireBroken k now ∨ c = .wireTest k false now → faultPresent s.part k = true →
    s.fltBroken k = false →
    ∃ t, exec c s = .next t ∧ t.fltBroken k = true ∧ tget false t.flt.latched k = true ∧ t.asserted k = true ∧ t.fltSticky 1 = true ∧
      (s.asserted k = false → t.fltSticky k = true) ∧ Counted s t Cnt.FLT_BROKEN 1 ∧
      (∀ j, j ≠ k → t.fltBroken j = s.fltBroken j ∧ tget false t.flt.latched j = tget false s.flt.latched j) ∧ Frame (s.at now) t [] []) ∧
  (∀ (s : State) (k now : Nat), exec (.wireTest k true now) s = .next (s.at now) ∧
    (faultPresent s.part k = false ∨ s.fltBroken k = true →
      exec (.wireTest k false now) s = .next (s.at now) ∧ exec (.wireBroken k now) s = .next (s.at now))) ∧
  (∀ (s : State) (k : Nat), ∃ t, exec (.wireRestored k) s = .next t ∧ t.fltBroken k = false ∧ (∀ j, j ≠ k → t.fltBroken j = s.fltBroken j) ∧
    { t with flt := { t.flt with broken := s.flt.broken } } = s) ∧
  (∀ (s : State) (rq : Requester) (e : Nat), e < 64 → let x := tget logEnt0 s.flt.log e
    ∃ t, exec (.logRead rq e) s = .next t ∧ t.resp = some ⟨rq, 0x30200 + 8 * e, BitVec.ofNat 32 (logWord x)⟩ ∧
      t.snap rq (0x30200 + 8 * e + 4) = x.time ∧ tget logEnt0 t.flt.log e = { x with unread := false } ∧
      (∀ i, i ≠ e → tget logEnt0 t.flt.log i = tget logEnt0 s.flt.log i) ∧
      { t with resp := s.resp, snaps := s.snaps, flt := { t.flt with log := s.flt.log } } = s)

/-- Injection acts only in the life-cycle states FACTORY and RETURNED, and not while ARM reads 1. An asserted source has an edge marked as
injected; a wire held of a source that is asserted breaks its pair; the other kinds arm, with their kind, target and address. -/
def injectionActs : Prop :=
  (∀ (s : State) (v : Word) (now : Nat), (s.testLife = false ∨ s.on Reg.FLT_INJECT_CTRL_ARM = true) →
    (∀ c, c = .injectAssert v now ∨ c = .injectBreakF v now ∨ c = .injectBreakFn v now → exec c s = .next (s.at now)) ∧
    ∀ c, c = .injectDramCe v ∨ c = .injectDramUe v ∨ c = .injectCsFlip v ∨ c = .injectCsFlip2 v ∨ c = .injectBsqParity v →
      exec c s = .next s) ∧
  (∀ (s : State) (v : Word) (now : Nat), s.testLife = true → s.on Reg.FLT_INJECT_CTRL_ARM = false → v.getLsbD 13 = true →
    let k := bitsOf v 4 9
    (bitsOf v 0 4 = 0 → faultPresent s.part k = true → s.asserted k = false → s.fltSticky k = false →
      ∃ t, exec (.injectAssert v now) s = .next t ∧ t.fltSticky k = true ∧
        (∃ e, tget logEnt0 t.flt.log s.flt.logWr = e ∧ e.source = k ∧ e.injected = true) ∧
        Frame (s.at now) t [Reg.FLT_INJECT_CTRL_KIND, Reg.FLT_INJECT_CTRL_TARGET] []) ∧
    (∀ c, (c = .injectBreakF v now ∧ bitsOf v 0 4 = 1) ∨ (c = .injectBreakFn v now ∧ bitsOf v 0 4 = 2) →
      (s.asserted k = true → s.fltBroken k = false → faultPresent s.part k = true →
        ∃ t, exec c s = .next t ∧ t.fltBroken k = true ∧ t.fltSticky 1 = true ∧
          Frame (s.at now) t [Reg.FLT_INJECT_CTRL_KIND, Reg.FLT_INJECT_CTRL_TARGET] []) ∧
      (s.asserted k = false →
        ∃ t, exec c s = .next t ∧ OnlyRegs (s.at now) t [Reg.FLT_INJECT_CTRL_KIND, Reg.FLT_INJECT_CTRL_TARGET] [])) ∧
    (∀ c n, (c = .injectDramCe v ∧ n = 3) ∨ (c = .injectDramUe v ∧ n = 4) ∨
        (s.hasLathe k = true ∧ ((c = .injectCsFlip v ∧ n = 5) ∨ (c = .injectCsFlip2 v ∧ n = 6) ∨ (c = .injectBsqParity v ∧ n = 7))) →
      bitsOf v 0 4 = n →
      ∃ t, exec c s = .next t ∧ t.fld Reg.FLT_INJECT_CTRL_ARM = 1 ∧
        t.flt.inject = some ⟨n, k, s.fld Reg.FLT_INJECT_ADDR_LO_ADDR * 64 + s.fld Reg.FLT_INJECT_ADDR_HI_ADDR_HI * 2 ^ 32⟩ ∧
        OnlyRegs { s with flt := t.flt } t [Reg.FLT_INJECT_CTRL_KIND, Reg.FLT_INJECT_CTRL_TARGET, Reg.FLT_INJECT_CTRL_ARM] []))

/-- The fault collector. -/
def Obligations.FaultsAreKept : Prop := edgesAndClears ∧ wiresAndLog ∧ injectionActs

/-- From s to t, n fence pulses of bit b have been written to EVM_SW_PULSE, one after another. -/
inductive FencePulses (hi : Bool) (b : Nat) : Nat → State → State → Prop where
  | none (s : State) : FencePulses hi b 0 s s
  | more (n : Nat) (s u t : State) : exec (.swFencePulse hi (BitVec.ofNat 32 (2 ^ b))) s = .next u → FencePulses hi b n u t →
      FencePulses hi b (n + 1) s t

/-- A sink with EN = 1 passes one pulse out of every DIV + 1 pulses of its source, and the first pulse after its register is written is passed
on; with EN = 0 it passes nothing and its counter stands still. Counted at a core's event input, behind sink 208 + c. -/
def Obligations.SinksDivideTheirPulses : Prop :=
  ∀ (s u : State) (hi : Bool) (b c : Nat) (v : Word), b < 32 → c < 32 → s.on Reg.EVM_CTRL_LOCK = false →
    bitsOf v 0 8 = 192 + (if hi then 32 else 0) + b → exec (.sinkWrite (208 + c) v) s = .next u →
    tget 0 u.evm.div (208 + c) = 0 ∧
    (∀ n, ∃ t, FencePulses hi b n u t) ∧
    (∀ n t, FencePulses hi b n u t →
      (v.getLsbD 8 = true → tget 0 t.evm.coreEvt c = tget 0 s.evm.coreEvt c + (n + bitsOf v 16 8) / (bitsOf v 16 8 + 1)) ∧
      (v.getLsbD 8 = false → tget 0 t.evm.coreEvt c = tget 0 s.evm.coreEvt c ∧ tget 0 t.evm.div (208 + c) = 0))

/-! ## Starts, modes and life -/

/-- An input in range starts a module that is off unless MOD_INHIBIT holds it, whose release then starts it: ledger and PTP time begin, and what
DRAM and flash hold stays. Later inputs join and leave the load; without any the module is ABSENT.
(Where the spec leaves a choice, the model's: log entry 108.) -/
def suppliesCarry : Prop :=
  let up (s t : State) : Prop := t.mode = 1 ∧ t.time = 0 ∧ t.ptpNs = 0 ∧ t.fld Reg.LCM_SUPPLY_RESERVE_OK = 1 ∧ t.streams = [] ∧
    t.cmds = [] ∧ t.ldg.entries = [] ∧ t.dram.mem = s.dram.mem ∧ t.flt.flash = s.flt.flash ∧ t.life.banks = s.life.banks ∧
    t.life.gens = s.life.gens ∧ t.life.withdrawn = false
  (∀ (s : State) (i mv now : Nat) (inhibit : Bool), i < 2 → inRange12 mv = true →
    (s.mode = 0 → inhibit = false → ∃ t, exec (.inputGood i mv inhibit now) s = .next t ∧ up s t) ∧
    (s.mode = 0 → inhibit = true → ∃ t, exec (.inputGood i mv inhibit now) s = .next t ∧ t.life.inhibit = true ∧
      t.fld (goodOf i) = 1 ∧ t.mode = 0 ∧ OnlyRegs { s with life := t.life } t [voltOf i, goodOf i] []) ∧
    (s.mode ≠ 0 → ∃ t, exec (.inputGood i mv inhibit now) s = .next t ∧ t.fld (goodOf i) = 1 ∧ t.fld (voltOf i) = mv ∧
      (tget false t.flt.levels (320 + i) = false) ∧ Frame (s.at now) t [voltOf i, goodOf i] [])) ∧
  (∀ (s : State) (now : Nat), s.life.inhibit = true → s.mode = 0 → s.on Reg.LCM_SUPPLY_A_GOOD = true ∨ s.on Reg.LCM_SUPPLY_B_GOOD = true →
    ∃ t, exec (.modInhibitRelease now) s = .next t ∧ up s t ∧ t.life.inhibit = false) ∧
  (∀ (s : State) (i mv other now : Nat) (b : Bool), i < 2 → s.on (goodOf i) = true → mv < 1000 ∨ 1400 < mv →
    (s.on (goodOf (1 - i)) = true → ∃ t, exec (.inputLost i mv other b now) s = .next t ∧ t.fld (goodOf i) = 0 ∧
      tget false t.flt.levels (320 + i) = true ∧ (s.asserted (320 + i) = false → t.fltSticky (320 + i) = true) ∧
      (s.mode = 5 → s.holdSet (320 + i) = false → t.mode = 6) ∧
      Frame (s.at now) t [goodOf i, voltOf i, voltOf (1 - i)] []) ∧
    (s.on (goodOf (1 - i)) = false → b = false → ∃ t, exec (.inputLost i mv other b now) s = .next t ∧ t.mode = 0 ∧
      t.fld Reg.LCM_MODE_REASON = 4 ∧ t.fld (goodOf i) = 0)) ∧
  (∀ (s : State) (now : Nat), s.mode ≠ 0 → ∃ t, exec (.bothInputsLost now) s = .next t ∧ t.mode = 0 ∧ t.fld Reg.LCM_MODE_REASON = 4 ∧
    t.fld Reg.LCM_SUPPLY_A_GOOD = 0 ∧ t.fld Reg.LCM_SUPPLY_B_GOOD = 0 ∧ t.fld Reg.LCM_SUPPLY_RESERVE_OK = 0 ∧
    tget false t.flt.levels 320 = true ∧ tget false t.flt.levels 321 = true ∧
    (3 ≤ s.bypass ∧ s.bypass ≤ 5 → t.bypass = 6) ∧ Touches (s.at now) t (fun b => { b with ring := t.ring, life := t.life }))

/-- A start runs from RESET, with OTP read, through CALIBRATE, WIPE and LOAD to service, HOLD or FACTORY. A training that fails, or two banks
that LOAD refuses, return it to RESET and count, and the third such LOAD retires it. LOAD takes an acceptable bank, in trial or confirmed.
(Where the spec leaves a choice, the model's: log entries 8, 104, 106, 107.) -/
def startsRun : Prop :=
  (∀ (s : State) (now : Nat), s.mode = 1 → s.life.withdrawn = false → s.fld Reg.LCM_LC_STATE ≠ 4 →
    ∃ t, exec (.resetComplete now) s = .next t ∧ t.mode = 4 ∧
      (∀ g x, s.activeGen = some (g, x) → t.fld Reg.LCM_OTP_ACTIVE_GEN = g % 2 ^ Reg.LCM_OTP_ACTIVE_GEN.w ∧
        t.fld Reg.LCM_OTP_SRIS = x.sris % 2 ^ Reg.LCM_OTP_SRIS.w ∧ t.fld Reg.LCM_OTP_SIGN_VALID = x.signMask % 2 ^ Reg.LCM_OTP_SIGN_VALID.w) ∧
      Touches (s.at now) t (fun b => { b with freeCtr := t.freeCtr })) ∧
  (∀ (s : State) (now : Nat), s.mode = 1 → s.life.withdrawn = false → s.fld Reg.LCM_LC_STATE = 4 →
    ∃ t, exec (.resetComplete now) s = .next t ∧ t.mode = 11) ∧
  (∀ (s : State) (tj : Int) (now : Nat), s.mode = 1 → s.life.withdrawn = true →
    (125 < tj → ∃ t, exec (.withdrawCooled tj now) s = .next t ∧ t.life = { s.life with coolSince := none } ∧ { t with life := s.life } = s.at now) ∧
    (∀ t0, tj ≤ 125 → s.life.coolSince = some t0 → 60000000 ≤ max s.time now - t0 →
      ∃ t, exec (.withdrawCooled tj now) s = .next t ∧ t.life.withdrawn = false ∧ { t with life := s.life } = s.at now) ∧
    (tj ≤ 125 → s.life.coolSince = none → ∃ t, exec (.withdrawCooled tj now) s = .next t ∧
      t.life = { s.life with coolSince := some (max s.time now) } ∧ { t with life := s.life } = s.at now)) ∧
  (∀ (s : State) (failed : List Nat) (spent : List (Nat × Nat)) (margins : List (Nat × Nat × Nat)) (now : Nat), s.mode = 4 →
    ((∀ ch ∈ failed, partChannels s.part ≤ ch) → ∃ t, exec (.calibrateDone failed spent margins now) s = .next t ∧ t.mode = 2 ∧
      t.fld Reg.DMC_STATUS_TRAINED = 1 ∧ t.fld Reg.DMC_STATUS_WIPE_BUSY = 1 ∧
      (∀ ch < partChannels s.part, t.fld (Reg.DMC_CH_STATE_TRAINED ch) = 1) ∧ t.dram.mem = s.dram.mem ∧
      Touches (s.at now) t (fun b => { b with dram := t.dram })) ∧
    ((∃ ch ∈ failed, ch < partChannels s.part) → ∃ t, exec (.calibrateDone failed spent margins now) s = .next t ∧ t.mode = 1 ∧
      t.fld Reg.LCM_MODE_REASON = 6 ∧ t.fld Reg.LCM_BOOT_FAILED_STARTS = min 3 (s.fld Reg.LCM_BOOT_FAILED_STARTS + 1))) ∧
  (∀ (s : State) (okA okB : Bool) (imgsA imgsB : List Image) (now : Nat), s.mode = 3 →
    let r := (((s.at now).judgeBanks).readBank 0 imgsA).readBank 1 imgsB
    let ok (k : Nat) : Prop := ((r.bank k).state = 1 ∨ (r.bank k).state = 2) ∧ (if k = 0 then okA else okB) = true ∧ r.bankPasses k = true
    (¬ ok 0 → ¬ ok 1 → ∃ t, exec (.loadDone okA okB imgsA imgsB now) s = .next t ∧
      t.fld Reg.LCM_BOOT_FAILED_STARTS = min 3 (s.fld Reg.LCM_BOOT_FAILED_STARTS + 1) ∧
      t.mode = (if 2 ≤ s.fld Reg.LCM_BOOT_FAILED_STARTS then 11 else 1) ∧ t.fld Reg.LCM_MODE_REASON = 6) ∧
    (ok 0 ∨ ok 1 → (∀ k < 2, (r.bank k).config.1 = []) →
      ∃ t k, exec (.loadDone okA okB imgsA imgsB now) s = .next t ∧ k < 2 ∧ ok k ∧ t.fld Reg.LCM_BOOT_BANK = k ∧
        t.fld Reg.LCM_BOOT_TRIAL = (if (r.bank k).state = 1 then 1 else 0) ∧ t.fld Reg.LCM_BOOT_FAILED_STARTS = 0 ∧
        t.fld Reg.LCM_EPOCH_EPOCH = (s.fld Reg.LCM_EPOCH_EPOCH + 1) % 2 ^ 32 ∧
        (t.mode = 5 ∨ t.mode = 6 ∨ t.mode = 9 ∨ t.mode = 10) ∧ (t.mode = 10 → s.testLife = true)))

/-- LCM_MODE_REQ with GO enters the mode that it names where the table of modes has the transition, and sets REFUSED where not; without GO
it is a plain write. A node in the ring closes its bypass before it restarts.
(Where the spec leaves a choice, the model's: log entries 109, 111.) -/
def modeRequests : Prop :=
  ∀ (s : State) (v : Word) (now : Nat),
    (bitsOf v 4 1 = 0 → ∀ c, c = .modeReqRestart v now ∨ c = .modeReqService v now ∨ c = .modeReqMaintain v now ∨ c = .modeReqQuiet v now →
      ∃ t, exec c s = .next t ∧ t.mode = s.mode ∧ t.fld Reg.LCM_MODE_REQ_REQ = bitsOf v 0 4 ∧
        OnlyRegs (s.at now) t [Reg.LCM_MODE_REQ_REQ, Reg.LCM_MODE_REQ_REFUSED] []) ∧
    (bitsOf v 4 1 = 1 →
      (bitsOf v 0 4 = 1 → s.mode ≠ 0 → s.mode ≠ 11 ∨ s.fld Reg.LCM_LC_STATE ≠ 4 →
        ∃ t, exec (.modeReqRestart v now) s = .next t ∧
          (s.bypass ≠ 4 → s.bypass ≠ 5 → t.mode = 1 ∧ t.fld Reg.LCM_MODE_REASON = 1) ∧
          (s.bypass = 4 ∨ s.bypass = 5 → t.bypass = 5 ∧ t.life.restart = some 1)) ∧
      (bitsOf v 0 4 = 5 → s.mode = 8 ∨ s.mode = 10 → ∃ t, exec (.modeReqService v now) s = .next t ∧
        t.mode = (if s.degradeCond then 6 else 5) ∧ t.fld Reg.LCM_MODE_REASON = 1 ∧
        (s.mode = 8 → t.streams = resumeStreams s.streams ∧ t.canvases = resumeCanvases s.canvases) ∧
        Touches (s.at now) t (fun b => { b with streams := t.streams, canvases := t.canvases, life := t.life, ring := t.ring })) ∧
      (bitsOf v 0 4 = 7 → s.mode = 5 ∨ s.mode = 6 → ∃ t, exec (.modeReqMaintain v now) s = .next t ∧ t.mode = 7 ∧
        t.fld Reg.LCM_MODE_PREV = s.mode ∧ t.fld Reg.LCM_MODE_REASON = 1 ∧ Frame { s.at now with life := t.life } t
          [Reg.LCM_MODE_REQ_REQ, Reg.LCM_MODE_REQ_REFUSED] []) ∧
      (bitsOf v 0 4 = 8 → s.inService = true → ∃ t, exec (.modeReqQuiet v now) s = .next t ∧ t.mode = 8 ∧
        t.fld Reg.LCM_MODE_PREV = s.mode ∧ t.fld Reg.LCM_MODE_REASON = 1 ∧ Frame (s.at now) t
          [Reg.LCM_MODE_REQ_REQ, Reg.LCM_MODE_REQ_REFUSED] []) ∧
      (∀ c, (c = .modeReqRestart v now ∧ bitsOf v 0 4 = 1 ∧ s.mode = 0) ∨ (c = .modeReqService v now ∧ bitsOf v 0 4 = 5 ∧ s.mode ≠ 8 ∧ s.mode ≠ 10) ∨
          (c = .modeReqMaintain v now ∧ bitsOf v 0 4 = 7 ∧ s.mode ≠ 5 ∧ s.mode ≠ 6) ∨
          (c = .modeReqQuiet v now ∧ bitsOf v 0 4 = 8 ∧ s.inService = false) →
        ∃ t, exec c s = .next t ∧ t.mode = s.mode ∧ t.fld Reg.LCM_MODE_REQ_REFUSED = 1 ∧
          OnlyRegs (s.at now) t [Reg.LCM_MODE_REQ_REQ, Reg.LCM_MODE_REQ_REFUSED] []))

/-- The daily maintenance hour enters MAINTAIN once a day; its end returns to the mode that it came from, with the saved repairs made and
retrainings done. HOLD ends once nothing holds any more and the part has been cool for 10 s; streams and canvases resume.
(Where the spec leaves a choice, the model's: log entry 110.) -/
def maintenanceAndHold : Prop :=
  (∀ (s : State) (hour now : Nat), s.mode = 5 ∨ s.mode = 6 → hour < 24 → s.fld Reg.LCM_BOOT_CFG_MAINT_HOUR = hour →
    s.life.maintDay < (s.at now).ptpDay →
    ∃ t, exec (.maintHour hour now) s = .next t ∧ t.mode = 7 ∧ t.fld Reg.LCM_MODE_PREV = s.mode ∧ t.fld Reg.LCM_MODE_REASON = 1 ∧
      t.life.maintDay = (s.at now).ptpDay ∧ Frame { s.at now with life := t.life } t [] []) ∧
  (∀ (s : State) (spent : List (Nat × Nat)) (now : Nat), s.mode = 7 → ModeOk s → (∀ q < 4, s.holdSet (232 + q) = false) →
    ∃ t, exec (.maintainEnd [] spent now) s = .next t ∧ t.mode = (if s.degradeCond then 6 else 5) ∧
      (∀ ch < partChannels s.part, t.fld (Reg.DMC_CH_STATE_RETRAIN_DUE ch) = 0) ∧ t.life.maintSince = none ∧
      t.dram.mem = s.dram.mem ∧ Touches (s.at now) t (fun b => { b with dram := t.dram, life := t.life })) ∧
  (∀ (s : State) (t0 now : Nat), s.mode = 9 → s.holdReq = false → s.life.coolSince = some t0 → 10000000 ≤ max s.time now - t0 →
    ∃ t, exec (.holdExit now) s = .next t ∧ t.mode = (if s.degradeCond then 6 else 5) ∧ t.fld Reg.LCM_MODE_REASON = 8 ∧
      t.streams = resumeStreams s.streams ∧ t.canvases = resumeCanvases s.canvases ∧
      Touches (s.at now) t (fun b => { b with streams := t.streams, canvases := t.canvases, life := t.life, ring := t.ring }))

/-- A bank in trial is confirmed after its minutes of service; a bad block of a bank is rewritten from its copy or fails the bank, one of the
log loses a record, and a weak one is refreshed. Equivalent minutes add up at the factor of the temperature. The least of the monitors is
the margin of a domain; the sixtieth low reading in a row, or a near miss, raises its offset by one.
(Where the spec leaves a choice, the model's: log entries 26, 106, 113, 114.) -/
def lifeIsKept : Prop :=
  (∀ (s : State) (now t0 : Nat), let k := s.fld Reg.LCM_BOOT_BANK
    s.life.servedSince = some t0 → 5 ≤ s.mode → s.mode ≤ 8 → (s.bank k).state = 1 →
    atLeast1 (s.fld Reg.LCM_BOOT_CFG_CONFIRM_MIN) * 60000000 ≤ max s.time now - t0 →
    ∃ t, exec (.bankConfirm now) s = .next t ∧ (t.bank k).state = 2 ∧ t.fld Reg.LCM_BOOT_TRIAL = 0 ∧ (∀ j, j ≠ k → t.bank j = s.bank j) ∧
      OnlyRegs { s.at now with life := t.life } t [Reg.LCM_BOOT_TRIAL] []) ∧
  (∀ (s : State) (bank bits : Nat) (copy : Bool) (now : Nat), s.mode ≠ 0 → s.on Reg.LCM_FLASH_SCRUB_EN = true → bank < 3 →
    (bank < 2 → copy = true → ∃ t, exec (.flashScrub bank bits true copy now) s = .next t ∧
      t.bank bank = { s.bank bank with writes := (s.bank bank).writes + 1 } ∧ (∀ j, j ≠ bank → t.bank j = s.bank j) ∧
      { t with life := s.life } = s.at now) ∧
    (bank < 2 → copy = false → ∃ t, exec (.flashScrub bank bits true copy now) s = .next t ∧ (t.bank bank).state = 3 ∧
      (∀ j, j ≠ bank → t.bank j = s.bank j) ∧ (s.asserted 327 = false → t.fltSticky 327 = true) ∧
      t.fld (if bank = 0 then Reg.LCM_FLASH_BANK_A_OK else Reg.LCM_FLASH_BANK_B_OK) = 0 ∧
      Frame { s.at now with life := t.life } t [Reg.LCM_FLASH_BANK_A_OK, Reg.LCM_FLASH_BANK_B_OK] []) ∧
    (bank = 2 → ∃ t, exec (.flashScrub bank bits true copy now) s = .next t ∧
      (s.flt.flash ≠ [] → t.flt.flash.length + 1 = s.flt.flash.length) ∧ (∀ r ∈ t.flt.flash, r ∈ s.flt.flash) ∧
      { t with flt := s.flt, freeCtr := s.freeCtr } = s.at now) ∧
    (8 ≤ bits → ∃ t, exec (.flashScrub bank bits false copy now) s = .next t ∧
      t.fld Reg.LCM_FLASH_REFRESHED = min 65535 (s.fld Reg.LCM_FLASH_REFRESHED + 1) ∧
      (s.asserted 326 = false → t.fltSticky 326 = true) ∧ Frame (s.at now) t [Reg.LCM_FLASH_REFRESHED] [])) ∧
  (∀ (s : State) (now : Nat), let acc := s.life.acc + lifeFactor (ofTemp9 (s.fld Reg.SHP_TEMP_TJ_MAX))
    ∃ t, exec (.lifeMinute now) s = .next t ∧ t.life = { s.life with acc := acc } ∧
      t.fld Reg.LCM_LIFE_H_HOURS = acc / 600 % 2 ^ 32 ∧ t.fld Reg.LCM_LIFE_PCT_PCT = min 1048575 (acc * 100000 / (600 * 680242)) ∧
      (80000 ≤ t.fld Reg.LCM_LIFE_PCT_PCT → s.asserted 330 = false → t.fltSticky 330 = true) ∧
      Frame { s.at now with life := t.life } t [Reg.LCM_LIFE_H_HOURS, Reg.LCM_LIFE_PCT_PCT] []) ∧
  (∀ (s : State) (d projected now : Nat) (slack : List Nat), 1 ≤ d → hasDomain s.part d = true → 5 ≤ s.mode → s.mode ≤ 10 →
    let low : Prop := projected < s.fld Reg.LCM_AGE_CFG_TARGET_PS
    let n := tget 0 s.life.low d
    ∃ t, exec (.marginRead d slack projected now) s = .next t ∧ t.fld (Reg.LCM_DOMAIN_MARGIN_PS d) = min 255 (leastOf (slack.take 4)) ∧
      (low → n < 59 → tget 0 t.life.low d = n + 1 ∧ t.fld (Reg.LCM_DOMAIN_VOFF d) = s.fld (Reg.LCM_DOMAIN_VOFF d)) ∧
      (low → n = 59 → tget 0 t.life.low d = 0 ∧ t.fld (Reg.LCM_DOMAIN_VOFF d) = min 30 (s.fld (Reg.LCM_DOMAIN_VOFF d) + 1)) ∧
      (¬ low → tget 0 t.life.low d = 0 ∧ t.fld (Reg.LCM_DOMAIN_VOFF d) = s.fld (Reg.LCM_DOMAIN_VOFF d)) ∧
      (t.fld (Reg.LCM_DOMAIN_VOFF d) = 30 → t.fld (Reg.LCM_DOMAIN_MARGIN_PS d) < s.fld Reg.LCM_AGE_CFG_MIN_PS →
        t.fld (Reg.LCM_DOMAIN_AT_LIMIT d) = 1) ∧
      Frame { s.at now with life := t.life } t [Reg.LCM_DOMAIN_MARGIN_PS d, Reg.LCM_DOMAIN_VOFF d, Reg.LCM_DOMAIN_AT_LIMIT d] []) ∧
  (∀ (s : State) (d now : Nat), 1 ≤ d → hasDomain s.part d = true →
    ∃ t, exec (.nearMiss d now) s = .next t ∧ t.fld (Reg.LCM_DOMAIN_VOFF d) = min 30 (s.fld (Reg.LCM_DOMAIN_VOFF d) + 1) ∧
      t.fld (Reg.LCM_DOMAIN_NEAR_MISS d) = min 1023 (s.fld (Reg.LCM_DOMAIN_NEAR_MISS d) + 1) ∧
      (d < 12 → OnlyRegs (s.at now) t [Reg.LCM_DOMAIN_VOFF d, Reg.LCM_DOMAIN_NEAR_MISS d] []) ∧
      (∀ r, 12 ≤ d → (s.lth (d - 12)).run = some r → r.done = false → r.exhausted = false → r.stepReruns = 0 →
        t.fld (Reg.SPN_LAST_RERUN_CAUSE (d - 12)) = causeCode .margin ∧
        ∃ r', (t.lth (d - 12)).run = some r' ∧ r'.stepReruns = 1 ∧ r'.reruns = r.reruns + 1) ∧
      Touches (s.at now) t (fun b => { b with lathes := t.lathes, ldg := t.ldg, freeCtr := t.freeCtr }))

/-- Starts and supplies. -/
def Obligations.StartsAndSuppliesRun : Prop := suppliesCarry ∧ startsRun

/-- Modes on request, maintenance and HOLD. -/
def Obligations.ModesFollowRequests : Prop := modeRequests ∧ maintenanceAndHold

/-- Ageing, margins and flash. -/
def Obligations.LifeIsRecorded : Prop := lifeIsKept

/-! ## The ring -/

/-- The registers that the bypass's moves write. -/
def bypF : List Fld :=
  [Reg.RNG_BYPASS_STATUS_STATE, Reg.RNG_BYPASS_STATUS_POSITION, Reg.RNG_BYPASS_STATUS_SOURCES, Reg.RNG_BYPASS_STATUS_ONE_WAY,
    Reg.RNG_STATUS_RING_OPEN, Reg.RNG_PORT_STATUS_LINK_LATE 0, Reg.RNG_PORT_STATUS_LINK_LATE 1]

/-- The bypass has entered state st now, and nothing but its registers and the ring's data differs. -/
def Entered (s t : State) (now st : Nat) : Prop :=
  t.bypass = st ∧ t.ring.since = max s.time now ∧ t.ring.retried = false ∧ t.ring.ports = s.ring.ports ∧
    Frame { s.at now with ring := t.ring } t bypF []

/-- A bypassed node that has seen the ring closed for a window holds off, and then switches in; a member sees the ring open where a frame of
its own does not return; a draining one switches out once it sees it closed, or after its wait. The switches move it on when they are sensed; they
are retried once after 10 ms, and then FAULT holds until both are sensed in BYPASS.
(Where the spec leaves a choice, the model's: log entry 86.) -/
def bypassMoves : Prop :=
  ∀ (s : State) (now : Nat), let waited := max s.time now - s.ring.since
    (∀ (both oneWay : Nat) (ownE ownW : Bool), let closed := s.seenClosed both oneWay
      (s.bypass = 4 → ∃ t, exec (.ringCheckWindow both oneWay ownE ownW now) s = .next t ∧ t.bypass = 4 ∧ t.ring.closed = (ownE && ownW) ∧
        t.fld Reg.RNG_STATUS_RING_OPEN = (if ownE && ownW then 0 else 1) ∧
        ((ownE && ownW) = false → s.asserted 106 = false → t.fltSticky 106 = true) ∧ Frame { s.at now with ring := t.ring } t bypF []) ∧
      (s.bypass = 5 → ownE = true → ownW = true →
        ∃ t, exec (.ringCheckWindow both oneWay ownE ownW now) s = .next t ∧ Entered s t now 6) ∧
      (s.bypass ≠ 4 → s.bypass ≠ 5 → ∃ t, exec (.ringCheckWindow both oneWay ownE ownW now) s = .next t ∧ t.ring.closed = closed ∧
        t.fld Reg.RNG_BYPASS_STATUS_SOURCES = min 255 (both + oneWay) ∧
        t.fld Reg.RNG_BYPASS_STATUS_ONE_WAY = (if oneWay = 0 then 0 else 1) ∧
        (s.bypass = 1 → closed = true → s.checkUs ≤ waited → Entered s t now 2) ∧
        (s.bypass = 2 → closed = false → Entered s t now 1) ∧
        (s.bypass = 0 ∨ 3 ≤ s.bypass ∨ (s.bypass = 1 ∧ closed = false) ∨ (s.bypass = 2 ∧ closed = true) → t.bypass = s.bypass) ∧
        Frame { s.at now with ring := t.ring } t bypF [])) ∧
    (∃ t, exec (.supervisionSend now) s = .next t ∧
      (∀ p < 2, t.port p = if s.portSends p then { s.port p with ctl := (s.port p).ctl ++ [.supervision] } else s.port p) ∧
      OnlyRegs { s.at now with ring := t.ring } t [] []) ∧
    (s.bypass = 2 → s.ring.closed = true →
      s.fld Reg.RNG_BYPASS_CFG_INSERT_SLOT * atLeast1 (s.fld Reg.RNG_BYPASS_CFG_SLOT_100MS) * 100000 ≤ waited →
      ∃ t, exec (.holdoffExpiry now) s = .next t ∧ Entered s t now 3) ∧
    (∀ pos, ∃ t, exec (.switchSensed pos now) s = .next t ∧
      (s.bypass = 3 → pos % 4 = 3 → s.bypOpen = true → Entered s t now 4 ∧ t.fld (Reg.RNG_PORT_STATUS_LINK_LATE 0) = 0 ∧
        t.fld (Reg.RNG_PORT_STATUS_LINK_LATE 1) = 0) ∧
      (s.bypass = 3 → pos % 4 = 3 → s.bypOpen = false → t.bypass = 5) ∧
      (s.bypass = 6 → pos % 4 = 0 → s.mode ≠ 11 → s.life.restart = none → t.bypass = if s.bypOpen then 1 else 0) ∧
      (∀ r, s.bypass = 6 → pos % 4 = 0 → s.mode ≠ 11 → s.life.restart = some r → t.mode = 1 ∧ t.fld Reg.LCM_MODE_REASON = r % 16) ∧
      (s.bypass ≠ 3 → s.bypass ≠ 6 → s.bypass ≠ 7 → t.fld Reg.RNG_BYPASS_STATUS_POSITION = pos % 4 ∧
        OnlyRegs (s.at now) t [Reg.RNG_BYPASS_STATUS_POSITION] [])) ∧
    (s.bypass = 3 ∨ s.bypass = 6 → 10000 ≤ waited → ∃ t, exec (.switchTimeout now) s = .next t ∧
      (s.ring.retried = false → t.bypass = s.bypass ∧ t.ring = { (s.at now).ring with retried := true, since := max s.time now }) ∧
      (s.ring.retried = true → t.bypass = 7 ∧ tget false t.flt.levels 109 = true ∧ (s.asserted 109 = false → t.fltSticky 109 = true)) ∧
      Frame { s.at now with ring := t.ring } t bypF []) ∧
    (∀ pos, s.bypass = 7 → ∃ t, exec (.bypassFaultRetry pos now) s = .next t ∧
      (pos % 4 ≠ 0 → t.bypass = 7 ∧ OnlyRegs (s.at now) t [Reg.RNG_BYPASS_STATUS_POSITION] []) ∧
      (pos % 4 = 0 → s.mode ≠ 11 → s.life.restart = none →
        t.bypass = (if s.bypOpen then 1 else 0) ∧ tget false t.flt.levels 109 = false)) ∧
    (∀ v : Word, ∃ t, exec (.forceBypass v now) s = .next t ∧
      (v.getLsbD 0 = true → t.fld Reg.RNG_BYPASS_CTRL_FORCE_BYPASS = 1 ∧ (s.bypass = 4 → t.bypass = 5 ∧ ∀ p < 2, (t.port p).txq = []) ∧
        (s.bypass = 1 ∨ s.bypass = 2 → t.bypass = 0) ∧ (s.bypass = 0 ∨ s.bypass = 3 ∨ 5 ≤ s.bypass → t.bypass = s.bypass)) ∧
      (v.getLsbD 0 = false → t.fld Reg.RNG_BYPASS_CTRL_FORCE_BYPASS = 0 ∧
        (s.bypass = 0 → t.bypass = if 5 ≤ s.mode ∧ s.mode ≤ 10 then 1 else 0) ∧ (s.bypass ≠ 0 → t.bypass = s.bypass))) ∧
    (s.bypass = 5 → atLeast1 (s.fld Reg.RNG_BYPASS_CTRL_WITHDRAW_WAIT_S) * 1000000 ≤ waited →
      ∃ t, exec (.withdrawWaitExpiry now) s = .next t ∧ Entered s t now 6) ∧
    (∀ p < 2, s.bypass = 4 → s.linkUp p = false → atLeast1 (s.fld Reg.RNG_BYPASS_CTRL_LINK_WAIT_10MS) * 10000 ≤ waited →
      ∃ t, exec (.linkWaitExpiry p now) s = .next t ∧ t.fld (Reg.RNG_PORT_STATUS_LINK_LATE p) = 1 ∧
        OnlyRegs (s.at now) t [Reg.RNG_PORT_STATUS_LINK_LATE p] [])

/-- The bypass and the ring seen open or closed. -/
def Obligations.BypassFollowsTheRing : Prop := bypassMoves

/-- A port of a node in the ring comes up at its rate and goes down with LINK_FAIL where the node is inserted; in AUTO it tries the other
rate. A PTP message is forwarded on the other port; the sixteenth Sync in a row within 1 us locks the clock, for the first time with a step, and one
more than 10 us off loses lock. Without Syncs the other path is followed, or lock is lost. A step moves the starts of the canvases with the time.
(Where the spec leaves a choice, the model's: log entries 88, 89.) -/
def linksAndClock : Prop :=
  ∀ (s : State) (p now : Nat), p < 2 →
    let linkF := [Reg.RNG_PORT_STATUS_LINK_UP p, Reg.RNG_PORT_STATUS_RATE_25G p, Reg.RNG_PORT_STATUS_LINK_FAIL p]
    let clockF := [Reg.RNG_PTP_STATUS_LOCKED, Reg.RNG_PTP_STATUS_GRANDMASTER, Reg.RNG_PTP_OFFSET_OFFSET_NS, Reg.RNG_STATUS_PTP_UNLOCK]
    (s.bypass = 4 ∨ s.bypass = 5 → s.linkUp p = false → s.on (Reg.RNG_PORT_STATUS_LINK_LATE p) = false →
      ∃ t, exec (.portLinkUp p now) s = .next t ∧ t.linkUp p = true ∧ t.fld (Reg.RNG_PORT_STATUS_RATE_25G p) = (if s.fast p then 1 else 0) ∧
        (t.port p).rs = s.fast p ∧ t.port (1 - p) = s.port (1 - p) ∧ Frame { s.at now with ring := t.ring } t linkF []) ∧
    (s.linkUp p = true → ∃ t, exec (.portLinkDown p now) s = .next t ∧ t.linkUp p = false ∧ t.fld (Reg.RNG_PORT_STATUS_RATE_25G p) = 0 ∧
      (s.bypass = 4 → t.fld (Reg.RNG_PORT_STATUS_LINK_FAIL p) = 1) ∧ (t.port p).trySlow = false ∧ t.port (1 - p) = s.port (1 - p) ∧
      Frame { s.at now with ring := t.ring } t linkF []) ∧
    (s.linkUp p = false → s.autoRate p = true → ∃ t, exec (.speedTryExpiry p now) s = .next t ∧
      (t.port p).trySlow = !(s.port p).trySlow ∧ (t.port p).rs = !s.fast p ∧ t.port (1 - p) = s.port (1 - p) ∧
      { t with ring := (s.at now).ring } = s.at now) ∧
    (∀ ident, ∃ t, exec (.sfpInsert p ident) s = .next t ∧ t.fld (Reg.RNG_PORT_STATUS_MOD_PRESENT p) = 1 ∧ (t.port p).ident = ident ∧
      OnlyRegs { s with ring := t.ring } t [Reg.RNG_PORT_STATUS_MOD_PRESENT p] []) ∧
    (∀ m : PtpMsg, s.portSends p = true → let gm := s.on Reg.RNG_PTP_CFG_MASTER_CAPABLE && m.bestMaster
      ∃ t, exec (.ptpMessage p m now) s = .next t ∧
        t.toRing = s.toRing ++ (if s.portSends (1 - p) then [.own (1 - p) (.ptp m)] else []) ∧
        t.fld Reg.RNG_PTP_STATUS_GRANDMASTER = (if gm then 1 else 0) ∧
        (m.isSync = false ∨ gm = true ∨ s.fld Reg.RNG_PTP_STATUS_PATH ≠ p → t.ptpNs = (s.at now).ptpNs ∧
          t.fld Reg.RNG_PTP_STATUS_LOCKED = s.fld Reg.RNG_PTP_STATUS_LOCKED ∧ t.canvases = s.canvases) ∧
        (m.isSync = true → gm = false → s.fld Reg.RNG_PTP_STATUS_PATH = p →
          (s.on Reg.RNG_PTP_STATUS_LOCKED = false → s.ring.everLocked = false → s.ring.good = 15 → m.offsetNs.natAbs ≤ 1000 →
            t.fld Reg.RNG_PTP_STATUS_LOCKED = 1 ∧ t.ptpNs = (((s.at now).ptpNs : Int) - m.offsetNs).toNat ∧ Counted s t Cnt.RNG_PTP_STEPS 1 ∧
            ∀ k, (s.cv k).startAt ≠ 0 → (t.cv k).startAt = (((s.cv k).startAt : Int) - m.offsetNs).toNat) ∧
          (s.on Reg.RNG_PTP_STATUS_LOCKED = true → 10000 < m.offsetNs.natAbs →
            t.fld Reg.RNG_PTP_STATUS_LOCKED = 0 ∧ t.fld Reg.RNG_STATUS_PTP_UNLOCK = 1 ∧ t.ring.good = 0) ∧
          (s.on Reg.RNG_PTP_STATUS_LOCKED = true → m.offsetNs.natAbs ≤ 1000 → t.fld Reg.RNG_PTP_STATUS_LOCKED = 1 ∧
            t.ptpNs = (s.at now).ptpNs ∧ t.canvases = s.canvases ∧ -200000 ≤ t.ring.ppb ∧ t.ring.ppb ≤ 200000)) ∧
        (∀ k, t.cv k = { s.cv k with startAt := (t.cv k).startAt }) ∧
        Frame { s.at now with ring := t.ring, toRing := t.toRing, ptpNs := t.ptpNs, canvases := t.canvases, freeCtr := t.freeCtr } t clockF
          [Cnt.RNG_PTP_STEPS]) ∧
    (s.fld Reg.RNG_PTP_STATUS_PATH = p → let other := tget 0 s.ring.lastSync p < tget 0 s.ring.lastSync (1 - p)
      ∃ t, exec (.ptpSyncTimeout now) s = .next t ∧
        (other → t.fld Reg.RNG_PTP_STATUS_PATH = 1 - p ∧ OnlyRegs (s.at now) t [Reg.RNG_PTP_STATUS_PATH] []) ∧
        (¬ other → t.fld Reg.RNG_PTP_STATUS_LOCKED = 0 ∧
          (s.on Reg.RNG_PTP_STATUS_LOCKED = true → t.fld Reg.RNG_STATUS_PTP_UNLOCK = 1) ∧
          Frame { s.at now with ring := t.ring } t clockF [])) ∧
    (∃ t, exec (.ptpSecond now) s = .next t ∧ PulseReaches (s.at now) t 156) ∧
    (∀ ns, 1 < s.mode → ∃ t, exec (.ppsInEdge ns) s = .next t ∧ t.fld Reg.RNG_PTP_STATUS_PPS_IN_NS = min (2 ^ 29 - 1) ns ∧
      (tget .idle s.evm.xing 177 = .idle → tget .idle t.evm.xing 177 = .busy) ∧
      (tget .idle s.evm.xing 177 ≠ .idle → tget .idle t.evm.xing 177 = .busyPending) ∧
      Frame s t [Reg.RNG_PTP_STATUS_PPS_IN_NS] [])

/-- Links, rates and the PTP clock. -/
def Obligations.LinksAndClockFollow : Prop := linksAndClock

/-- A frame that is bad, or this node's own, goes no further. A unicast frame for another node is forwarded out of the other port once, in the
queue of its PCP, or dropped where that is full; one for this node is delivered once and not forwarded. Entries 400 ms old are forgotten.
(Where the spec leaves a choice, the model's: log entry 91.) -/
def framesPass : Prop :=
  (∀ (s : State) (p now : Nat) (f : Frame) (same : Bool), p < 2 → s.portSends p = true →
    let old := (s.at now).dupOf f
    let sent : Bool := old.any (fun d => if p = 1 then d.east else d.west)
    let q := if 4 ≤ f.pcp then (s.port (1 - p)).high else (s.port (1 - p)).low
    ∃ t, exec (.frameRx p f same now) s = .next t ∧ Counted s t (Cnt.RNG_FRAMES_RX p) 1 ∧ t.port p = s.port p ∧
      (frameBad f = true → Counted s t (Cnt.RNG_RX_DISCARDED p) 1 ∧ t.ring = (s.at now).ring) ∧
      (frameBad f = false → f.srcMac = s.nodeMac → Counted s t (Cnt.RNG_OWN_RETURNED p) 1 ∧ t.ring = (s.at now).ring) ∧
      (frameBad f = false → f.srcMac ≠ s.nodeMac →
        (∃ d ∈ t.ring.dups, d.mac = f.srcMac ∧ d.seq = f.seq ∧ (f.multicast = false → f.dstMac = s.nodeMac → f.tags ≤ 1 →
            (same = false ∨ p = 0) → d.delivered = true) ∧
          (f.multicast = false → f.dstMac ≠ s.nodeMac → (if p = 1 then d.east else d.west) = true)) ∧
        (f.multicast = false → f.dstMac = s.nodeMac → t.port (1 - p) = s.port (1 - p) ∧
          (f.tags ≤ 1 → old.any (fun d => d.delivered) = true → Counted s t (Cnt.RNG_DUP_DISCARDED p) 1)) ∧
        (f.multicast = false → f.dstMac ≠ s.nodeMac →
          (sent = true → t.port (1 - p) = s.port (1 - p)) ∧
          (sent = false → frameBytes q + f.len ≤ 262144 → (if 4 ≤ f.pcp then (t.port (1 - p)).high else (t.port (1 - p)).low) = q ++ [f]) ∧
          (sent = false → 262144 < frameBytes q + f.len → t.port (1 - p) = s.port (1 - p) ∧ Counted s t (Cnt.RNG_PASS_DROPPED (1 - p)) 1))) ∧
      OnlyRegs { s.at now with ring := t.ring } t []
        [Cnt.RNG_FRAMES_RX p, Cnt.RNG_RX_DISCARDED p, Cnt.RNG_OWN_RETURNED p, Cnt.RNG_DUP_DISCARDED p, Cnt.RNG_PASS_DROPPED (1 - p)]) ∧
  (∀ (s : State) (now : Nat), ∃ t, exec (.dupEntryExpiry now) s = .next t ∧
    (∀ d, d ∈ t.ring.dups ↔ d ∈ s.ring.dups ∧ max s.time now - d.time < 400000) ∧
    { t with ring := (s.at now).ring } = s.at now)

/-- A free port starts the next frame in strict order: its own control messages, forwarded frames of high PCP, its queues whose credit
allows it, forwarded frames of low PCP, its replies. A packet's entry is released with its last copy. A queue's head older than its drop age is
dropped. (Where the spec leaves a choice, the model's: log entries 85, 87.) -/
def portsSend : Prop :=
  (∀ (s : State) (p residence now : Nat), p < 2 → s.portSends p = true → (s.port p).wire = none → let x := s.port p
    ∃ t, exec (.portTransmit p residence now) s = .next t ∧ t.port (1 - p) = s.port (1 - p) ∧
      (∀ m r, x.ctl = m :: r → t.port p = { x with ctl := r } ∧ t.toRing = s.toRing ++ [.own p m]) ∧
      (∀ f r, x.ctl = [] → x.high = f :: r → t.port p = { x with high := r } ∧ t.toRing = s.toRing ++ [.frame p f] ∧
        (s.residenceBound p < residence → Counted s t (Cnt.RNG_HIGH_LATE p) 1)) ∧
      (∀ q c r n, x.ctl = [] → x.high = [] → (s.at now).localQ p = some q → tget [] x.txq q = c :: r → s.net c.entry = some n →
        tget [] (t.port p).txq q = r ∧ (t.port p).wire = some c.entry ∧
        t.toRing = s.toRing ++ [.packet p n.sid n.r n.seq n.pkt.ts n.pkt.marker n.pkt.bytes] ∧
        (tget ⟨0, 0⟩ (t.port p).credit q).v =
          (s.at now).credit p q - ((8 * (c.len + s.fld (Reg.RNG_PORT_CFG_OVERHEAD p)) * 1024 : Nat) : Int)) ∧
      (∀ f r, x.ctl = [] → x.high = [] → (s.at now).localQ p = none → x.low = f :: r →
        t.port p = { x with low := r } ∧ t.toRing = s.toRing ++ [.frame p f]) ∧
      (∀ m r, x.ctl = [] → x.high = [] → (s.at now).localQ p = none → x.low = [] → x.reply = m :: r →
        t.port p = { x with reply := r } ∧ t.toRing = s.toRing ++ [.own p m]) ∧
      OnlyRegs { s.at now with ring := t.ring, toRing := t.toRing, ldg := t.ldg } t []
        [Cnt.RNG_FRAMES_LOCAL p, Cnt.RNG_FRAMES_FWD p, Cnt.RNG_HIGH_LATE p]) ∧
  (∀ (s : State) (e p now : Nat) (n : NetEnt), p < 2 → (s.port p).wire = some e → s.net e = some n →
    ∃ t, exec (.txCopyLeft e p now) s = .next t ∧ (t.port p).wire = none ∧ t.port (1 - p) = s.port (1 - p) ∧
      ((if p = 0 then n.west else n.east) = true →
        t.net e = some { n with east := p ≠ 0 && n.east, west := p = 0 && n.west } ∧
        ∀ l, s.lent e = some l → ∃ l', t.lent e = some l' ∧ l'.state = 3) ∧
      ((if p = 0 then n.west else n.east) = false → t.net e = none ∧ t.lent e = none) ∧
      (∀ k, k ≠ e → t.lent k = s.lent k ∧ t.net k = s.net k) ∧
      Touches (s.at now) t (fun b => { b with ring := t.ring, ldg := t.ldg, coop := t.coop })) ∧
  (∀ (s : State) (p q now : Nat) (c : TxCopy) (r : List TxCopy), p < 2 → tget [] (s.port p).txq q = c :: r →
    atLeast1 (s.fld (Reg.RNG_TXQ_CFG1_DROP_AGE_100US q)) * 100 < max s.time now - c.time →
    ∃ t, exec (.txqAgeDrop p q now) s = .next t ∧ tget [] (t.port p).txq q = r ∧ (∀ k, k ≠ q → tget [] (t.port p).txq k = tget [] (s.port p).txq k) ∧
      Counted s t (Cnt.RNG_AGED p) 1 ∧
      (∀ n, s.net c.entry = some n → (if p = 0 then n.west else n.east) = false → t.net c.entry = none ∧ t.lent c.entry = none) ∧
      (∀ n, s.net c.entry = some n → n.live = true → t.fld Reg.RNG_STATUS_LIVE_DROP = 1) ∧
      Touches (s.at now) t (fun b => { b with ring := t.ring, ldg := t.ldg, coop := t.coop }))

/-- A queue's rate and class take their written values, its credit staying what it was, or 0 from rate 0. A sample records each queue's depth
and the age of its head. -/
def queuesAreSet : Prop :=
  (∀ (s : State) (q now : Nat) (v : Word), q < 256 →
    ∃ t, exec (.txqRateWrite q v now) s = .next t ∧ t.fld (Reg.RNG_TXQ_CFG0_RATE_KBPS q) = bitsOf v 0 25 ∧
      t.fld (Reg.RNG_TXQ_CFG0_CLASS q) = bitsOf v 25 2 ∧
      (∀ p < 2, tget ⟨0, 0⟩ (t.port p).credit q =
        ⟨if s.fld (Reg.RNG_TXQ_CFG0_RATE_KBPS q) = 0 ∧ bitsOf v 0 25 ≠ 0 then 0 else (s.at now).credit p q, max s.time now⟩ ∧
        ∀ k, k ≠ q → tget ⟨0, 0⟩ (t.port p).credit k = tget ⟨0, 0⟩ (s.port p).credit k) ∧
      OnlyRegs { s.at now with ring := t.ring } t [Reg.RNG_TXQ_CFG0_RATE_KBPS q, Reg.RNG_TXQ_CFG0_CLASS q] []) ∧
  (∀ (s : State) (now : Nat), ∃ t, exec (.txqSample now) s = .next t ∧
    (∀ p < 2, ∀ q < 256, let l := tget [] (s.port p).txq q
      t.fld (Reg.RNG_TXQ_SAMPLE0_DEPTH_PKTS (256 * p + q)) = min 8191 l.length ∧
      (∀ c r, l = c :: r → t.fld (Reg.RNG_TXQ_SAMPLE0_HEAD_AGE_US (256 * p + q)) = min (2 ^ 19 - 1) (max s.time now - c.time) ∧
        min (2 ^ 19 - 1) (max s.time now - c.time) ≤ t.fld (Reg.RNG_TXQ_SAMPLE1_MAX_AGE_US (256 * p + q)))) ∧
    (∀ g : Fld, g.a < 0x67000 ∨ 0x68000 ≤ g.a → g.lo < 32 → t.fld g = s.fld g) ∧ { t with flds := s.flds } = s.at now)

/-- A rendition's next slice is cut into packets once the slice before has its entries; its packet at the front, granted, is numbered, recorded in
its entry and enqueued on both ports of an inserted node, and dropped, its entry free again, elsewhere. Sender reports go to both.
(Where the spec leaves a choice, the model's: log entries 6, 53, 90.) -/
def packetsAreCut : Prop :=
  (∀ (s : State) (sid r now q : Nat) (l : Slice) (rest : List Slice), let x := s.stream sid
    let y := x.rendition r
    y.txq = some q → y.ready = l :: rest → s.outputsHeld = false → s.cut sid r = [] → l.picLast = false → r < 4 →
    ∃ t, exec (.slicePacketise sid r now) s = .next t ∧
      t.cut sid r = toCuts (((s.at now).cv x.canvas).rtpTime l.c) l.handle false (slicePackets y.payloadMax l) ∧
      ((t.stream sid).rendition r).ready = rest ∧ OtherStreams s t sid ∧ t.ldg.entries = s.ldg.entries ∧
      Touches (s.at now) t (fun b => { b with ring := t.ring, ldg := t.ldg, streams := t.streams, coop := t.coop })) ∧
  (∀ (s : State) (sid r now q : Nat) (k : CutPkt) (rest : List CutPkt) (b : Bucket), let y := (s.stream sid).rendition r
    s.cut sid r = k :: rest → y.txq = some q → (s.at now).grantBucket .net (sid * 4 + r) = some b → r < 4 →
    ∃ t, exec (.netGrant sid r now) s = .next t ∧ t.cut sid r = rest ∧ OtherStreams s t sid ∧
      (let z := (t.stream sid).rendition r
       z.rtpSeq = (y.rtpSeq + 1) % 65536 ∧ z.packets = y.packets + 1 ∧ z.octets = y.octets + k.bytes) ∧
      (s.bypass = 4 → s.linkUp 0 = true → s.linkUp 1 = true →
        t.net s.nextEntry = some ⟨sid, r, q, y.rtpSeq % 65536, k, s.liveSid sid, true, true⟩ ∧
        (∃ e, t.lent s.nextEntry = some e ∧ e.cls = .net ∧ e.bucket = b) ∧
        ∀ p < 2, tget [] (t.port p).txq q = tget [] (s.port p).txq q ++ [⟨s.nextEntry, k.bytes + 68, max s.time now⟩]) ∧
      (s.bypass ≠ 4 → t.net s.nextEntry = none ∧ t.lent s.nextEntry = none ∧ Counted s t (Cnt.RNG_PORT_DOWN 0) 1 ∧
        Counted s t (Cnt.RNG_PORT_DOWN 1) 1) ∧
      Touches (s.at now) t (fun b => { b with ring := t.ring, ldg := t.ldg, streams := t.streams, coop := t.coop })) ∧
  (∀ (s : State) (sid r now q : Nat), let y := (s.stream sid).rendition r
    s.isOpen sid = true → y.txq = some q →
    ∃ t, exec (.rtcpSrSend sid r now) s = .next t ∧
      (∀ p < 2, t.port p = if s.portSends p then { s.port p with reply := (s.port p).reply ++ [.report sid r y.ssrc y.packets y.octets] }
        else s.port p) ∧ { t with ring := (s.at now).ring } = s.at now)

/-- Frames and packets of the ring. -/
def Obligations.FramesAndPacketsPass : Prop := framesPass ∧ portsSend ∧ queuesAreSet ∧ packetsAreCut

/-- A received packet without a flow counts, one past its flow's rate is policed, and one in its turn is stored in a Coop buffer and delivered to
its stream; the packets missing ahead of one that waited are recorded as a loss. A picture-loss request for a rendition asks for a refresh
point; ARP and ICMP for the node's address are answered. (Where the spec leaves a choice, the model's: log entries 90, 91, 92.) -/
def packetsArrive : Prop :=
  (∀ (s : State) (p now : Nat) (k : Packet), s.flowOf 1 k.vlan k.dstIp k.port = none →
    ∃ t, exec (.rtpPacketRx p k now) s = .next t ∧ Counted s t (Cnt.RNG_NO_FLOW p) 1 ∧ OnlyRegs (s.at now) t [] [Cnt.RNG_NO_FLOW p]) ∧
  (∀ (s : State) (p now f : Nat) (k : Packet), s.flowOf 1 k.vlan k.dstIp k.port = some f → ((s.at now).police f k.frameLen).2 = false →
    ∃ t, exec (.rtpPacketRx p k now) s = .next t ∧ t.fld (Reg.RNG_FLOW5_POLICED f) = min (2 ^ 32 - 1) (s.fld (Reg.RNG_FLOW5_POLICED f) + 1) ∧
      (t.flow f).spent = (s.flow f).spent - s.fld (Reg.RNG_FLOW3_CIR_KBPS f) * (max s.time now - (s.flow f).time) ∧
      (∀ g, g ≠ f → t.flow g = s.flow g) ∧ OnlyRegs { s.at now with ring := t.ring } t [Reg.RNG_FLOW5_POLICED f] []) ∧
  (∀ (s : State) (p now f pool : Nat) (k : Packet) (b : Bool), let x := s.flow f
    let sid := s.fld (Reg.RNG_FLOW2_SID f)
    let h := handleOf pool (s.nextBuf pool) ((s.cbuf pool (s.nextBuf pool)).gen + 1)
    s.flowOf 1 k.vlan k.dstIp k.port = some f → ((s.at now).police f k.frameLen).2 = true →
    x.next = none ∨ x.next = some (k.seq % 65536) → x.ahead = [] → s.rxOpen f (k.seq % 65536) = true → k.accepted = true → k.payload ≠ [] →
    k.marker = false → k.payload.length ≤ 8388608 → s.on Reg.COP_STATUS_READY = true → s.coop.waits = [] →
    s.coopChoice (s.fld (Reg.RNG_FLOW2_OWNER f)) (max 257 k.payload.length) = some (pool, b) → s.isOpen sid = true → (s.stream sid).dir = 0 →
    fragKind (s.stream sid).std k.payload = 0 → pool < 6 → s.nextBuf pool < 2 ^ 18 → s.handleAddr h + k.payload.length ≤ partUsable s.part →
    ∃ t, exec (.rtpPacketRx p k now) s = .next t ∧ t.arrivals sid = s.arrivals sid ++ [.data (some h) k.payload.length] ∧
      (∀ j, j ≠ sid → t.arrivals j = s.arrivals j) ∧ (t.flow f).next = some ((k.seq % 65536 + 1) % 65536) ∧ (t.flow f).ahead = [] ∧
      (∀ i (hi : i < k.payload.length), t.byte (s.handleAddr h + i) = BitVec.ofNat 8 k.payload[i]) ∧
      SameOutside s t (s.handleAddr h) k.payload.length ∧ t.streams = s.streams ∧
      Touches (s.at now) t (fun b => { b with ring := t.ring, dram := t.dram, coop := t.coop, freeCtr := t.freeCtr })) ∧
  (∀ (s : State) (f now n h : Nat) (k : RxPkt), let x := s.flow f
    let sid := s.fld (Reg.RNG_FLOW2_SID f)
    let d := seqDist k.seq n
    x.next = some n → x.ahead = [k] → k.seq < 65536 → k.handle = some h → k.marker = false → s.isOpen sid = true → (s.stream sid).dir = 0 →
    fragKind (s.stream sid).std k.payload = 0 → s.arrivals sid = [] → s.fld Reg.RNG_SAMPLE_REORDER_US ≤ max s.time now - x.since →
    ∃ t, exec (.reorderTimeout f now) s = .next t ∧ t.arrivals sid = [.loss d, .data (some h) k.payload.length] ∧
      (t.flow f).next = some ((k.seq + 1) % 65536) ∧ (t.flow f).ahead = [] ∧
      t.fld (Reg.RNG_FLOW6_LOST f) = min (2 ^ 32 - 1) (s.fld (Reg.RNG_FLOW6_LOST f) + d) ∧ (∀ g, g ≠ f → t.flow g = s.flow g) ∧
      OnlyRegs { s.at now with ring := t.ring, streams := t.streams } t [Reg.RNG_FLOW6_LOST f] []) ∧
  (∀ (s : State) (p now : Nat) (k : Rtcp),
    (s.flowOf 2 k.vlan k.dstIp k.port = none → ∃ t, exec (.rtcpRx p k now) s = .next t ∧ Counted s t (Cnt.RNG_NO_FLOW p) 1 ∧
      OnlyRegs (s.at now) t [] [Cnt.RNG_NO_FLOW p]) ∧
    (∀ f, s.flowOf 2 k.vlan k.dstIp k.port = some f → let sid := s.fld (Reg.RNG_FLOW2_SID f)
      let x := s.stream sid
      ((s.at now).police f k.frameLen).2 = true → k.pliOrFir = true → s.isOpen sid = true → x.dir = 1 →
      (x.rendition (s.fld (Reg.RNG_FLOW2_RENDITION f))).ssrc = k.ssrc →
      ∃ t, exec (.rtcpRx p k now) s = .next t ∧ Counted s t Cnt.RNG_RTCP_REQUESTS 1 ∧ t.stream sid = x.askRefresh ∧ OtherStreams s t sid ∧
        (x.enc.request = none → (t.stream sid).enc.request = some x.enc.c) ∧
        SameOutside s t (s.ctxAddr sid) 2048 ∧
        OnlyRegs { s.at now with ring := t.ring, streams := t.streams, dram := t.dram } t [] [Cnt.RNG_RTCP_REQUESTS])) ∧
  (∀ (s : State) (p ip : Nat) (icmp : Bool), ip = s.fld Reg.RNG_NODE_IP_IPV4 → ip ≠ 0 →
    ∃ t, exec (.arpIcmpRx p ip icmp) s = .next t ∧ { t with ring := s.ring } = s ∧
      ∀ q < 2, t.port q = if s.portSends q then { s.port q with reply := (s.port q).reply ++ [.answer ip icmp] } else s.port q)

/-- A management request that passes every check joins the management queue; one that fails a check of authentication counts, and the
sixteenth within a second locks the endpoint out, which then answers nothing until the second has passed. HELLO is answered with the EPOCH.
(Where the spec leaves a choice, the model's: log entry 93.) -/
def managementActs : Prop :=
  ∀ (s : State) (m : MgmtMsg) (now : Nat), s.on Reg.RNG_MGMT_CFG_MGMT_EN = true → m.magic = 0x544D474D → m.version = 1 →
    m.dstIp = s.fld Reg.RNG_NODE_IP_IPV4 → m.dstPort = s.fld Reg.RNG_MGMT_CFG_MGMT_PORT →
    let from_ : MgmtFrom := ⟨m.counter, m.srcIp, m.srcPort⟩
    let okay := m.tagOk = true ∧ m.keySlot = s.fld Reg.RNG_MGMT_CFG_MGMT_KEY_SLOT ∧ m.epoch = s.fld Reg.LCM_EPOCH_EPOCH ∧
      s.ring.counter < m.counter ∧ m.counter < 2 ^ 63
    let q := s.fld Reg.RNG_MGMT_CFG_MGMT_QP
    let fails := s.ring.fails.filter (fun t => decide (max s.time now - t < 1000000))
    (s.ring.lockUntil = none → okay → (s.hq q).staged.length < 16 → ∃ t, exec (.mgmtRequest m now) s = .next t ∧
      t.ring.counter = m.counter ∧ Counted s t Cnt.RNG_MGMT_ACCEPTED 1 ∧
      (t.hq q).staged = (s.hq q).staged ++ [⟨m.cmd.map (fun w => w.toNat), some from_⟩] ∧ (∀ k, k ≠ q → t.hq k = s.hq k) ∧
      t.ldg.entries = s.ldg.entries ∧ Touches (s.at now) t (fun b => { b with ring := t.ring, hqs := t.hqs, ldg := t.ldg })) ∧
    (s.ring.lockUntil = none → okay → 16 ≤ (s.hq q).staged.length → ∃ t, exec (.mgmtRequest m now) s = .next t ∧
      Counted s t Cnt.RNG_MGMT_QUEUE_FULL 1 ∧ OnlyRegs (s.at now) t [] [Cnt.RNG_MGMT_QUEUE_FULL]) ∧
    (s.ring.lockUntil = none → ¬ okay → ∃ t, exec (.mgmtRequest m now) s = .next t ∧ Counted s t Cnt.RNG_MGMT_AUTH_FAIL 1 ∧
      (s.asserted 108 = false → t.fltSticky 108 = true) ∧
      (fails.length < 15 → t.ring.fails = fails ++ [max s.time now] ∧ t.ring.lockUntil = none) ∧
      (15 ≤ fails.length → t.ring.fails = [] ∧ t.ring.lockUntil = some (max s.time now + 1000000)) ∧
      Frame { s.at now with ring := t.ring } t [] [Cnt.RNG_MGMT_AUTH_FAIL]) ∧
    (∀ u, s.ring.lockUntil = some u → max s.time now < u → exec (.mgmtRequest m now) s = .next (s.at now) ∧
      exec (.mgmtLockoutEnd now) s = .next (s.at now)) ∧
    (∀ u, s.ring.lockUntil = some u → u ≤ max s.time now → ∃ t, exec (.mgmtLockoutEnd now) s = .next t ∧ t.ring.lockUntil = none ∧
      { t with ring := (s.at now).ring } = s.at now) ∧
    (∃ t, exec (.mgmtHello m) s = .next t ∧ { t with ring := s.ring } = s ∧
      ∀ p < 2, t.port p = if s.portSends p then
        { s.port p with reply := (s.port p).reply ++ [.hello (s.fld Reg.LCM_EPOCH_EPOCH) from_] } else s.port p)

/-- What the ring brings in. -/
def Obligations.ReceivedPacketsAct : Prop := packetsArrive ∧ managementActs

/-! ## The host interface -/

/-- Registers that any host operation may touch: a held ledger request, HIF_FAULT and HIF_ERR_LOG. -/
def hifF : List Fld :=
  [Reg.LGR_STATUS_LIVE_HELD, Reg.HIF_FAULT_HOST_MEM, Reg.HIF_FAULT_CHAIN, Reg.HIF_FAULT_CPL_LOST, Reg.HIF_FAULT_QUEUE_ERR,
    Reg.HIF_ERR_LOG0_QP, Reg.HIF_ERR_LOG0_KIND, Reg.HIF_ERR_LOG0_DETAIL, Reg.HIF_ERR_LOG0_OPCODE, Reg.HIF_ERR_LOG0_DRV,
    Reg.HIF_ERR_LOG1_CID, Reg.HIF_ERR_LOG1_HOPS, Reg.HIF_ERR_LOG2_ADDR_LO]

/-- The command of entry e ends with f: its completion waits to be written, or is abandoned at once where a reset of PD03 lost it; no other
command's record differs. -/
def Ends (s t : State) (e : Nat) (c : HCmd) (f : HFin) : Prop :=
  (c.lost = false → t.cmd e = some { c with fin := some f, wait := .nothing, since := t.time }) ∧
  (c.lost = true → t.cmd e = none ∧ t.lent e = none) ∧ ∀ k, k ≠ e → t.cmd k = s.cmd k

/-- Queue q has gone to ERROR with a code, what it had staged is gone, FS114 notes it, and no other queue differs. -/
def QueueFails (s t : State) (q code : Nat) : Prop :=
  t.qState q = 3 ∧ t.fld (Reg.HIF_Q5_ERROR q) = code ∧ t.hq q = { s.hq q with staged := [] } ∧ (∀ k, k ≠ q → t.hq k = s.hq k) ∧
    (s.asserted 114 = false → t.fltSticky 114 = true) ∧ t.ldg.entries = s.ldg.entries ∧
    Frame { s with hqs := t.hqs, ldg := t.ldg } t (Reg.HIF_Q5_STATE q :: Reg.HIF_Q5_ERROR q :: hifF) []

/-- A doorbell of an ACTIVE queue moves its pointer where the value lies in its range, and else the queue goes to ERROR; QUEUE_ENABLE makes a
DISABLED queue ACTIVE and empty, QUEUE_DISABLE an ACTIVE one DRAINING, and once nothing of it is in flight it is DISABLED.
(Where the spec leaves a choice, the model's: log entry 94.) -/
def queuesFollow : Prop :=
  ∀ (s : State) (q : Nat) (v : Word), q < 64 → s.isMgmt q = false →
    let tail := bitsOf v 0 12
    let a := (s.hq q).cqHead
    let n := s.cqSize q
    let ok := tail < n ∧ (tail + n - a) % n ≤ (s.fld (Reg.HIF_Q5_CQ_TAIL q) + n - a) % n
    (s.qState q = 1 → tail < s.sqSize q → ∃ t, exec (.sqTailDoorbell q v) s = .next t ∧ t.hq q = { s.hq q with sqTail := tail } ∧
      (∀ k, k ≠ q → t.hq k = s.hq k) ∧ { t with hqs := s.hqs } = s) ∧
    (s.qState q = 1 → s.sqSize q ≤ tail → ∃ t, exec (.sqTailDoorbell q v) s = .next t ∧ QueueFails s t q 1) ∧
    (s.qState q ≠ 0 → ok → ∃ t, exec (.cqHeadDoorbell q v) s = .next t ∧ t.hq q = { s.hq q with cqHead := tail } ∧
      (∀ k, k ≠ q → t.hq k = s.hq k) ∧ { t with hqs := s.hqs } = s) ∧
    (s.qState q = 1 → ¬ ok → ∃ t, exec (.cqHeadDoorbell q v) s = .next t ∧ QueueFails s t q 2) ∧
    (v.getLsbD 31 = true → s.pd 3 = 0 → s.qState q = 0 → ∃ t, exec (.queueEnable q v) s = .next t ∧ t.qState q = 1 ∧ t.fld (Reg.HIF_Q5_ERROR q) = 0 ∧
      t.fld (Reg.HIF_Q5_SQ_HEAD q) = 0 ∧ t.fld (Reg.HIF_Q5_CQ_TAIL q) = 0 ∧ t.fld (Reg.HIF_Q6_CPL_LOST q) = 0 ∧
      t.fld (Reg.HIF_Q4_SQ_SIZE_M1 q) = tail ∧ t.fld (Reg.HIF_Q4_CQ_SIZE_M1 q) = bitsOf v 12 12 ∧
      t.fld (Reg.HIF_Q4_VECTOR q) = bitsOf v 24 6 ∧ t.fld (Reg.HIF_Q4_ENABLE q) = 1 ∧
      (t.hq q).staged = [] ∧ (t.hq q).sqTail = 0 ∧ (t.hq q).cqHead = 0 ∧ (t.hq q).phase = true ∧ (∀ k, k ≠ q → t.hq k = s.hq k) ∧
      OnlyRegs { s with hqs := t.hqs } t [Reg.HIF_Q5_STATE q, Reg.HIF_Q5_ERROR q, Reg.HIF_Q5_SQ_HEAD q, Reg.HIF_Q5_CQ_TAIL q,
        Reg.HIF_Q6_CPL_LOST q, Reg.HIF_Q4_SQ_SIZE_M1 q, Reg.HIF_Q4_CQ_SIZE_M1 q, Reg.HIF_Q4_VECTOR q, Reg.HIF_Q4_PRIO q,
        Reg.HIF_Q4_ENABLE q] []) ∧
    (v.getLsbD 31 = false → s.pd 3 = 0 → s.qState q = 1 → ∃ t, exec (.queueDisable q v) s = .next t ∧ t.qState q = 2 ∧ t.fld (Reg.HIF_Q4_ENABLE q) = 0 ∧
      t.hq q = { s.hq q with staged := [] } ∧ (∀ k, k ≠ q → t.hq k = s.hq k) ∧ t.reqOf .host q = none ∧ t.ldg.entries = s.ldg.entries ∧
      OnlyRegs { s with hqs := t.hqs, ldg := t.ldg } t [Reg.HIF_Q5_STATE q, Reg.HIF_Q4_ENABLE q] []) ∧
    (2 ≤ s.qState q → inFlight q s.cmds = 0 → ∃ t, exec (.queueDrained q) s = .next t ∧ t.qState q = 0 ∧
      OnlyRegs s t [Reg.HIF_Q5_STATE q] [])

/-- Written commands reach the staging buffer, eight at most, and the first asks for its entry. At its grant a command is in flight: it
holds an entry, and SQ_HEAD advances; the first check that it fails ends it. A completion is written to its slot with its phase, and its entry is
free again; one that cannot be written in time is abandoned and counted.
(Where the spec leaves a choice, the model's: log entries 6, 94, 98.) -/
def commandsFlow : Prop :=
  (∀ (s : State) (q : Nat) (l : List (List Word)), s.fetches q = true → let x := s.hq q
    let got := (l.take (min (8 - x.staged.length) (s.fetchable q))).map (fun w => HStaged.mk (w.map (fun v => v.toNat)) none)
    ∃ t, exec (.commandFetch q l) s = .next t ∧ (t.hq q).staged = x.staged ++ got ∧ (t.hq q).sqTail = x.sqTail ∧
      (∀ k, k ≠ q → t.hq k = s.hq k) ∧ t.ldg.entries = s.ldg.entries ∧
      (∀ y r, x.staged ++ got = y :: r → cFence y.words = false ∨ inFlight q s.cmds = 0 → (t.reqOf .host q).isSome) ∧
      Frame { s with hqs := t.hqs, ldg := t.ldg } t hifF []) ∧
  (∀ (s : State) (q now : Nat) (b : Bucket) (x : HStaged) (rest : List HStaged),
    (s.at now).grantBucket .host q = some b → (s.hq q).staged = x :: rest → let e := s.nextEntry
    ∃ t c, exec (.commandStart q now) s = .next t ∧ t.cmd e = some c ∧ c.q = q ∧ c.words = x.words ∧ c.mgmt = x.mgmt ∧ c.lost = false ∧
      c.wait = .nothing ∧ c.fin = s.cmdCheck x.words x.mgmt.isSome ∧ (∀ k, k ≠ e → t.cmd k = s.cmd k) ∧
      (∃ y, t.lent e = some y ∧ y.cls = .host ∧ y.bucket = b) ∧ (t.hq q).staged = rest ∧ (∀ k, k ≠ q → t.hq k = s.hq k) ∧
      t.fld (Reg.HIF_Q5_SQ_HEAD q) = (s.fld (Reg.HIF_Q5_SQ_HEAD q) + 1) % s.sqEntries q % 4096 ∧ Counted s t Cnt.HIF_CMDS_FETCHED 1 ∧
      Frame { s.at now with hqs := t.hqs, ldg := t.ldg, cmds := t.cmds } t
        (Reg.HIF_Q5_SQ_HEAD q :: Reg.LGR_PEAK_PEAK 0 :: hifF) []) ∧
  (∀ (s : State) (e now : Nat) (c : HCmd) (f : HFin), s.cmd e = some c → c.fin = some f →
    let slot := s.fld (Reg.HIF_Q5_CQ_TAIL c.q)
    let w := s.cplWords c f
    (s.cplReady c = true → ∃ t, exec (.completionWrite e now) s = .next t ∧ t.cmd e = none ∧ t.lent e = none ∧
      (∀ k, k ≠ e → t.cmd k = s.cmd k) ∧ t.fld (Reg.HIF_Q5_CQ_TAIL c.q) = (slot + 1) % s.cqEntries c.q % 4096 ∧
      (t.hq c.q).phase = (if (slot + 1) % s.cqEntries c.q = 0 then !(s.hq c.q).phase else (s.hq c.q).phase) ∧
      Counted s t Cnt.HIF_CMDS_COMPLETED 1 ∧
      (c.mgmt = none → (∃ m, t.toHost = s.toHost ++ .cpl c.q slot w.1 w.2 f.r0 f.r1 :: m) ∧ t.ring = (s.at now).ring) ∧
      (∀ n, c.mgmt = some n → (∃ m, t.toHost = s.toHost ++ m) ∧ ∀ p < 2, t.port p = if s.portSends p then
        { s.port p with reply := (s.port p).reply ++ [.mgmt n [w.1, w.2, f.r0, f.r1]] } else s.port p) ∧
      w.1 = cCid c.words + f.status * 2 ^ 16 + f.detail * 2 ^ 24 ∧
      Touches (s.at now) t (fun b => { b with hqs := t.hqs, ldg := t.ldg, cmds := t.cmds, ring := t.ring })) ∧
    (s.cplReady c = false → atLeast1 (s.fld Reg.HIF_CFG_CPL_WAIT_MS) * 1000 ≤ max s.time now - c.since →
      ∃ t, exec (.cplWaitExpiry e now) s = .next t ∧ t.cmd e = none ∧ t.lent e = none ∧ (∀ k, k ≠ e → t.cmd k = s.cmd k) ∧
        t.fld (Reg.HIF_Q6_CPL_LOST c.q) = min (2 ^ 16 - 1) (s.fld (Reg.HIF_Q6_CPL_LOST c.q) + 1) ∧ t.fld (Reg.HIF_Q5_OVERFLOW c.q) = 1 ∧
        Counted s t Cnt.HIF_CPL_LOST 1 ∧ (s.asserted 113 = false → t.fltSticky 113 = true) ∧
        Frame { s.at now with ldg := t.ldg, cmds := t.cmds } t
          (Reg.HIF_Q6_CPL_LOST c.q :: Reg.HIF_Q5_OVERFLOW c.q :: hifF) []))

/-- Queue pairs, commands in flight, completions. -/
def Obligations.QueuesFollowDoorbells : Prop := queuesFollow ∧ commandsFlow

/-- A vector whose events have waited long enough falls due: sent, or pending where it is masked or the function sleeps. A vector
unmasked with its pending bit set is sent. QUIESCE withdraws the host queues' requests and sends every vector with events; its release asks
again. (Where the spec leaves a choice, the model's: log entry 99.) -/
def vectorsFall : Prop :=
  (∀ (s : State) (v now : Nat), v < 64 → (s.vec v).count ≠ 0 → s.fld (Reg.HIF_VEC_MOD_TIME_US v) ≤ max s.time now - (s.vec v).since →
    ∃ t, exec (.vectorTimerExpiry v now) s = .next t ∧ (t.vec v).count = 0 ∧ (∀ k, k ≠ v → t.vec k = s.vec k) ∧
      (s.d3hot = false → s.on (Reg.MSIX_CTRL_MASK v) = false → t.toHost = s.toHost ++ [.msix v] ∧ (t.vec v).pend = (s.vec v).pend) ∧
      (s.d3hot = false → s.on (Reg.MSIX_CTRL_MASK v) = true → t.toHost = s.toHost ∧ (t.vec v).pend = true) ∧
      (s.d3hot = true → t.toHost = s.toHost ++ (if s.pmeEn then [.pme] else []) ∧ (t.vec v).pend = true) ∧
      OnlyRegs { s.at now with vecs := t.vecs, toHost := t.toHost, pmeStatus := t.pmeStatus } t []
        [Cnt.HIF_MSIX_SENT, Cnt.HIF_PME_SENT]) ∧
  (∀ (s : State) (v : Nat), v < 64 → s.pd 3 = 0 →
    ∃ t, exec (.vectorUnmask v) s = .next t ∧ t.fld (Reg.MSIX_CTRL_MASK v) = 0 ∧ (∀ k, k ≠ v → t.vec k = s.vec k) ∧
      ((s.vec v).pend = true → s.d3hot = false → t.toHost = s.toHost ++ [.msix v] ∧ t.vec v = { s.vec v with pend := false }) ∧
      ((s.vec v).pend = false ∨ s.d3hot = true → t.toHost = s.toHost ∧ t.vec v = s.vec v) ∧
      OnlyRegs { s with vecs := t.vecs, toHost := t.toHost } t [Reg.MSIX_CTRL_MASK v] [Cnt.HIF_MSIX_SENT]) ∧
  (∀ (s : State) (w : Word), s.pd 3 = 0 → ∃ t, exec (.quiesce w) s = .next t ∧ t.fld Reg.HIF_CTRL_QUIESCE = (if w.getLsbD 1 then 1 else 0) ∧
    (w.getLsbD 0 = true → t.fld Reg.HIF_CTRL_LOCK = 1) ∧ t.ldg.entries = s.ldg.entries ∧
    (w.getLsbD 1 = true → s.on Reg.HIF_CTRL_QUIESCE = false →
      (∀ q < 64, s.isMgmt q = false → t.reqOf .host q = none) ∧ (∀ v < 64, (t.vec v).count = 0) ∧
      (∀ v < 64, (s.vec v).count ≠ 0 ∨ (s.vec v).pend = true → s.on (Reg.MSIX_CTRL_MASK v) = false → s.d3hot = false → .msix v ∈ t.toHost)) ∧
    (w.getLsbD 1 = false → ∀ q < 64, ∀ x r, (s.hq q).staged = x :: r → cFence x.words = false → (t.reqOf .host q).isSome) ∧
    Frame { s with ldg := t.ldg } t (Reg.HIF_CTRL_QUIESCE :: Reg.HIF_CTRL_LOCK :: hifF) [])

/-- A reset of PD03 disables and empties every host queue and abandons what they wait for, but for the management queue; the link is kept by
a hot reset and a function level reset alone. D3hot keeps its registers, and D0 writes the completion that waits. The link trains once PD03 has left
reset. (Where the spec leaves a choice, the model's: log entries 10, 100.) -/
def hostResets : Prop :=
  (∀ (s : State) (now : Nat) (c : Instr) (link : Bool),
    (c = .hotReset now ∧ link = true) ∨ (c = .functionLevelReset now ∧ link = true) ∨ (c = .perstAssert now ∧ link = false) ∨
      (c = .linkDown now ∧ link = false) ∨ (c = .d3coldEntry now ∧ link = false) →
    (∀ n < 16, s.drvHost n = true → (s.drv n).phase ≠ .running) →
    ∃ t, exec c s = .next t ∧ t.fld Reg.HIF_STATUS_LINK_UP = (if link then s.fld Reg.HIF_STATUS_LINK_UP else 0) ∧
      t.fld Reg.HIF_APERTURE_BASE_GIB = s.fld Reg.HIF_APERTURE_BASE_GIB ∧ t.fld Reg.HIF_CTRL_LOCK = 0 ∧
      (∀ q < 64, s.isMgmt q = false → t.qState q = 0 ∧ t.hq q = hq0 ∧ t.reqOf .host q = none) ∧
      (∀ e x, s.cmd e = some x → (x.mgmt.isSome → t.cmd e = some x) ∧
        (x.mgmt = none → x.reading = true ∨ x.fin.isSome → t.cmd e = none ∧ t.lent e = none) ∧
        (x.mgmt = none → x.reading = false → x.fin = none → t.cmd e = some { x with lost := true })) ∧
      t.vecs = [] ∧ t.pmeEn = false ∧ t.offline 4 = true ∧ t.perst = (s.perst || decide (c = .perstAssert now)) ∧
      ((c = .d3coldEntry now) → t.pd 3 = 3) ∧ (c ≠ .d3coldEntry now → t.pd 3 = s.pd 3) ∧
      (∀ g : Fld, g.key / 32 / 0x10000 ≠ 5 → eventField g.key = false → g.key ≠ (pdStateF 3).key → g.key ≠ Reg.LGR_STATUS_LIVE_HELD.key →
        t.fld g = s.fld g) ∧
      Touches (s.at now) t (fun b =>
        { b with hqs := t.hqs, ldg := t.ldg, cmds := t.cmds, bars := [], pmeEn := false, nests := t.nests, perst := t.perst })) ∧
  (∀ (s : State) (now : Nat), s.hostReach = true →
    ∃ t, exec (.d3hotEntry now) s = .next t ∧ t.d3hot = true ∧ t.pd 3 = 2 ∧ OnlyRegs (s.at now) t [Reg.HIF_STATUS_DSTATE, pdStateF 3] []) ∧
  (∀ (s : State) (now : Nat), s.d3hot = true → ∃ t, exec (.d0Entry now) s = .next t ∧ t.d3hot = false ∧ t.pd 3 = 0 ∧
    (∀ e c f, s.cmds = [(e, some c)] → c.fin = some f → c.mgmt = none → s.cqFull c.q = false → t.cmd e = none ∧
      ∃ m, t.toHost = s.toHost ++ .cpl c.q (s.fld (Reg.HIF_Q5_CQ_TAIL c.q)) (s.cplWords c f).1 (s.cplWords c f).2 f.r0 f.r1 :: m) ∧
    (s.cmds = [] → ∀ v < 64, (s.vec v).pend = true → s.on (Reg.MSIX_CTRL_MASK v) = false → .msix v ∈ t.toHost ∧ (t.vec v).pend = false) ∧
    Touches (s.at now) t (fun b => { b with hqs := t.hqs, ldg := t.ldg, cmds := t.cmds })) ∧
  (∀ (s : State) (now : Nat), ∃ t, exec (.perstDeassert now) s = .next t ∧ t.perst = false ∧
    (s.mode < 2 → t = { s.at now with perst := false }) ∧
    (2 ≤ s.mode → t.fld Reg.HIF_STATUS_LINK_UP = 1 ∧ t.pd 3 = 0 ∧
      (1 ≤ t.fld Reg.HIF_STATUS_SPEED ∧ t.fld Reg.HIF_STATUS_SPEED ≤ 5) ∧ t.fld Reg.HIF_STATUS_WIDTH ∈ [1, 2, 4, 8] ∧
      OnlyRegs { s.at now with perst := false, freeCtr := t.freeCtr } t
        [Reg.HIF_STATUS_LINK_UP, Reg.HIF_STATUS_SPEED, Reg.HIF_STATUS_WIDTH, pdStateF 3] []))

/-- BAR4 is a window of 4 GiB onto DRAM: bytes written are stored at their place and no other changes, bytes past the usable size are ignored
and noted; a read answers with the bytes, and with poison where a line is poisoned.
(Where the spec leaves a choice, the model's: log entry 67.) -/
def bar4Reaches : Prop :=
  ∀ (s : State) (off : Nat), s.bar4Open = true → let a := s.fld Reg.HIF_APERTURE_BASE_GIB * 2 ^ 30 + off
    let room := partUsable s.part - a
    (∀ bytes : List Nat, bytes ≠ [] → off + bytes.length ≤ 2 ^ 32 → ∃ t, exec (.bar4Write off bytes) s = .next t ∧
      (∀ i (h : i < bytes.length), a + i < partUsable s.part → t.byte (a + i) = BitVec.ofNat 8 bytes[i]) ∧
      SameOutside s t a (min bytes.length room) ∧ (room < bytes.length → Notes 0 s t) ∧
      Frame { s with dram := t.dram } t (Reg.FLT_INJECT_CTRL_ARM :: pdStateF (8 + s.quadOf a) :: errF) (Cnt.DMC_ACCT 578 :: errC)) ∧
    (∀ len, off + len ≤ 2 ^ 32 → let n := min len room
      ∃ t, exec (.bar4Read off len) s = .next t ∧ (∃ m, t.toHost = s.toHost ++
          .barData (s.getBytes a n ++ List.replicate (len - n) 0) (s.rangePoison a n) :: m) ∧
        (room < len → Notes 0 s t) ∧ t.dram = { s.dram with bw := t.dram.bw } ∧
        Frame { s with dram := t.dram } t [pdStateF (8 + s.quadOf a)] [Cnt.DMC_ACCT 578])

/-- Vectors, resets of the host interface, and BAR4. -/
def Obligations.VectorsResetsAndWindows : Prop := vectorsFall ∧ hostResets ∧ bar4Reaches

/-- A command that needs no data acts at once: NOP, BUF_FREE, the overrides, a refresh, a new target version, a close at the frame boundary, a
buffer, a raised floor. (Where the spec leaves a choice, the model's: log entries 73, 97, 105.) -/
def commandsAct : Prop :=
  ∀ (s : State) (e now : Nat) (c : HCmd),
    let sid := cTarget c.words
    let x := s.stream sid
    let p0 := cParam c.words 0
    let v := p0 % 256
    (s.running e 0 = some c → ∃ t, exec (.cmdNop e) s = .next t ∧ Ends s t e c okFin ∧
      Frame { s with cmds := t.cmds, ldg := t.ldg } t hifF []) ∧
    (s.running e 0x31 = some c → let b := s.cbuf (p0 % 8) (p0 / 8 % 2 ^ 18)
      let mine : Bool := b.held && b.gen = p0 / 2 ^ 21 % 16 && p0 % 8 < 6 && p0 < 2 ^ 25
      ∃ t, exec (.bufFree e) s = .next t ∧ Ends s t e c okFin ∧
        (mine = true → (t.cbuf (p0 % 8) (p0 / 8 % 2 ^ 18)).held = false ∧ Counted s t Cnt.COP_FREES 1) ∧
        (mine = false → t.coop = s.coop ∧ Counted s t Cnt.COP_BAD_FREES 1 ∧ t.fld Reg.COP_STATUS_BAD_FREE = 1) ∧
        Frame { s with cmds := t.cmds, ldg := t.ldg, coop := t.coop } t (Reg.COP_STATUS_BAD_FREE :: hifF)
          [Cnt.COP_FREES, Cnt.COP_BAD_FREES]) ∧
    (s.running e 0x21 = some c → ∃ t, exec (.override e now) s = .next t ∧ Ends s t e c okFin ∧ t.fld Reg.INL_OVR_STATUS_ACTIVE = 1 ∧
      t.fld Reg.INL_OVR_STATUS_ACTIVE_SET = p0 % 8 ∧ t.fld Reg.INL_OVR_STATUS_SOURCE = 1 ∧
      (∀ cv, t.cv cv = { s.cv cv with switch := (t.cv cv).switch }) ∧
      (∀ cv y, (cv, y) ∈ s.canvases → (∃ l, (cv, l) ∈ (s.ovrSet (p0 % 8)).canvases) → (t.cv cv).switch = some (some (p0 % 8))) ∧
      Frame { s.at now with cmds := t.cmds, ldg := t.ldg, canvases := t.canvases, restore := t.restore } t
        (Reg.INL_OVR_STATUS_ACTIVE :: Reg.INL_OVR_STATUS_ACTIVE_SET :: Reg.INL_OVR_STATUS_SOURCE :: Reg.INL_OVR_STATUS_SWITCHING :: hifF) []) ∧
    (s.running e 0x22 = some c → s.on Reg.INL_OVR_STATUS_ACTIVE = true → ∃ t, exec (.overrideRelease e now) s = .next t ∧ Ends s t e c okFin ∧
      t.fld Reg.INL_OVR_STATUS_ACTIVE = 0 ∧
      (∀ cv, t.cv cv = { s.cv cv with
        switch := if (s.cv cv).ovr.isSome || (s.cv cv).switch.isSome then some none else (s.cv cv).switch }) ∧
      Frame { s.at now with cmds := t.cmds, ldg := t.ldg, canvases := t.canvases, restore := t.restore } t
        (Reg.INL_OVR_STATUS_ACTIVE :: Reg.INL_OVR_STATUS_ACTIVE_SET :: Reg.INL_OVR_STATUS_SOURCE :: Reg.INL_OVR_STATUS_SWITCHING :: hifF) []) ∧
    (s.running e 0x14 = some c → ∃ t, exec (.refreshRequest e now) s = .next t ∧
      (x.state = 0 ∨ x.dir = 0 → Ends s t e c (formatFail 3) ∧ t.streams = s.streams) ∧
      (x.state ≠ 0 → x.dir = 1 → Ends s t e c okFin ∧ t.stream sid = x.askRefresh ∧ OtherStreams s t sid) ∧
      SameOutside s t (s.ctxAddr sid) 2048 ∧
      Frame { s.at now with cmds := t.cmds, ldg := t.ldg, streams := t.streams, dram := t.dram } t hifF []) ∧
    (s.running e 0x15 = some c → ∃ t, exec (.setTargetVersion e now) s = .next t ∧ OtherStreams s t sid ∧
      (x.state = 0 ∨ x.dir = 0 → Ends s t e c (formatFail 3) ∧ t.stream sid = x) ∧
      (x.state ≠ 0 → x.dir ≠ 0 → v = 0 ∨ (v ≠ x.version ∧ s.loadable v = false) → Ends s t e c ⟨11, 0, 0, 0, 0⟩ ∧
        (x.dir = 1 → t.stream sid = x.recordRefusal 11 (upTo 0 x.rends)) ∧ (x.dir ≠ 1 → t.stream sid = x)) ∧
      (x.state ≠ 0 → x.dir ≠ 0 → v ≠ 0 → v = x.version → Ends s t e c okFin ∧ t.stream sid = x) ∧
      (x.state ≠ 0 → x.dir ≠ 0 → v ≠ 0 → v ≠ x.version → s.loadable v = true → Ends s t e c okFin ∧
        t.stream sid = { x with target := v, enc := { x.enc with repinAt := some (x.enc.repinAt.getD (max s.time now)) } }) ∧
      SameOutside s t (s.ctxAddr sid) 2048 ∧
      Frame { s.at now with cmds := t.cmds, ldg := t.ldg, streams := t.streams, dram := t.dram } t hifF []) ∧
    (s.running e 0x11 = some c → ∃ t, exec (.streamClose e now) s = .next t ∧ OtherStreams s t sid ∧
      (x.state = 0 → Ends s t e c (formatFail 3) ∧ t.streams = s.streams) ∧
      (x.state ≠ 0 → x.idle = true ∨ s.outputsHeld = true → (t.stream sid).state = 0 ∧ (t.stream sid).lanes = [] ∧
        QueuesLeft s t sid x.lanes ∧ (∀ p ∈ t.shp.ready, dSid p.desc ≠ sid ∧ p ∈ s.shp.ready) ∧
        (∀ k, t.cv k = if x.dir = 1 ∧ k = x.canvas then { s.cv k with copies := [] } else s.cv k) ∧ (c.lost = true → t.cmd e = none) ∧
        (c.lost = false → t.cmd e = some { c with fin := some okFin, wait := .nothing, since := t.time })) ∧
      (x.state ≠ 0 → x.idle = false → s.outputsHeld = false → t.stream sid = { x with closeBy := some (x.closeBy.getD e) } ∧
        t.cmd e = some { c with wait := .boundary } ∧ ∀ k, k ≠ e → t.cmd k = s.cmd k) ∧
      Frame { s.at now with cmds := t.cmds, ldg := t.ldg, streams := t.streams, dram := t.dram, lathes := t.lathes, canvases := t.canvases,
                            shp := { s.shp with ready := t.shp.ready } } t (x.lanes.map Reg.LTH_BSQ_CTRL_FLUSH ++ hifF) []) ∧
    (s.running e 0x30 = some c → ∃ t, exec (.bufAlloc e now) s = .next t ∧
      (p0 = 0 ∨ 8388608 < p0 → Ends s t e c ⟨2, 0, 0, 0, 0⟩ ∧ t.coop = s.coop) ∧
      (0 < p0 → p0 ≤ 8388608 → s.on Reg.COP_STATUS_READY = false → t.cmd e = some { c with wait := .buffer } ∧
        t.coop.waits = s.coop.waits ++ [⟨.host e, sid, p0, max s.time now⟩]) ∧
      (0 < p0 → p0 ≤ 8388608 → s.on Reg.COP_STATUS_READY = true → s.coop.waits = [] →
        (s.coopChoice sid p0 = none → Ends s t e c ⟨8, 0, 0, 0, 0⟩ ∧ t.coop = s.coop ∧ Counted s t Cnt.COP_TRY_FAILS 1) ∧
        (∀ p b, s.coopChoice sid p0 = some (p, b) →
          Ends s t e c ⟨0, 0, 0, handleOf p (s.nextBuf p) ((s.cbuf p (s.nextBuf p)).gen + 1), 0⟩ ∧
          (t.cbuf p (s.nextBuf p)).held = true ∧ (t.cbuf p (s.nextBuf p)).owner = sid)) ∧
      Frame { s.at now with cmds := t.cmds, ldg := t.ldg, coop := t.coop, freeCtr := t.freeCtr } t
        (Reg.COP_STATUS_LIVE_WAIT :: (upTo 0 6).map Reg.COP_POOL6_PEAK_HELD ++ hifF)
        [Cnt.COP_ALLOCS, Cnt.COP_FALLBACKS, Cnt.COP_TRY_FAILS, Cnt.COP_WAITS]) ∧
    (s.running e 0x41 = some c → let k := p0 % 4 - 1
      let run := tget 0 s.life.running k
      let old := s.fld (Reg.LCM_FLOOR_FLOOR k)
      let low : Bool := s.lathesAll.any (fun n => s.fld (Reg.SPN_SECVER_SECVER n) < run) ||
        s.manifests.any (fun y => y.2.any (fun m => m.secver < run))
      ∃ t, exec (.floorCommit e) s = .next t ∧
        (k = 2 → low = true → Ends s t e c badParam ∧ t.fld (Reg.LCM_FLOOR_FLOOR k) = old) ∧
        (k ≠ 2 ∨ low = false → run ≤ old → Ends s t e c ⟨0, 0, 0, old, 0⟩ ∧ t.fld (Reg.LCM_FLOOR_FLOOR k) = old) ∧
        (k ≠ 2 ∨ low = false → old < run → s.fld (floorLeft k) = 0 → Ends s t e c badParam ∧ t.fld (Reg.LCM_FLOOR_FLOOR k) = old) ∧
        (k < 3 → k ≠ 2 ∨ low = false → old < run → s.fld (floorLeft k) ≠ 0 → Ends s t e c ⟨0, 0, 0, run, 0⟩ ∧
          t.fld (Reg.LCM_FLOOR_FLOOR k) = run % 2 ^ (Reg.LCM_FLOOR_FLOOR k).w ∧
          t.fld (floorLeft k) = (s.fld (floorLeft k) - 1) % 2 ^ (floorLeft k).w) ∧
        Frame { s with cmds := t.cmds, ldg := t.ldg } t (Reg.LCM_FLOOR_FLOOR k :: floorLeft k :: hifF) [])

/-- A command with data follows its chain: where the walk fails it ends so and the failure is recorded; else it reads. EGRESS and STREAM_STATS
write device bytes to the host's ranges in order and end with the count. In D3hot they wait.
(Where the spec leaves a choice, the model's: log entries 95, 96.) -/
def commandsRead : Prop :=
  ∀ (s : State) (e now : Nat) (c : HCmd) (segs : List ChainSeg), let w := s.walk c.words segs
    (∀ (op : Nat) (i : Instr), (op = 0x10 ∧ i = .streamOpen e segs now) ∨ (op = 0x12 ∧ i = .streamConfig e segs now) ∨
        (op = 0x20 ∧ i = .canvasCommit e segs now) ∨ (op = 0x40 ∧ i = .imageLoad e segs now) → s.running e op = some c →
      (s.d3hot = true → exec i s = .next (s.at now)) ∧
      (s.d3hot = false → ∃ t, exec i s = .next t ∧
        ((∀ f a, w.2 ≠ .fail f a) → t.cmd e = some { c with hops := w.1.hops, wait := .data (cLen c.words) okFin } ∧
          (∀ k, k ≠ e → t.cmd k = s.cmd k)) ∧
        (∀ f a, w.2 = .fail f a → Ends s t e { c with hops := w.1.hops } f ∧ Counted s t Cnt.HIF_CHAIN_FAULTS 1 ∧
          t.fld Reg.HIF_ERR_LOG0_KIND = f.kind % 16 ∧ t.fld Reg.HIF_ERR_LOG0_DETAIL = f.detail % 256 ∧
          t.fld Reg.HIF_ERR_LOG1_CID = cCid c.words % 2 ^ 16 ∧ t.fld Reg.HIF_ERR_LOG1_HOPS = w.1.hops % 2 ^ 16 ∧
          t.fld Reg.HIF_ERR_LOG2_ADDR_LO = a % 2 ^ 32 ∧ (s.asserted 112 = false → t.fltSticky 112 = true)) ∧
        Frame { s.at now with cmds := t.cmds, ldg := t.ldg } t hifF [])) ∧
    (s.running e 0x32 = some c → s.d3hot = false → ∃ t, exec (.ingest e segs) s = .next t ∧
      ((∀ f a, w.2 ≠ .fail f a) → 0 < w.1.moved → t.cmd e = some { c with hops := w.1.hops, wait := .data w.1.moved okFin }) ∧
      (∀ f a, w.2 = .fail f a → Counted s t Cnt.HIF_CHAIN_FAULTS 1 ∧
        (0 < w.1.moved → t.cmd e = some { c with hops := w.1.hops, wait := .data w.1.moved f })) ∧
      Frame { s with cmds := t.cmds, ldg := t.ldg } t hifF []) ∧
    (∀ (op a most : Nat) (i : Instr), (op = 0x33 ∧ i = .egress e segs ∧ a = cDev c.words ∧ most = cLen c.words) ∨
        (op = 0x13 ∧ i = .streamStats e segs ∧ a = s.ctxAddr (cTarget c.words) ∧ most = 2048) → s.running e op = some c →
      (s.d3hot = true → exec i s = .next s) ∧
      (s.d3hot = false → c.lost = false → (∀ f a, w.2 ≠ .fail f a) → let n := min w.1.moved most
        ∃ t f, exec i s = .next t ∧ Ends s t e { c with hops := w.1.hops, moved := n } f ∧ f.r0 = n ∧ (op = 0x33 → f.status = 0) ∧
          f.r1 = (if op = 0x33 ∧ s.rangePoison a n = true then 2 ^ 31 else 0) ∧
          t.toHost = (s.egress a (cutRanges n w.1.ranges)).toHost ∧
          (cChain c.words = false → a % 64 = 0 → 0 < n → n ≤ 64 → cLen c.words = n →
            t.toHost = s.toHost ++ [.write (cData c.words) (s.getBytes a n) (s.poisoned (a / 64))]) ∧
          t.dram = { s.dram with bw := t.dram.bw } ∧
          Frame { s with cmds := t.cmds, ldg := t.ldg, dram := t.dram } t (pdStateF (8 + s.quadOf a) :: hifF) [Cnt.DMC_ACCT 578])) ∧
    (cChain c.words = false → w = (⟨0, cLen c.words, [(cData c.words, cLen c.words)]⟩, .done))

/-- What a command acts on once its data has come: INGEST stores it; STREAM_OPEN opens its stream where every check holds, and
STREAM_CONFIG changes a decode stream; CANVAS_COMMIT joins its canvas's queue; IMAGE_LOAD ends with the reason of the first check that
fails, and a firmware image goes to the standby bank. (Where the spec leaves a choice, the model's: log entries 54, 67, 97, 101, 103.) -/
def dataActs : Prop :=
  ∀ (s : State) (e now : Nat) (c : HCmd) (left : Nat) (g : HFin), s.cmd e = some c → c.wait = .data left g → c.fin = none →
    let sid := cTarget c.words
    (∀ bytes : List Nat, cOpcode c.words = 0x32 → bytes ≠ [] → bytes.length ≤ left →
      let a := cDev c.words + c.moved
      a + bytes.length ≤ partUsable s.part →
      ∃ t, exec (.hostReadCompletion (128 + e) (.data bytes) now) s = .next t ∧
        (∀ i (h : i < bytes.length), t.byte (a + i) = BitVec.ofNat 8 bytes[i]) ∧ SameOutside s t a bytes.length ∧
        (bytes.length < left → ∃ x, t.cmd e = some x ∧ x.wait = .data (left - bytes.length) g ∧ x.moved = c.moved + bytes.length) ∧
        (bytes.length = left → c.lost = false → ∃ x, t.cmd e = some x ∧ x.fin = some { g with r0 := c.moved + left }) ∧
        Frame { s.at now with dram := t.dram, cmds := t.cmds, ldg := t.ldg } t
          (Reg.FLT_INJECT_CTRL_ARM :: pdStateF (8 + s.quadOf a) :: errF ++ hifF) (Cnt.DMC_ACCT 578 :: errC)) ∧
    (∀ bytes : List Nat, left ≤ bytes.length → c.lost = false → let all := c.got ++ (bytes.take left).map (fun b => b % 256)
      (cOpcode c.words = 0x10 →
        ∃ t x, exec (.hostReadCompletion (128 + e) (.data bytes) now) s = .next t ∧ t.cmd e = some x ∧ OtherStreams s t sid ∧
          (parseStream 5 all = none → x.fin = some payloadFail ∧ t.streams = s.streams) ∧
          (∀ n items, parseStream 5 all = some (n, items) →
            (n ≠ sid → x.fin = some (formatFail 3) ∧ t.streams = s.streams) ∧
            (∀ y, n = sid → draft items = some y →
              (s.isOpen sid = true → x.fin = some ⟨2, 3, 3, 0, 0⟩ ∧ t.streams = s.streams) ∧
              (s.isOpen sid = false → y.dir = 0 → s.decodeReason y ≠ 0 → x.fin = some (admission (s.decodeReason y)) ∧ t.streams = s.streams) ∧
              (s.isOpen sid = false → y.dir = 0 → s.decodeReason y = 0 → s.streamHolds y = true → x.fin = some okFin ∧
                t.isOpen sid = true ∧ (t.stream sid).dir = 0 ∧ (t.stream sid).params = y.params) ∧
              (∀ f, s.isOpen sid = false → y.dir = 1 → s.encodeFin y = some f → x.fin = some f ∧ t.streams = s.streams) ∧
              (s.isOpen sid = false → y.dir = 1 → s.encodeFin y = none → x.fin = some okFin ∧
                t.isOpen sid = true ∧ (t.stream sid).dir = 1 ∧ (t.stream sid).canvas = y.canvas ∧ (t.cv y.canvas).c = 0))) ∧
          Frame { s.at now with streams := t.streams, canvases := t.canvases, heap := t.heap, dram := t.dram, cmds := t.cmds, ldg := t.ldg } t
            hifF []) ∧
      (cOpcode c.words = 0x12 → ∀ items, parseStream 6 all = some (sid, items) → s.isOpen sid = true → (s.stream sid).dir = 0 →
        items.all (changeItem (s.stream sid) (param (ownItems items) 1 4 0 (s.stream sid).rends)) = true →
        param (ownItems items) 1 4 0 (s.stream sid).rends ≤ (s.stream sid).rends →
        ∃ t x, exec (.hostReadCompletion (128 + e) (.data bytes) now) s = .next t ∧ t.cmd e = some x ∧
          x.fin = some (if (s.stream sid).migrations = c.moves then okFin else ⟨9, 0, 0, 0, 0⟩) ∧
          t.stream sid = { s.stream sid with params := mergeItems (s.stream sid).params (ownItems items) } ∧ OtherStreams s t sid ∧
          Frame { s.at now with streams := t.streams, dram := t.dram, cmds := t.cmds, ldg := t.ldg } t hifF []) ∧
      (cOpcode c.words = 0x20 → ∀ recs i ls, parseCommit sid (cParam c.words 0) all = some recs → (s.cv sid).inlay = some i →
        recs.any (fun r => (layerOf r.layer r.items).isNone) = false →
        applyRecs (queuedStack (s.cv sid).layers (s.cv sid).queue) recs [] = some ls → s.stackOk (s.cv sid) 2 ls = true →
        (s.cv sid).queue.length < 8 →
        ∃ t x, exec (.hostReadCompletion (128 + e) (.data bytes) now) s = .next t ∧ t.cmd e = some x ∧ x.wait = .point ∧ x.fin = none ∧
          t.cv sid = { s.cv sid with queue := (s.cv sid).queue ++
            [⟨e, recs, (cFences c.words).map (fun f => (f, false)), max s.time now⟩] } ∧ OtherCanvases s t sid ∧
          Frame { s.at now with canvases := t.canvases, cmds := t.cmds, ldg := t.ldg } t hifF [])) ∧
    (∀ im : Image, cOpcode c.words = 0x40 → c.lost = false → let r := s.imageReason im (cParam c.words 0 % 256) (cLen c.words)
      ∃ t x, exec (.hostReadCompletion (128 + e) (.image im) now) s = .next t ∧
        (r ≠ 0 → t.cmd e = some x ∧ x.fin = some ⟨if 4 ≤ r ∧ r ≤ 8 then 7 else 2, 2, r, 0, 0⟩ ∧
          Frame { s.at now with cmds := t.cmds, ldg := t.ldg } t hifF []) ∧
        (r = 0 → im.type = 2 → s.mode ≠ 11 → t.cmd e = some x ∧ x.fin = some okFin ∧
          (t.bank (1 - s.fld Reg.LCM_BOOT_BANK)).image 2 = some im ∧ (t.bank (1 - s.fld Reg.LCM_BOOT_BANK)).state = 1 ∧
          (s.fld Reg.LCM_BOOT_BANK ≤ 1 → t.bank (s.fld Reg.LCM_BOOT_BANK) = s.bank (s.fld Reg.LCM_BOOT_BANK)) ∧
          tget 0 t.life.running 1 = im.securityVersion ∧
          Frame { s.at now with life := t.life, cmds := t.cmds, ldg := t.ldg } t hifF []))

/-- A read of host memory that times out is counted and reissued until RD_RETRY reissues are spent; then, or where it is answered UR or CA, the
command ends with HOST_MEM_TIMEOUT and the queue of a fetch goes to ERROR. A Drover channel's data joins its source.
(Where the spec leaves a choice, the model's: log entry 96.) -/
def readsEnd : Prop :=
  (∀ (s : State) (e now : Nat) (c : HCmd), s.cmd e = some c → c.reading = true →
    (c.tries < s.fld Reg.HIF_CFG_RD_RETRY → ∃ t, exec (.hostReadTimeout (128 + e) now) s = .next t ∧
      t.cmd e = some { c with tries := c.tries + 1 } ∧ (∀ k, k ≠ e → t.cmd k = s.cmd k) ∧ Counted s t Cnt.HIF_READ_TIMEOUTS 1 ∧
      OnlyRegs { s.at now with cmds := t.cmds } t [] [Cnt.HIF_READ_TIMEOUTS]) ∧
    (∀ (i : Instr) (d : Nat), (i = .hostReadTimeout (128 + e) now ∧ s.fld Reg.HIF_CFG_RD_RETRY ≤ c.tries ∧ d = 1) ∨
        (i = .hostReadCompletion (128 + e) .ur now ∧ d = 2) ∨ (i = .hostReadCompletion (128 + e) .ca now ∧ d = 3) →
      ∃ t f, exec i s = .next t ∧ Ends s t e c f ∧ f.status = 4 ∧ f.kind = 4 ∧ f.detail = d ∧
        f.r0 = (if cOpcode c.words = 0x32 then c.moved else 0) ∧ t.fld Reg.HIF_ERR_LOG0_KIND = 4 ∧ t.fld Reg.HIF_ERR_LOG0_DETAIL = d ∧
        t.fld Reg.HIF_ERR_LOG0_DRV = 0 ∧ t.fld Reg.HIF_ERR_LOG1_CID = cCid c.words % 2 ^ 16 ∧
        (s.asserted 112 = false → t.fltSticky 112 = true) ∧
        Frame { s.at now with cmds := t.cmds, ldg := t.ldg, freeCtr := t.freeCtr } t hifF [])) ∧
  (∀ (s : State) (q now : Nat), q < 64 → s.isMgmt q = false → s.qState q = 1 → s.fetchable q ≠ 0 →
    ((s.hq q).tries < s.fld Reg.HIF_CFG_RD_RETRY → ∃ t, exec (.hostReadTimeout q now) s = .next t ∧
      t.hq q = { s.hq q with tries := (s.hq q).tries + 1 } ∧ (∀ k, k ≠ q → t.hq k = s.hq k) ∧
      OnlyRegs { s.at now with hqs := t.hqs } t [] [Cnt.HIF_READ_TIMEOUTS]) ∧
    (∀ (i : Instr) (d : Nat), (i = .hostReadTimeout q now ∧ s.fld Reg.HIF_CFG_RD_RETRY ≤ (s.hq q).tries ∧ d = 1) ∨
        (i = .hostReadCompletion q .ur now ∧ d = 2) ∨ (i = .hostReadCompletion q .ca now ∧ d = 3) →
      ∃ t, exec i s = .next t ∧ QueueFails (s.at now) t q 3 ∧ t.fld Reg.HIF_ERR_LOG0_DETAIL = d)) ∧
  (∀ (s : State) (n now : Nat) (bytes : List Nat), n < 16 → s.drvReading n = true → s.drvSrcHost n = true → s.drvMode n ≠ 2 →
    ∃ t, exec (.hostReadCompletion (64 + n) (.data bytes) now) s = .next t ∧
      t.drv n = { s.drv n with src := (s.drv n).src ++ (bytes.map (fun b => (b % 256, false))).take (s.drvLen n - (s.drv n).src.length) } ∧
      (∀ k, k ≠ n → t.drv k = s.drv k) ∧ { t with drvs := (s.at now).drvs } = s.at now)

/-- Host commands. -/
def Obligations.HostCommandsAct : Prop := commandsAct ∧ commandsRead

/-- What host memory answers. -/
def Obligations.HostDataActs : Prop := dataActs ∧ readsEnd
end

