-- ==== Sys2Proof/Laws/State.lean ====
section
/-!
SUPPORT. One lemma for each field and each update of one field of the state: what the update leaves as it was.
-/
namespace Sys2Proof.Machine

/-! ## setFld -/

@[simp] theorem State.setFld_part (s : State) (f : Fld) (v : Nat) : (s.setFld f v).part = s.part := rfl
@[simp] theorem State.setFld_time (s : State) (f : Fld) (v : Nat) : (s.setFld f v).time = s.time := rfl
@[simp] theorem State.setFld_ptpNs (s : State) (f : Fld) (v : Nat) : (s.setFld f v).ptpNs = s.ptpNs := rfl
@[simp] theorem State.setFld_freeCtr (s : State) (f : Fld) (v : Nat) : (s.setFld f v).freeCtr = s.freeCtr := rfl
@[simp] theorem State.setFld_cnts (s : State) (f : Fld) (v : Nat) : (s.setFld f v).cnts = s.cnts := rfl
@[simp] theorem State.setFld_resp (s : State) (f : Fld) (v : Nat) : (s.setFld f v).resp = s.resp := rfl
@[simp] theorem State.setFld_snaps (s : State) (f : Fld) (v : Nat) : (s.setFld f v).snaps = s.snaps := rfl
@[simp] theorem State.setFld_restore (s : State) (f : Fld) (v : Nat) : (s.setFld f v).restore = s.restore := rfl
@[simp] theorem State.setFld_flt (s : State) (f : Fld) (v : Nat) : (s.setFld f v).flt = s.flt := rfl
@[simp] theorem State.setFld_evm (s : State) (f : Fld) (v : Nat) : (s.setFld f v).evm = s.evm := rfl
@[simp] theorem State.setFld_nests (s : State) (f : Fld) (v : Nat) : (s.setFld f v).nests = s.nests := rfl
@[simp] theorem State.setFld_vecs (s : State) (f : Fld) (v : Nat) : (s.setFld f v).vecs = s.vecs := rfl
@[simp] theorem State.setFld_toHost (s : State) (f : Fld) (v : Nat) : (s.setFld f v).toHost = s.toHost := rfl
@[simp] theorem State.setFld_pmeEn (s : State) (f : Fld) (v : Nat) : (s.setFld f v).pmeEn = s.pmeEn := rfl
@[simp] theorem State.setFld_pmeStatus (s : State) (f : Fld) (v : Nat) : (s.setFld f v).pmeStatus = s.pmeStatus := rfl
@[simp] theorem State.setFld_ldg (s : State) (f : Fld) (v : Nat) : (s.setFld f v).ldg = s.ldg := rfl
@[simp] theorem State.setFld_dram (s : State) (f : Fld) (v : Nat) : (s.setFld f v).dram = s.dram := rfl
@[simp] theorem State.setFld_lathes (s : State) (f : Fld) (v : Nat) : (s.setFld f v).lathes = s.lathes := rfl
@[simp] theorem State.setFld_disps (s : State) (f : Fld) (v : Nat) : (s.setFld f v).disps = s.disps := rfl
@[simp] theorem State.setFld_dispTag (s : State) (f : Fld) (v : Nat) : (s.setFld f v).dispTag = s.dispTag := rfl
@[simp] theorem State.setFld_progress (s : State) (f : Fld) (v : Nat) : (s.setFld f v).progress = s.progress := rfl
@[simp] theorem State.setFld_blks (s : State) (f : Fld) (v : Nat) : (s.setFld f v).blks = s.blks := rfl
@[simp] theorem State.setFld_manifests (s : State) (f : Fld) (v : Nat) : (s.setFld f v).manifests = s.manifests := rfl
@[simp] theorem State.setFld_streams (s : State) (f : Fld) (v : Nat) : (s.setFld f v).streams = s.streams := rfl
@[simp] theorem State.setFld_canvases (s : State) (f : Fld) (v : Nat) : (s.setFld f v).canvases = s.canvases := rfl
@[simp] theorem State.setFld_ovrSets (s : State) (f : Fld) (v : Nat) : (s.setFld f v).ovrSets = s.ovrSets := rfl
@[simp] theorem State.setFld_heads (s : State) (f : Fld) (v : Nat) : (s.setFld f v).heads = s.heads := rfl
@[simp] theorem State.setFld_coop (s : State) (f : Fld) (v : Nat) : (s.setFld f v).coop = s.coop := rfl
@[simp] theorem State.setFld_drvs (s : State) (f : Fld) (v : Nat) : (s.setFld f v).drvs = s.drvs := rfl
@[simp] theorem State.setFld_bars (s : State) (f : Fld) (v : Nat) : (s.setFld f v).bars = s.bars := rfl
@[simp] theorem State.setFld_perst (s : State) (f : Fld) (v : Nat) : (s.setFld f v).perst = s.perst := rfl
@[simp] theorem State.setFld_wakes (s : State) (f : Fld) (v : Nat) : (s.setFld f v).wakes = s.wakes := rfl
@[simp] theorem State.setFld_hqs (s : State) (f : Fld) (v : Nat) : (s.setFld f v).hqs = s.hqs := rfl
@[simp] theorem State.setFld_cmds (s : State) (f : Fld) (v : Nat) : (s.setFld f v).cmds = s.cmds := rfl
@[simp] theorem State.setFld_toRing (s : State) (f : Fld) (v : Nat) : (s.setFld f v).toRing = s.toRing := rfl
@[simp] theorem State.setFld_ring (s : State) (f : Fld) (v : Nat) : (s.setFld f v).ring = s.ring := rfl
@[simp] theorem State.setFld_life (s : State) (f : Fld) (v : Nat) : (s.setFld f v).life = s.life := rfl
@[simp] theorem State.setFld_shp (s : State) (f : Fld) (v : Nat) : (s.setFld f v).shp = s.shp := rfl
@[simp] theorem State.setFld_heap (s : State) (f : Fld) (v : Nat) : (s.setFld f v).heap = s.heap := rfl
@[simp] theorem State.setFld_pending (s : State) (f : Fld) (v : Nat) : (s.setFld f v).pending = s.pending := rfl

/-! ## setSnap -/

@[simp] theorem State.setSnap_part (s : State) (rq : Requester) (a v : Nat) : (s.setSnap rq a v).part = s.part := rfl
@[simp] theorem State.setSnap_time (s : State) (rq : Requester) (a v : Nat) : (s.setSnap rq a v).time = s.time := rfl
@[simp] theorem State.setSnap_ptpNs (s : State) (rq : Requester) (a v : Nat) : (s.setSnap rq a v).ptpNs = s.ptpNs := rfl
@[simp] theorem State.setSnap_freeCtr (s : State) (rq : Requester) (a v : Nat) : (s.setSnap rq a v).freeCtr = s.freeCtr := rfl
@[simp] theorem State.setSnap_flds (s : State) (rq : Requester) (a v : Nat) : (s.setSnap rq a v).flds = s.flds := rfl
@[simp] theorem State.setSnap_cnts (s : State) (rq : Requester) (a v : Nat) : (s.setSnap rq a v).cnts = s.cnts := rfl
@[simp] theorem State.setSnap_resp (s : State) (rq : Requester) (a v : Nat) : (s.setSnap rq a v).resp = s.resp := rfl
@[simp] theorem State.setSnap_restore (s : State) (rq : Requester) (a v : Nat) : (s.setSnap rq a v).restore = s.restore := rfl
@[simp] theorem State.setSnap_flt (s : State) (rq : Requester) (a v : Nat) : (s.setSnap rq a v).flt = s.flt := rfl
@[simp] theorem State.setSnap_evm (s : State) (rq : Requester) (a v : Nat) : (s.setSnap rq a v).evm = s.evm := rfl
@[simp] theorem State.setSnap_nests (s : State) (rq : Requester) (a v : Nat) : (s.setSnap rq a v).nests = s.nests := rfl
@[simp] theorem State.setSnap_vecs (s : State) (rq : Requester) (a v : Nat) : (s.setSnap rq a v).vecs = s.vecs := rfl
@[simp] theorem State.setSnap_toHost (s : State) (rq : Requester) (a v : Nat) : (s.setSnap rq a v).toHost = s.toHost := rfl
@[simp] theorem State.setSnap_pmeEn (s : State) (rq : Requester) (a v : Nat) : (s.setSnap rq a v).pmeEn = s.pmeEn := rfl
@[simp] theorem State.setSnap_pmeStatus (s : State) (rq : Requester) (a v : Nat) : (s.setSnap rq a v).pmeStatus = s.pmeStatus := rfl
@[simp] theorem State.setSnap_ldg (s : State) (rq : Requester) (a v : Nat) : (s.setSnap rq a v).ldg = s.ldg := rfl
@[simp] theorem State.setSnap_dram (s : State) (rq : Requester) (a v : Nat) : (s.setSnap rq a v).dram = s.dram := rfl
@[simp] theorem State.setSnap_lathes (s : State) (rq : Requester) (a v : Nat) : (s.setSnap rq a v).lathes = s.lathes := rfl
@[simp] theorem State.setSnap_disps (s : State) (rq : Requester) (a v : Nat) : (s.setSnap rq a v).disps = s.disps := rfl
@[simp] theorem State.setSnap_dispTag (s : State) (rq : Requester) (a v : Nat) : (s.setSnap rq a v).dispTag = s.dispTag := rfl
@[simp] theorem State.setSnap_progress (s : State) (rq : Requester) (a v : Nat) : (s.setSnap rq a v).progress = s.progress := rfl
@[simp] theorem State.setSnap_blks (s : State) (rq : Requester) (a v : Nat) : (s.setSnap rq a v).blks = s.blks := rfl
@[simp] theorem State.setSnap_manifests (s : State) (rq : Requester) (a v : Nat) : (s.setSnap rq a v).manifests = s.manifests := rfl
@[simp] theorem State.setSnap_streams (s : State) (rq : Requester) (a v : Nat) : (s.setSnap rq a v).streams = s.streams := rfl
@[simp] theorem State.setSnap_canvases (s : State) (rq : Requester) (a v : Nat) : (s.setSnap rq a v).canvases = s.canvases := rfl
@[simp] theorem State.setSnap_ovrSets (s : State) (rq : Requester) (a v : Nat) : (s.setSnap rq a v).ovrSets = s.ovrSets := rfl
@[simp] theorem State.setSnap_heads (s : State) (rq : Requester) (a v : Nat) : (s.setSnap rq a v).heads = s.heads := rfl
@[simp] theorem State.setSnap_coop (s : State) (rq : Requester) (a v : Nat) : (s.setSnap rq a v).coop = s.coop := rfl
@[simp] theorem State.setSnap_drvs (s : State) (rq : Requester) (a v : Nat) : (s.setSnap rq a v).drvs = s.drvs := rfl
@[simp] theorem State.setSnap_bars (s : State) (rq : Requester) (a v : Nat) : (s.setSnap rq a v).bars = s.bars := rfl
@[simp] theorem State.setSnap_perst (s : State) (rq : Requester) (a v : Nat) : (s.setSnap rq a v).perst = s.perst := rfl
@[simp] theorem State.setSnap_wakes (s : State) (rq : Requester) (a v : Nat) : (s.setSnap rq a v).wakes = s.wakes := rfl
@[simp] theorem State.setSnap_hqs (s : State) (rq : Requester) (a v : Nat) : (s.setSnap rq a v).hqs = s.hqs := rfl
@[simp] theorem State.setSnap_cmds (s : State) (rq : Requester) (a v : Nat) : (s.setSnap rq a v).cmds = s.cmds := rfl
@[simp] theorem State.setSnap_toRing (s : State) (rq : Requester) (a v : Nat) : (s.setSnap rq a v).toRing = s.toRing := rfl
@[simp] theorem State.setSnap_ring (s : State) (rq : Requester) (a v : Nat) : (s.setSnap rq a v).ring = s.ring := rfl
@[simp] theorem State.setSnap_life (s : State) (rq : Requester) (a v : Nat) : (s.setSnap rq a v).life = s.life := rfl
@[simp] theorem State.setSnap_shp (s : State) (rq : Requester) (a v : Nat) : (s.setSnap rq a v).shp = s.shp := rfl
@[simp] theorem State.setSnap_heap (s : State) (rq : Requester) (a v : Nat) : (s.setSnap rq a v).heap = s.heap := rfl
@[simp] theorem State.setSnap_pending (s : State) (rq : Requester) (a v : Nat) : (s.setSnap rq a v).pending = s.pending := rfl

/-! ## answer -/

@[simp] theorem State.answer_part (s : State) (rq : Requester) (a v : Nat) : (s.answer rq a v).part = s.part := rfl
@[simp] theorem State.answer_time (s : State) (rq : Requester) (a v : Nat) : (s.answer rq a v).time = s.time := rfl
@[simp] theorem State.answer_ptpNs (s : State) (rq : Requester) (a v : Nat) : (s.answer rq a v).ptpNs = s.ptpNs := rfl
@[simp] theorem State.answer_freeCtr (s : State) (rq : Requester) (a v : Nat) : (s.answer rq a v).freeCtr = s.freeCtr := rfl
@[simp] theorem State.answer_flds (s : State) (rq : Requester) (a v : Nat) : (s.answer rq a v).flds = s.flds := rfl
@[simp] theorem State.answer_cnts (s : State) (rq : Requester) (a v : Nat) : (s.answer rq a v).cnts = s.cnts := rfl
@[simp] theorem State.answer_snaps (s : State) (rq : Requester) (a v : Nat) : (s.answer rq a v).snaps = s.snaps := rfl
@[simp] theorem State.answer_restore (s : State) (rq : Requester) (a v : Nat) : (s.answer rq a v).restore = s.restore := rfl
@[simp] theorem State.answer_flt (s : State) (rq : Requester) (a v : Nat) : (s.answer rq a v).flt = s.flt := rfl
@[simp] theorem State.answer_evm (s : State) (rq : Requester) (a v : Nat) : (s.answer rq a v).evm = s.evm := rfl
@[simp] theorem State.answer_nests (s : State) (rq : Requester) (a v : Nat) : (s.answer rq a v).nests = s.nests := rfl
@[simp] theorem State.answer_vecs (s : State) (rq : Requester) (a v : Nat) : (s.answer rq a v).vecs = s.vecs := rfl
@[simp] theorem State.answer_toHost (s : State) (rq : Requester) (a v : Nat) : (s.answer rq a v).toHost = s.toHost := rfl
@[simp] theorem State.answer_pmeEn (s : State) (rq : Requester) (a v : Nat) : (s.answer rq a v).pmeEn = s.pmeEn := rfl
@[simp] theorem State.answer_pmeStatus (s : State) (rq : Requester) (a v : Nat) : (s.answer rq a v).pmeStatus = s.pmeStatus := rfl
@[simp] theorem State.answer_ldg (s : State) (rq : Requester) (a v : Nat) : (s.answer rq a v).ldg = s.ldg := rfl
@[simp] theorem State.answer_dram (s : State) (rq : Requester) (a v : Nat) : (s.answer rq a v).dram = s.dram := rfl
@[simp] theorem State.answer_lathes (s : State) (rq : Requester) (a v : Nat) : (s.answer rq a v).lathes = s.lathes := rfl
@[simp] theorem State.answer_disps (s : State) (rq : Requester) (a v : Nat) : (s.answer rq a v).disps = s.disps := rfl
@[simp] theorem State.answer_dispTag (s : State) (rq : Requester) (a v : Nat) : (s.answer rq a v).dispTag = s.dispTag := rfl
@[simp] theorem State.answer_progress (s : State) (rq : Requester) (a v : Nat) : (s.answer rq a v).progress = s.progress := rfl
@[simp] theorem State.answer_blks (s : State) (rq : Requester) (a v : Nat) : (s.answer rq a v).blks = s.blks := rfl
@[simp] theorem State.answer_manifests (s : State) (rq : Requester) (a v : Nat) : (s.answer rq a v).manifests = s.manifests := rfl
@[simp] theorem State.answer_streams (s : State) (rq : Requester) (a v : Nat) : (s.answer rq a v).streams = s.streams := rfl
@[simp] theorem State.answer_canvases (s : State) (rq : Requester) (a v : Nat) : (s.answer rq a v).canvases = s.canvases := rfl
@[simp] theorem State.answer_ovrSets (s : State) (rq : Requester) (a v : Nat) : (s.answer rq a v).ovrSets = s.ovrSets := rfl
@[simp] theorem State.answer_heads (s : State) (rq : Requester) (a v : Nat) : (s.answer rq a v).heads = s.heads := rfl
@[simp] theorem State.answer_coop (s : State) (rq : Requester) (a v : Nat) : (s.answer rq a v).coop = s.coop := rfl
@[simp] theorem State.answer_drvs (s : State) (rq : Requester) (a v : Nat) : (s.answer rq a v).drvs = s.drvs := rfl
@[simp] theorem State.answer_bars (s : State) (rq : Requester) (a v : Nat) : (s.answer rq a v).bars = s.bars := rfl
@[simp] theorem State.answer_perst (s : State) (rq : Requester) (a v : Nat) : (s.answer rq a v).perst = s.perst := rfl
@[simp] theorem State.answer_wakes (s : State) (rq : Requester) (a v : Nat) : (s.answer rq a v).wakes = s.wakes := rfl
@[simp] theorem State.answer_hqs (s : State) (rq : Requester) (a v : Nat) : (s.answer rq a v).hqs = s.hqs := rfl
@[simp] theorem State.answer_cmds (s : State) (rq : Requester) (a v : Nat) : (s.answer rq a v).cmds = s.cmds := rfl
@[simp] theorem State.answer_toRing (s : State) (rq : Requester) (a v : Nat) : (s.answer rq a v).toRing = s.toRing := rfl
@[simp] theorem State.answer_ring (s : State) (rq : Requester) (a v : Nat) : (s.answer rq a v).ring = s.ring := rfl
@[simp] theorem State.answer_life (s : State) (rq : Requester) (a v : Nat) : (s.answer rq a v).life = s.life := rfl
@[simp] theorem State.answer_shp (s : State) (rq : Requester) (a v : Nat) : (s.answer rq a v).shp = s.shp := rfl
@[simp] theorem State.answer_heap (s : State) (rq : Requester) (a v : Nat) : (s.answer rq a v).heap = s.heap := rfl
@[simp] theorem State.answer_pending (s : State) (rq : Requester) (a v : Nat) : (s.answer rq a v).pending = s.pending := rfl

/-! ## account -/

@[simp] theorem State.account_part (s : State) (c n : Nat) : (s.account c n).part = s.part := rfl
@[simp] theorem State.account_time (s : State) (c n : Nat) : (s.account c n).time = s.time := rfl
@[simp] theorem State.account_ptpNs (s : State) (c n : Nat) : (s.account c n).ptpNs = s.ptpNs := rfl
@[simp] theorem State.account_freeCtr (s : State) (c n : Nat) : (s.account c n).freeCtr = s.freeCtr := rfl
@[simp] theorem State.account_flds (s : State) (c n : Nat) : (s.account c n).flds = s.flds := rfl
@[simp] theorem State.account_resp (s : State) (c n : Nat) : (s.account c n).resp = s.resp := rfl
@[simp] theorem State.account_snaps (s : State) (c n : Nat) : (s.account c n).snaps = s.snaps := rfl
@[simp] theorem State.account_restore (s : State) (c n : Nat) : (s.account c n).restore = s.restore := rfl
@[simp] theorem State.account_flt (s : State) (c n : Nat) : (s.account c n).flt = s.flt := rfl
@[simp] theorem State.account_evm (s : State) (c n : Nat) : (s.account c n).evm = s.evm := rfl
@[simp] theorem State.account_nests (s : State) (c n : Nat) : (s.account c n).nests = s.nests := rfl
@[simp] theorem State.account_vecs (s : State) (c n : Nat) : (s.account c n).vecs = s.vecs := rfl
@[simp] theorem State.account_toHost (s : State) (c n : Nat) : (s.account c n).toHost = s.toHost := rfl
@[simp] theorem State.account_pmeEn (s : State) (c n : Nat) : (s.account c n).pmeEn = s.pmeEn := rfl
@[simp] theorem State.account_pmeStatus (s : State) (c n : Nat) : (s.account c n).pmeStatus = s.pmeStatus := rfl
@[simp] theorem State.account_ldg (s : State) (c n : Nat) : (s.account c n).ldg = s.ldg := rfl
@[simp] theorem State.account_dram (s : State) (c n : Nat) : (s.account c n).dram = s.dram := rfl
@[simp] theorem State.account_lathes (s : State) (c n : Nat) : (s.account c n).lathes = s.lathes := rfl
@[simp] theorem State.account_disps (s : State) (c n : Nat) : (s.account c n).disps = s.disps := rfl
@[simp] theorem State.account_dispTag (s : State) (c n : Nat) : (s.account c n).dispTag = s.dispTag := rfl
@[simp] theorem State.account_progress (s : State) (c n : Nat) : (s.account c n).progress = s.progress := rfl
@[simp] theorem State.account_blks (s : State) (c n : Nat) : (s.account c n).blks = s.blks := rfl
@[simp] theorem State.account_manifests (s : State) (c n : Nat) : (s.account c n).manifests = s.manifests := rfl
@[simp] theorem State.account_streams (s : State) (c n : Nat) : (s.account c n).streams = s.streams := rfl
@[simp] theorem State.account_canvases (s : State) (c n : Nat) : (s.account c n).canvases = s.canvases := rfl
@[simp] theorem State.account_ovrSets (s : State) (c n : Nat) : (s.account c n).ovrSets = s.ovrSets := rfl
@[simp] theorem State.account_heads (s : State) (c n : Nat) : (s.account c n).heads = s.heads := rfl
@[simp] theorem State.account_coop (s : State) (c n : Nat) : (s.account c n).coop = s.coop := rfl
@[simp] theorem State.account_drvs (s : State) (c n : Nat) : (s.account c n).drvs = s.drvs := rfl
@[simp] theorem State.account_bars (s : State) (c n : Nat) : (s.account c n).bars = s.bars := rfl
@[simp] theorem State.account_perst (s : State) (c n : Nat) : (s.account c n).perst = s.perst := rfl
@[simp] theorem State.account_wakes (s : State) (c n : Nat) : (s.account c n).wakes = s.wakes := rfl
@[simp] theorem State.account_hqs (s : State) (c n : Nat) : (s.account c n).hqs = s.hqs := rfl
@[simp] theorem State.account_cmds (s : State) (c n : Nat) : (s.account c n).cmds = s.cmds := rfl
@[simp] theorem State.account_toRing (s : State) (c n : Nat) : (s.account c n).toRing = s.toRing := rfl
@[simp] theorem State.account_ring (s : State) (c n : Nat) : (s.account c n).ring = s.ring := rfl
@[simp] theorem State.account_life (s : State) (c n : Nat) : (s.account c n).life = s.life := rfl
@[simp] theorem State.account_shp (s : State) (c n : Nat) : (s.account c n).shp = s.shp := rfl
@[simp] theorem State.account_heap (s : State) (c n : Nat) : (s.account c n).heap = s.heap := rfl
@[simp] theorem State.account_pending (s : State) (c n : Nat) : (s.account c n).pending = s.pending := rfl

/-! ## freeNext -/

@[simp] theorem State.freeNext_part (s : State) : (s.freeNext).part = s.part := rfl
@[simp] theorem State.freeNext_time (s : State) : (s.freeNext).time = s.time := rfl
@[simp] theorem State.freeNext_ptpNs (s : State) : (s.freeNext).ptpNs = s.ptpNs := rfl
@[simp] theorem State.freeNext_flds (s : State) : (s.freeNext).flds = s.flds := rfl
@[simp] theorem State.freeNext_cnts (s : State) : (s.freeNext).cnts = s.cnts := rfl
@[simp] theorem State.freeNext_resp (s : State) : (s.freeNext).resp = s.resp := rfl
@[simp] theorem State.freeNext_snaps (s : State) : (s.freeNext).snaps = s.snaps := rfl
@[simp] theorem State.freeNext_restore (s : State) : (s.freeNext).restore = s.restore := rfl
@[simp] theorem State.freeNext_flt (s : State) : (s.freeNext).flt = s.flt := rfl
@[simp] theorem State.freeNext_evm (s : State) : (s.freeNext).evm = s.evm := rfl
@[simp] theorem State.freeNext_nests (s : State) : (s.freeNext).nests = s.nests := rfl
@[simp] theorem State.freeNext_vecs (s : State) : (s.freeNext).vecs = s.vecs := rfl
@[simp] theorem State.freeNext_toHost (s : State) : (s.freeNext).toHost = s.toHost := rfl
@[simp] theorem State.freeNext_pmeEn (s : State) : (s.freeNext).pmeEn = s.pmeEn := rfl
@[simp] theorem State.freeNext_pmeStatus (s : State) : (s.freeNext).pmeStatus = s.pmeStatus := rfl
@[simp] theorem State.freeNext_ldg (s : State) : (s.freeNext).ldg = s.ldg := rfl
@[simp] theorem State.freeNext_dram (s : State) : (s.freeNext).dram = s.dram := rfl
@[simp] theorem State.freeNext_lathes (s : State) : (s.freeNext).lathes = s.lathes := rfl
@[simp] theorem State.freeNext_disps (s : State) : (s.freeNext).disps = s.disps := rfl
@[simp] theorem State.freeNext_dispTag (s : State) : (s.freeNext).dispTag = s.dispTag := rfl
@[simp] theorem State.freeNext_progress (s : State) : (s.freeNext).progress = s.progress := rfl
@[simp] theorem State.freeNext_blks (s : State) : (s.freeNext).blks = s.blks := rfl
@[simp] theorem State.freeNext_manifests (s : State) : (s.freeNext).manifests = s.manifests := rfl
@[simp] theorem State.freeNext_streams (s : State) : (s.freeNext).streams = s.streams := rfl
@[simp] theorem State.freeNext_canvases (s : State) : (s.freeNext).canvases = s.canvases := rfl
@[simp] theorem State.freeNext_ovrSets (s : State) : (s.freeNext).ovrSets = s.ovrSets := rfl
@[simp] theorem State.freeNext_heads (s : State) : (s.freeNext).heads = s.heads := rfl
@[simp] theorem State.freeNext_coop (s : State) : (s.freeNext).coop = s.coop := rfl
@[simp] theorem State.freeNext_drvs (s : State) : (s.freeNext).drvs = s.drvs := rfl
@[simp] theorem State.freeNext_bars (s : State) : (s.freeNext).bars = s.bars := rfl
@[simp] theorem State.freeNext_perst (s : State) : (s.freeNext).perst = s.perst := rfl
@[simp] theorem State.freeNext_wakes (s : State) : (s.freeNext).wakes = s.wakes := rfl
@[simp] theorem State.freeNext_hqs (s : State) : (s.freeNext).hqs = s.hqs := rfl
@[simp] theorem State.freeNext_cmds (s : State) : (s.freeNext).cmds = s.cmds := rfl
@[simp] theorem State.freeNext_toRing (s : State) : (s.freeNext).toRing = s.toRing := rfl
@[simp] theorem State.freeNext_ring (s : State) : (s.freeNext).ring = s.ring := rfl
@[simp] theorem State.freeNext_life (s : State) : (s.freeNext).life = s.life := rfl
@[simp] theorem State.freeNext_shp (s : State) : (s.freeNext).shp = s.shp := rfl
@[simp] theorem State.freeNext_heap (s : State) : (s.freeNext).heap = s.heap := rfl
@[simp] theorem State.freeNext_pending (s : State) : (s.freeNext).pending = s.pending := rfl

/-! ## setVec -/

@[simp] theorem State.setVec_part (s : State) (v : Nat) (x : Vec) : (s.setVec v x).part = s.part := rfl
@[simp] theorem State.setVec_time (s : State) (v : Nat) (x : Vec) : (s.setVec v x).time = s.time := rfl
@[simp] theorem State.setVec_ptpNs (s : State) (v : Nat) (x : Vec) : (s.setVec v x).ptpNs = s.ptpNs := rfl
@[simp] theorem State.setVec_freeCtr (s : State) (v : Nat) (x : Vec) : (s.setVec v x).freeCtr = s.freeCtr := rfl
@[simp] theorem State.setVec_flds (s : State) (v : Nat) (x : Vec) : (s.setVec v x).flds = s.flds := rfl
@[simp] theorem State.setVec_cnts (s : State) (v : Nat) (x : Vec) : (s.setVec v x).cnts = s.cnts := rfl
@[simp] theorem State.setVec_resp (s : State) (v : Nat) (x : Vec) : (s.setVec v x).resp = s.resp := rfl
@[simp] theorem State.setVec_snaps (s : State) (v : Nat) (x : Vec) : (s.setVec v x).snaps = s.snaps := rfl
@[simp] theorem State.setVec_restore (s : State) (v : Nat) (x : Vec) : (s.setVec v x).restore = s.restore := rfl
@[simp] theorem State.setVec_flt (s : State) (v : Nat) (x : Vec) : (s.setVec v x).flt = s.flt := rfl
@[simp] theorem State.setVec_evm (s : State) (v : Nat) (x : Vec) : (s.setVec v x).evm = s.evm := rfl
@[simp] theorem State.setVec_nests (s : State) (v : Nat) (x : Vec) : (s.setVec v x).nests = s.nests := rfl
@[simp] theorem State.setVec_toHost (s : State) (v : Nat) (x : Vec) : (s.setVec v x).toHost = s.toHost := rfl
@[simp] theorem State.setVec_pmeEn (s : State) (v : Nat) (x : Vec) : (s.setVec v x).pmeEn = s.pmeEn := rfl
@[simp] theorem State.setVec_pmeStatus (s : State) (v : Nat) (x : Vec) : (s.setVec v x).pmeStatus = s.pmeStatus := rfl
@[simp] theorem State.setVec_ldg (s : State) (v : Nat) (x : Vec) : (s.setVec v x).ldg = s.ldg := rfl
@[simp] theorem State.setVec_dram (s : State) (v : Nat) (x : Vec) : (s.setVec v x).dram = s.dram := rfl
@[simp] theorem State.setVec_lathes (s : State) (v : Nat) (x : Vec) : (s.setVec v x).lathes = s.lathes := rfl
@[simp] theorem State.setVec_disps (s : State) (v : Nat) (x : Vec) : (s.setVec v x).disps = s.disps := rfl
@[simp] theorem State.setVec_dispTag (s : State) (v : Nat) (x : Vec) : (s.setVec v x).dispTag = s.dispTag := rfl
@[simp] theorem State.setVec_progress (s : State) (v : Nat) (x : Vec) : (s.setVec v x).progress = s.progress := rfl
@[simp] theorem State.setVec_blks (s : State) (v : Nat) (x : Vec) : (s.setVec v x).blks = s.blks := rfl
@[simp] theorem State.setVec_manifests (s : State) (v : Nat) (x : Vec) : (s.setVec v x).manifests = s.manifests := rfl
@[simp] theorem State.setVec_streams (s : State) (v : Nat) (x : Vec) : (s.setVec v x).streams = s.streams := rfl
@[simp] theorem State.setVec_canvases (s : State) (v : Nat) (x : Vec) : (s.setVec v x).canvases = s.canvases := rfl
@[simp] theorem State.setVec_ovrSets (s : State) (v : Nat) (x : Vec) : (s.setVec v x).ovrSets = s.ovrSets := rfl
@[simp] theorem State.setVec_heads (s : State) (v : Nat) (x : Vec) : (s.setVec v x).heads = s.heads := rfl
@[simp] theorem State.setVec_coop (s : State) (v : Nat) (x : Vec) : (s.setVec v x).coop = s.coop := rfl
@[simp] theorem State.setVec_drvs (s : State) (v : Nat) (x : Vec) : (s.setVec v x).drvs = s.drvs := rfl
@[simp] theorem State.setVec_bars (s : State) (v : Nat) (x : Vec) : (s.setVec v x).bars = s.bars := rfl
@[simp] theorem State.setVec_perst (s : State) (v : Nat) (x : Vec) : (s.setVec v x).perst = s.perst := rfl
@[simp] theorem State.setVec_wakes (s : State) (v : Nat) (x : Vec) : (s.setVec v x).wakes = s.wakes := rfl
@[simp] theorem State.setVec_hqs (s : State) (v : Nat) (x : Vec) : (s.setVec v x).hqs = s.hqs := rfl
@[simp] theorem State.setVec_cmds (s : State) (v : Nat) (x : Vec) : (s.setVec v x).cmds = s.cmds := rfl
@[simp] theorem State.setVec_toRing (s : State) (v : Nat) (x : Vec) : (s.setVec v x).toRing = s.toRing := rfl
@[simp] theorem State.setVec_ring (s : State) (v : Nat) (x : Vec) : (s.setVec v x).ring = s.ring := rfl
@[simp] theorem State.setVec_life (s : State) (v : Nat) (x : Vec) : (s.setVec v x).life = s.life := rfl
@[simp] theorem State.setVec_shp (s : State) (v : Nat) (x : Vec) : (s.setVec v x).shp = s.shp := rfl
@[simp] theorem State.setVec_heap (s : State) (v : Nat) (x : Vec) : (s.setVec v x).heap = s.heap := rfl
@[simp] theorem State.setVec_pending (s : State) (v : Nat) (x : Vec) : (s.setVec v x).pending = s.pending := rfl

/-! ## send -/

@[simp] theorem State.send_part (s : State) (m : HostMsg) : (s.send m).part = s.part := rfl
@[simp] theorem State.send_time (s : State) (m : HostMsg) : (s.send m).time = s.time := rfl
@[simp] theorem State.send_ptpNs (s : State) (m : HostMsg) : (s.send m).ptpNs = s.ptpNs := rfl
@[simp] theorem State.send_freeCtr (s : State) (m : HostMsg) : (s.send m).freeCtr = s.freeCtr := rfl
@[simp] theorem State.send_flds (s : State) (m : HostMsg) : (s.send m).flds = s.flds := rfl
@[simp] theorem State.send_cnts (s : State) (m : HostMsg) : (s.send m).cnts = s.cnts := rfl
@[simp] theorem State.send_resp (s : State) (m : HostMsg) : (s.send m).resp = s.resp := rfl
@[simp] theorem State.send_snaps (s : State) (m : HostMsg) : (s.send m).snaps = s.snaps := rfl
@[simp] theorem State.send_restore (s : State) (m : HostMsg) : (s.send m).restore = s.restore := rfl
@[simp] theorem State.send_flt (s : State) (m : HostMsg) : (s.send m).flt = s.flt := rfl
@[simp] theorem State.send_evm (s : State) (m : HostMsg) : (s.send m).evm = s.evm := rfl
@[simp] theorem State.send_nests (s : State) (m : HostMsg) : (s.send m).nests = s.nests := rfl
@[simp] theorem State.send_vecs (s : State) (m : HostMsg) : (s.send m).vecs = s.vecs := rfl
@[simp] theorem State.send_pmeEn (s : State) (m : HostMsg) : (s.send m).pmeEn = s.pmeEn := rfl
@[simp] theorem State.send_pmeStatus (s : State) (m : HostMsg) : (s.send m).pmeStatus = s.pmeStatus := rfl
@[simp] theorem State.send_ldg (s : State) (m : HostMsg) : (s.send m).ldg = s.ldg := rfl
@[simp] theorem State.send_dram (s : State) (m : HostMsg) : (s.send m).dram = s.dram := rfl
@[simp] theorem State.send_lathes (s : State) (m : HostMsg) : (s.send m).lathes = s.lathes := rfl
@[simp] theorem State.send_disps (s : State) (m : HostMsg) : (s.send m).disps = s.disps := rfl
@[simp] theorem State.send_dispTag (s : State) (m : HostMsg) : (s.send m).dispTag = s.dispTag := rfl
@[simp] theorem State.send_progress (s : State) (m : HostMsg) : (s.send m).progress = s.progress := rfl
@[simp] theorem State.send_blks (s : State) (m : HostMsg) : (s.send m).blks = s.blks := rfl
@[simp] theorem State.send_manifests (s : State) (m : HostMsg) : (s.send m).manifests = s.manifests := rfl
@[simp] theorem State.send_streams (s : State) (m : HostMsg) : (s.send m).streams = s.streams := rfl
@[simp] theorem State.send_canvases (s : State) (m : HostMsg) : (s.send m).canvases = s.canvases := rfl
@[simp] theorem State.send_ovrSets (s : State) (m : HostMsg) : (s.send m).ovrSets = s.ovrSets := rfl
@[simp] theorem State.send_heads (s : State) (m : HostMsg) : (s.send m).heads = s.heads := rfl
@[simp] theorem State.send_coop (s : State) (m : HostMsg) : (s.send m).coop = s.coop := rfl
@[simp] theorem State.send_drvs (s : State) (m : HostMsg) : (s.send m).drvs = s.drvs := rfl
@[simp] theorem State.send_bars (s : State) (m : HostMsg) : (s.send m).bars = s.bars := rfl
@[simp] theorem State.send_perst (s : State) (m : HostMsg) : (s.send m).perst = s.perst := rfl
@[simp] theorem State.send_wakes (s : State) (m : HostMsg) : (s.send m).wakes = s.wakes := rfl
@[simp] theorem State.send_hqs (s : State) (m : HostMsg) : (s.send m).hqs = s.hqs := rfl
@[simp] theorem State.send_cmds (s : State) (m : HostMsg) : (s.send m).cmds = s.cmds := rfl
@[simp] theorem State.send_toRing (s : State) (m : HostMsg) : (s.send m).toRing = s.toRing := rfl
@[simp] theorem State.send_ring (s : State) (m : HostMsg) : (s.send m).ring = s.ring := rfl
@[simp] theorem State.send_life (s : State) (m : HostMsg) : (s.send m).life = s.life := rfl
@[simp] theorem State.send_shp (s : State) (m : HostMsg) : (s.send m).shp = s.shp := rfl
@[simp] theorem State.send_heap (s : State) (m : HostMsg) : (s.send m).heap = s.heap := rfl
@[simp] theorem State.send_pending (s : State) (m : HostMsg) : (s.send m).pending = s.pending := rfl

/-! ## setStack -/

@[simp] theorem State.setStack_part (s : State) (t : Nat) (l : List (Nat × Nat)) : (s.setStack t l).part = s.part := rfl
@[simp] theorem State.setStack_time (s : State) (t : Nat) (l : List (Nat × Nat)) : (s.setStack t l).time = s.time := rfl
@[simp] theorem State.setStack_ptpNs (s : State) (t : Nat) (l : List (Nat × Nat)) : (s.setStack t l).ptpNs = s.ptpNs := rfl
@[simp] theorem State.setStack_freeCtr (s : State) (t : Nat) (l : List (Nat × Nat)) : (s.setStack t l).freeCtr = s.freeCtr := rfl
@[simp] theorem State.setStack_flds (s : State) (t : Nat) (l : List (Nat × Nat)) : (s.setStack t l).flds = s.flds := rfl
@[simp] theorem State.setStack_cnts (s : State) (t : Nat) (l : List (Nat × Nat)) : (s.setStack t l).cnts = s.cnts := rfl
@[simp] theorem State.setStack_resp (s : State) (t : Nat) (l : List (Nat × Nat)) : (s.setStack t l).resp = s.resp := rfl
@[simp] theorem State.setStack_snaps (s : State) (t : Nat) (l : List (Nat × Nat)) : (s.setStack t l).snaps = s.snaps := rfl
@[simp] theorem State.setStack_restore (s : State) (t : Nat) (l : List (Nat × Nat)) : (s.setStack t l).restore = s.restore := rfl
@[simp] theorem State.setStack_flt (s : State) (t : Nat) (l : List (Nat × Nat)) : (s.setStack t l).flt = s.flt := rfl
@[simp] theorem State.setStack_evm (s : State) (t : Nat) (l : List (Nat × Nat)) : (s.setStack t l).evm = s.evm := rfl
@[simp] theorem State.setStack_vecs (s : State) (t : Nat) (l : List (Nat × Nat)) : (s.setStack t l).vecs = s.vecs := rfl
@[simp] theorem State.setStack_toHost (s : State) (t : Nat) (l : List (Nat × Nat)) : (s.setStack t l).toHost = s.toHost := rfl
@[simp] theorem State.setStack_pmeEn (s : State) (t : Nat) (l : List (Nat × Nat)) : (s.setStack t l).pmeEn = s.pmeEn := rfl
@[simp] theorem State.setStack_pmeStatus (s : State) (t : Nat) (l : List (Nat × Nat)) : (s.setStack t l).pmeStatus = s.pmeStatus := rfl
@[simp] theorem State.setStack_ldg (s : State) (t : Nat) (l : List (Nat × Nat)) : (s.setStack t l).ldg = s.ldg := rfl
@[simp] theorem State.setStack_dram (s : State) (t : Nat) (l : List (Nat × Nat)) : (s.setStack t l).dram = s.dram := rfl
@[simp] theorem State.setStack_lathes (s : State) (t : Nat) (l : List (Nat × Nat)) : (s.setStack t l).lathes = s.lathes := rfl
@[simp] theorem State.setStack_disps (s : State) (t : Nat) (l : List (Nat × Nat)) : (s.setStack t l).disps = s.disps := rfl
@[simp] theorem State.setStack_dispTag (s : State) (t : Nat) (l : List (Nat × Nat)) : (s.setStack t l).dispTag = s.dispTag := rfl
@[simp] theorem State.setStack_progress (s : State) (t : Nat) (l : List (Nat × Nat)) : (s.setStack t l).progress = s.progress := rfl
@[simp] theorem State.setStack_blks (s : State) (t : Nat) (l : List (Nat × Nat)) : (s.setStack t l).blks = s.blks := rfl
@[simp] theorem State.setStack_manifests (s : State) (t : Nat) (l : List (Nat × Nat)) : (s.setStack t l).manifests = s.manifests := rfl
@[simp] theorem State.setStack_streams (s : State) (t : Nat) (l : List (Nat × Nat)) : (s.setStack t l).streams = s.streams := rfl
@[simp] theorem State.setStack_canvases (s : State) (t : Nat) (l : List (Nat × Nat)) : (s.setStack t l).canvases = s.canvases := rfl
@[simp] theorem State.setStack_ovrSets (s : State) (t : Nat) (l : List (Nat × Nat)) : (s.setStack t l).ovrSets = s.ovrSets := rfl
@[simp] theorem State.setStack_heads (s : State) (t : Nat) (l : List (Nat × Nat)) : (s.setStack t l).heads = s.heads := rfl
@[simp] theorem State.setStack_coop (s : State) (t : Nat) (l : List (Nat × Nat)) : (s.setStack t l).coop = s.coop := rfl
@[simp] theorem State.setStack_drvs (s : State) (t : Nat) (l : List (Nat × Nat)) : (s.setStack t l).drvs = s.drvs := rfl
@[simp] theorem State.setStack_bars (s : State) (t : Nat) (l : List (Nat × Nat)) : (s.setStack t l).bars = s.bars := rfl
@[simp] theorem State.setStack_perst (s : State) (t : Nat) (l : List (Nat × Nat)) : (s.setStack t l).perst = s.perst := rfl
@[simp] theorem State.setStack_wakes (s : State) (t : Nat) (l : List (Nat × Nat)) : (s.setStack t l).wakes = s.wakes := rfl
@[simp] theorem State.setStack_hqs (s : State) (t : Nat) (l : List (Nat × Nat)) : (s.setStack t l).hqs = s.hqs := rfl
@[simp] theorem State.setStack_cmds (s : State) (t : Nat) (l : List (Nat × Nat)) : (s.setStack t l).cmds = s.cmds := rfl
@[simp] theorem State.setStack_toRing (s : State) (t : Nat) (l : List (Nat × Nat)) : (s.setStack t l).toRing = s.toRing := rfl
@[simp] theorem State.setStack_ring (s : State) (t : Nat) (l : List (Nat × Nat)) : (s.setStack t l).ring = s.ring := rfl
@[simp] theorem State.setStack_life (s : State) (t : Nat) (l : List (Nat × Nat)) : (s.setStack t l).life = s.life := rfl
@[simp] theorem State.setStack_shp (s : State) (t : Nat) (l : List (Nat × Nat)) : (s.setStack t l).shp = s.shp := rfl
@[simp] theorem State.setStack_heap (s : State) (t : Nat) (l : List (Nat × Nat)) : (s.setStack t l).heap = s.heap := rfl
@[simp] theorem State.setStack_pending (s : State) (t : Nat) (l : List (Nat × Nat)) : (s.setStack t l).pending = s.pending := rfl

/-! ## setLth -/

@[simp] theorem State.setLth_part (s : State) (n : Nat) (l : Lathe) : (s.setLth n l).part = s.part := rfl
@[simp] theorem State.setLth_time (s : State) (n : Nat) (l : Lathe) : (s.setLth n l).time = s.time := rfl
@[simp] theorem State.setLth_ptpNs (s : State) (n : Nat) (l : Lathe) : (s.setLth n l).ptpNs = s.ptpNs := rfl
@[simp] theorem State.setLth_freeCtr (s : State) (n : Nat) (l : Lathe) : (s.setLth n l).freeCtr = s.freeCtr := rfl
@[simp] theorem State.setLth_flds (s : State) (n : Nat) (l : Lathe) : (s.setLth n l).flds = s.flds := rfl
@[simp] theorem State.setLth_cnts (s : State) (n : Nat) (l : Lathe) : (s.setLth n l).cnts = s.cnts := rfl
@[simp] theorem State.setLth_resp (s : State) (n : Nat) (l : Lathe) : (s.setLth n l).resp = s.resp := rfl
@[simp] theorem State.setLth_snaps (s : State) (n : Nat) (l : Lathe) : (s.setLth n l).snaps = s.snaps := rfl
@[simp] theorem State.setLth_restore (s : State) (n : Nat) (l : Lathe) : (s.setLth n l).restore = s.restore := rfl
@[simp] theorem State.setLth_flt (s : State) (n : Nat) (l : Lathe) : (s.setLth n l).flt = s.flt := rfl
@[simp] theorem State.setLth_evm (s : State) (n : Nat) (l : Lathe) : (s.setLth n l).evm = s.evm := rfl
@[simp] theorem State.setLth_nests (s : State) (n : Nat) (l : Lathe) : (s.setLth n l).nests = s.nests := rfl
@[simp] theorem State.setLth_vecs (s : State) (n : Nat) (l : Lathe) : (s.setLth n l).vecs = s.vecs := rfl
@[simp] theorem State.setLth_toHost (s : State) (n : Nat) (l : Lathe) : (s.setLth n l).toHost = s.toHost := rfl
@[simp] theorem State.setLth_pmeEn (s : State) (n : Nat) (l : Lathe) : (s.setLth n l).pmeEn = s.pmeEn := rfl
@[simp] theorem State.setLth_pmeStatus (s : State) (n : Nat) (l : Lathe) : (s.setLth n l).pmeStatus = s.pmeStatus := rfl
@[simp] theorem State.setLth_ldg (s : State) (n : Nat) (l : Lathe) : (s.setLth n l).ldg = s.ldg := rfl
@[simp] theorem State.setLth_dram (s : State) (n : Nat) (l : Lathe) : (s.setLth n l).dram = s.dram := rfl
@[simp] theorem State.setLth_disps (s : State) (n : Nat) (l : Lathe) : (s.setLth n l).disps = s.disps := rfl
@[simp] theorem State.setLth_dispTag (s : State) (n : Nat) (l : Lathe) : (s.setLth n l).dispTag = s.dispTag := rfl
@[simp] theorem State.setLth_progress (s : State) (n : Nat) (l : Lathe) : (s.setLth n l).progress = s.progress := rfl
@[simp] theorem State.setLth_blks (s : State) (n : Nat) (l : Lathe) : (s.setLth n l).blks = s.blks := rfl
@[simp] theorem State.setLth_manifests (s : State) (n : Nat) (l : Lathe) : (s.setLth n l).manifests = s.manifests := rfl
@[simp] theorem State.setLth_streams (s : State) (n : Nat) (l : Lathe) : (s.setLth n l).streams = s.streams := rfl
@[simp] theorem State.setLth_canvases (s : State) (n : Nat) (l : Lathe) : (s.setLth n l).canvases = s.canvases := rfl
@[simp] theorem State.setLth_ovrSets (s : State) (n : Nat) (l : Lathe) : (s.setLth n l).ovrSets = s.ovrSets := rfl
@[simp] theorem State.setLth_heads (s : State) (n : Nat) (l : Lathe) : (s.setLth n l).heads = s.heads := rfl
@[simp] theorem State.setLth_coop (s : State) (n : Nat) (l : Lathe) : (s.setLth n l).coop = s.coop := rfl
@[simp] theorem State.setLth_drvs (s : State) (n : Nat) (l : Lathe) : (s.setLth n l).drvs = s.drvs := rfl
@[simp] theorem State.setLth_bars (s : State) (n : Nat) (l : Lathe) : (s.setLth n l).bars = s.bars := rfl
@[simp] theorem State.setLth_perst (s : State) (n : Nat) (l : Lathe) : (s.setLth n l).perst = s.perst := rfl
@[simp] theorem State.setLth_wakes (s : State) (n : Nat) (l : Lathe) : (s.setLth n l).wakes = s.wakes := rfl
@[simp] theorem State.setLth_hqs (s : State) (n : Nat) (l : Lathe) : (s.setLth n l).hqs = s.hqs := rfl
@[simp] theorem State.setLth_cmds (s : State) (n : Nat) (l : Lathe) : (s.setLth n l).cmds = s.cmds := rfl
@[simp] theorem State.setLth_toRing (s : State) (n : Nat) (l : Lathe) : (s.setLth n l).toRing = s.toRing := rfl
@[simp] theorem State.setLth_ring (s : State) (n : Nat) (l : Lathe) : (s.setLth n l).ring = s.ring := rfl
@[simp] theorem State.setLth_life (s : State) (n : Nat) (l : Lathe) : (s.setLth n l).life = s.life := rfl
@[simp] theorem State.setLth_shp (s : State) (n : Nat) (l : Lathe) : (s.setLth n l).shp = s.shp := rfl
@[simp] theorem State.setLth_heap (s : State) (n : Nat) (l : Lathe) : (s.setLth n l).heap = s.heap := rfl
@[simp] theorem State.setLth_pending (s : State) (n : Nat) (l : Lathe) : (s.setLth n l).pending = s.pending := rfl

/-! ## setStream -/

@[simp] theorem State.setStream_part (s : State) (n : Nat) (x : Stream) : (s.setStream n x).part = s.part := rfl
@[simp] theorem State.setStream_time (s : State) (n : Nat) (x : Stream) : (s.setStream n x).time = s.time := rfl
@[simp] theorem State.setStream_ptpNs (s : State) (n : Nat) (x : Stream) : (s.setStream n x).ptpNs = s.ptpNs := rfl
@[simp] theorem State.setStream_freeCtr (s : State) (n : Nat) (x : Stream) : (s.setStream n x).freeCtr = s.freeCtr := rfl
@[simp] theorem State.setStream_flds (s : State) (n : Nat) (x : Stream) : (s.setStream n x).flds = s.flds := rfl
@[simp] theorem State.setStream_cnts (s : State) (n : Nat) (x : Stream) : (s.setStream n x).cnts = s.cnts := rfl
@[simp] theorem State.setStream_resp (s : State) (n : Nat) (x : Stream) : (s.setStream n x).resp = s.resp := rfl
@[simp] theorem State.setStream_snaps (s : State) (n : Nat) (x : Stream) : (s.setStream n x).snaps = s.snaps := rfl
@[simp] theorem State.setStream_restore (s : State) (n : Nat) (x : Stream) : (s.setStream n x).restore = s.restore := rfl
@[simp] theorem State.setStream_flt (s : State) (n : Nat) (x : Stream) : (s.setStream n x).flt = s.flt := rfl
@[simp] theorem State.setStream_evm (s : State) (n : Nat) (x : Stream) : (s.setStream n x).evm = s.evm := rfl
@[simp] theorem State.setStream_nests (s : State) (n : Nat) (x : Stream) : (s.setStream n x).nests = s.nests := rfl
@[simp] theorem State.setStream_vecs (s : State) (n : Nat) (x : Stream) : (s.setStream n x).vecs = s.vecs := rfl
@[simp] theorem State.setStream_toHost (s : State) (n : Nat) (x : Stream) : (s.setStream n x).toHost = s.toHost := rfl
@[simp] theorem State.setStream_pmeEn (s : State) (n : Nat) (x : Stream) : (s.setStream n x).pmeEn = s.pmeEn := rfl
@[simp] theorem State.setStream_pmeStatus (s : State) (n : Nat) (x : Stream) : (s.setStream n x).pmeStatus = s.pmeStatus := rfl
@[simp] theorem State.setStream_ldg (s : State) (n : Nat) (x : Stream) : (s.setStream n x).ldg = s.ldg := rfl
@[simp] theorem State.setStream_dram (s : State) (n : Nat) (x : Stream) : (s.setStream n x).dram = s.dram := rfl
@[simp] theorem State.setStream_lathes (s : State) (n : Nat) (x : Stream) : (s.setStream n x).lathes = s.lathes := rfl
@[simp] theorem State.setStream_disps (s : State) (n : Nat) (x : Stream) : (s.setStream n x).disps = s.disps := rfl
@[simp] theorem State.setStream_dispTag (s : State) (n : Nat) (x : Stream) : (s.setStream n x).dispTag = s.dispTag := rfl
@[simp] theorem State.setStream_progress (s : State) (n : Nat) (x : Stream) : (s.setStream n x).progress = s.progress := rfl
@[simp] theorem State.setStream_blks (s : State) (n : Nat) (x : Stream) : (s.setStream n x).blks = s.blks := rfl
@[simp] theorem State.setStream_manifests (s : State) (n : Nat) (x : Stream) : (s.setStream n x).manifests = s.manifests := rfl
@[simp] theorem State.setStream_canvases (s : State) (n : Nat) (x : Stream) : (s.setStream n x).canvases = s.canvases := rfl
@[simp] theorem State.setStream_ovrSets (s : State) (n : Nat) (x : Stream) : (s.setStream n x).ovrSets = s.ovrSets := rfl
@[simp] theorem State.setStream_heads (s : State) (n : Nat) (x : Stream) : (s.setStream n x).heads = s.heads := rfl
@[simp] theorem State.setStream_coop (s : State) (n : Nat) (x : Stream) : (s.setStream n x).coop = s.coop := rfl
@[simp] theorem State.setStream_drvs (s : State) (n : Nat) (x : Stream) : (s.setStream n x).drvs = s.drvs := rfl
@[simp] theorem State.setStream_bars (s : State) (n : Nat) (x : Stream) : (s.setStream n x).bars = s.bars := rfl
@[simp] theorem State.setStream_perst (s : State) (n : Nat) (x : Stream) : (s.setStream n x).perst = s.perst := rfl
@[simp] theorem State.setStream_wakes (s : State) (n : Nat) (x : Stream) : (s.setStream n x).wakes = s.wakes := rfl
@[simp] theorem State.setStream_hqs (s : State) (n : Nat) (x : Stream) : (s.setStream n x).hqs = s.hqs := rfl
@[simp] theorem State.setStream_cmds (s : State) (n : Nat) (x : Stream) : (s.setStream n x).cmds = s.cmds := rfl
@[simp] theorem State.setStream_toRing (s : State) (n : Nat) (x : Stream) : (s.setStream n x).toRing = s.toRing := rfl
@[simp] theorem State.setStream_ring (s : State) (n : Nat) (x : Stream) : (s.setStream n x).ring = s.ring := rfl
@[simp] theorem State.setStream_life (s : State) (n : Nat) (x : Stream) : (s.setStream n x).life = s.life := rfl
@[simp] theorem State.setStream_shp (s : State) (n : Nat) (x : Stream) : (s.setStream n x).shp = s.shp := rfl
@[simp] theorem State.setStream_heap (s : State) (n : Nat) (x : Stream) : (s.setStream n x).heap = s.heap := rfl
@[simp] theorem State.setStream_pending (s : State) (n : Nat) (x : Stream) : (s.setStream n x).pending = s.pending := rfl

/-! ## setPoison -/

@[simp] theorem State.setPoison_part (s : State) (n : Nat) (b : Bool) : (s.setPoison n b).part = s.part := rfl
@[simp] theorem State.setPoison_time (s : State) (n : Nat) (b : Bool) : (s.setPoison n b).time = s.time := rfl
@[simp] theorem State.setPoison_ptpNs (s : State) (n : Nat) (b : Bool) : (s.setPoison n b).ptpNs = s.ptpNs := rfl
@[simp] theorem State.setPoison_freeCtr (s : State) (n : Nat) (b : Bool) : (s.setPoison n b).freeCtr = s.freeCtr := rfl
@[simp] theorem State.setPoison_flds (s : State) (n : Nat) (b : Bool) : (s.setPoison n b).flds = s.flds := rfl
@[simp] theorem State.setPoison_cnts (s : State) (n : Nat) (b : Bool) : (s.setPoison n b).cnts = s.cnts := rfl
@[simp] theorem State.setPoison_resp (s : State) (n : Nat) (b : Bool) : (s.setPoison n b).resp = s.resp := rfl
@[simp] theorem State.setPoison_snaps (s : State) (n : Nat) (b : Bool) : (s.setPoison n b).snaps = s.snaps := rfl
@[simp] theorem State.setPoison_restore (s : State) (n : Nat) (b : Bool) : (s.setPoison n b).restore = s.restore := rfl
@[simp] theorem State.setPoison_flt (s : State) (n : Nat) (b : Bool) : (s.setPoison n b).flt = s.flt := rfl
@[simp] theorem State.setPoison_evm (s : State) (n : Nat) (b : Bool) : (s.setPoison n b).evm = s.evm := rfl
@[simp] theorem State.setPoison_nests (s : State) (n : Nat) (b : Bool) : (s.setPoison n b).nests = s.nests := rfl
@[simp] theorem State.setPoison_vecs (s : State) (n : Nat) (b : Bool) : (s.setPoison n b).vecs = s.vecs := rfl
@[simp] theorem State.setPoison_toHost (s : State) (n : Nat) (b : Bool) : (s.setPoison n b).toHost = s.toHost := rfl
@[simp] theorem State.setPoison_pmeEn (s : State) (n : Nat) (b : Bool) : (s.setPoison n b).pmeEn = s.pmeEn := rfl
@[simp] theorem State.setPoison_pmeStatus (s : State) (n : Nat) (b : Bool) : (s.setPoison n b).pmeStatus = s.pmeStatus := rfl
@[simp] theorem State.setPoison_ldg (s : State) (n : Nat) (b : Bool) : (s.setPoison n b).ldg = s.ldg := rfl
@[simp] theorem State.setPoison_lathes (s : State) (n : Nat) (b : Bool) : (s.setPoison n b).lathes = s.lathes := rfl
@[simp] theorem State.setPoison_disps (s : State) (n : Nat) (b : Bool) : (s.setPoison n b).disps = s.disps := rfl
@[simp] theorem State.setPoison_dispTag (s : State) (n : Nat) (b : Bool) : (s.setPoison n b).dispTag = s.dispTag := rfl
@[simp] theorem State.setPoison_progress (s : State) (n : Nat) (b : Bool) : (s.setPoison n b).progress = s.progress := rfl
@[simp] theorem State.setPoison_blks (s : State) (n : Nat) (b : Bool) : (s.setPoison n b).blks = s.blks := rfl
@[simp] theorem State.setPoison_manifests (s : State) (n : Nat) (b : Bool) : (s.setPoison n b).manifests = s.manifests := rfl
@[simp] theorem State.setPoison_streams (s : State) (n : Nat) (b : Bool) : (s.setPoison n b).streams = s.streams := rfl
@[simp] theorem State.setPoison_canvases (s : State) (n : Nat) (b : Bool) : (s.setPoison n b).canvases = s.canvases := rfl
@[simp] theorem State.setPoison_ovrSets (s : State) (n : Nat) (b : Bool) : (s.setPoison n b).ovrSets = s.ovrSets := rfl
@[simp] theorem State.setPoison_heads (s : State) (n : Nat) (b : Bool) : (s.setPoison n b).heads = s.heads := rfl
@[simp] theorem State.setPoison_coop (s : State) (n : Nat) (b : Bool) : (s.setPoison n b).coop = s.coop := rfl
@[simp] theorem State.setPoison_drvs (s : State) (n : Nat) (b : Bool) : (s.setPoison n b).drvs = s.drvs := rfl
@[simp] theorem State.setPoison_bars (s : State) (n : Nat) (b : Bool) : (s.setPoison n b).bars = s.bars := rfl
@[simp] theorem State.setPoison_perst (s : State) (n : Nat) (b : Bool) : (s.setPoison n b).perst = s.perst := rfl
@[simp] theorem State.setPoison_wakes (s : State) (n : Nat) (b : Bool) : (s.setPoison n b).wakes = s.wakes := rfl
@[simp] theorem State.setPoison_hqs (s : State) (n : Nat) (b : Bool) : (s.setPoison n b).hqs = s.hqs := rfl
@[simp] theorem State.setPoison_cmds (s : State) (n : Nat) (b : Bool) : (s.setPoison n b).cmds = s.cmds := rfl
@[simp] theorem State.setPoison_toRing (s : State) (n : Nat) (b : Bool) : (s.setPoison n b).toRing = s.toRing := rfl
@[simp] theorem State.setPoison_ring (s : State) (n : Nat) (b : Bool) : (s.setPoison n b).ring = s.ring := rfl
@[simp] theorem State.setPoison_life (s : State) (n : Nat) (b : Bool) : (s.setPoison n b).life = s.life := rfl
@[simp] theorem State.setPoison_shp (s : State) (n : Nat) (b : Bool) : (s.setPoison n b).shp = s.shp := rfl
@[simp] theorem State.setPoison_heap (s : State) (n : Nat) (b : Bool) : (s.setPoison n b).heap = s.heap := rfl
@[simp] theorem State.setPoison_pending (s : State) (n : Nat) (b : Bool) : (s.setPoison n b).pending = s.pending := rfl

/-! ## setDrv -/

@[simp] theorem State.setDrv_part (s : State) (n : Nat) (d : Drv) : (s.setDrv n d).part = s.part := rfl
@[simp] theorem State.setDrv_time (s : State) (n : Nat) (d : Drv) : (s.setDrv n d).time = s.time := rfl
@[simp] theorem State.setDrv_ptpNs (s : State) (n : Nat) (d : Drv) : (s.setDrv n d).ptpNs = s.ptpNs := rfl
@[simp] theorem State.setDrv_freeCtr (s : State) (n : Nat) (d : Drv) : (s.setDrv n d).freeCtr = s.freeCtr := rfl
@[simp] theorem State.setDrv_flds (s : State) (n : Nat) (d : Drv) : (s.setDrv n d).flds = s.flds := rfl
@[simp] theorem State.setDrv_cnts (s : State) (n : Nat) (d : Drv) : (s.setDrv n d).cnts = s.cnts := rfl
@[simp] theorem State.setDrv_resp (s : State) (n : Nat) (d : Drv) : (s.setDrv n d).resp = s.resp := rfl
@[simp] theorem State.setDrv_snaps (s : State) (n : Nat) (d : Drv) : (s.setDrv n d).snaps = s.snaps := rfl
@[simp] theorem State.setDrv_restore (s : State) (n : Nat) (d : Drv) : (s.setDrv n d).restore = s.restore := rfl
@[simp] theorem State.setDrv_flt (s : State) (n : Nat) (d : Drv) : (s.setDrv n d).flt = s.flt := rfl
@[simp] theorem State.setDrv_evm (s : State) (n : Nat) (d : Drv) : (s.setDrv n d).evm = s.evm := rfl
@[simp] theorem State.setDrv_nests (s : State) (n : Nat) (d : Drv) : (s.setDrv n d).nests = s.nests := rfl
@[simp] theorem State.setDrv_vecs (s : State) (n : Nat) (d : Drv) : (s.setDrv n d).vecs = s.vecs := rfl
@[simp] theorem State.setDrv_toHost (s : State) (n : Nat) (d : Drv) : (s.setDrv n d).toHost = s.toHost := rfl
@[simp] theorem State.setDrv_pmeEn (s : State) (n : Nat) (d : Drv) : (s.setDrv n d).pmeEn = s.pmeEn := rfl
@[simp] theorem State.setDrv_pmeStatus (s : State) (n : Nat) (d : Drv) : (s.setDrv n d).pmeStatus = s.pmeStatus := rfl
@[simp] theorem State.setDrv_ldg (s : State) (n : Nat) (d : Drv) : (s.setDrv n d).ldg = s.ldg := rfl
@[simp] theorem State.setDrv_dram (s : State) (n : Nat) (d : Drv) : (s.setDrv n d).dram = s.dram := rfl
@[simp] theorem State.setDrv_lathes (s : State) (n : Nat) (d : Drv) : (s.setDrv n d).lathes = s.lathes := rfl
@[simp] theorem State.setDrv_disps (s : State) (n : Nat) (d : Drv) : (s.setDrv n d).disps = s.disps := rfl
@[simp] theorem State.setDrv_dispTag (s : State) (n : Nat) (d : Drv) : (s.setDrv n d).dispTag = s.dispTag := rfl
@[simp] theorem State.setDrv_progress (s : State) (n : Nat) (d : Drv) : (s.setDrv n d).progress = s.progress := rfl
@[simp] theorem State.setDrv_blks (s : State) (n : Nat) (d : Drv) : (s.setDrv n d).blks = s.blks := rfl
@[simp] theorem State.setDrv_manifests (s : State) (n : Nat) (d : Drv) : (s.setDrv n d).manifests = s.manifests := rfl
@[simp] theorem State.setDrv_streams (s : State) (n : Nat) (d : Drv) : (s.setDrv n d).streams = s.streams := rfl
@[simp] theorem State.setDrv_canvases (s : State) (n : Nat) (d : Drv) : (s.setDrv n d).canvases = s.canvases := rfl
@[simp] theorem State.setDrv_ovrSets (s : State) (n : Nat) (d : Drv) : (s.setDrv n d).ovrSets = s.ovrSets := rfl
@[simp] theorem State.setDrv_heads (s : State) (n : Nat) (d : Drv) : (s.setDrv n d).heads = s.heads := rfl
@[simp] theorem State.setDrv_coop (s : State) (n : Nat) (d : Drv) : (s.setDrv n d).coop = s.coop := rfl
@[simp] theorem State.setDrv_bars (s : State) (n : Nat) (d : Drv) : (s.setDrv n d).bars = s.bars := rfl
@[simp] theorem State.setDrv_perst (s : State) (n : Nat) (d : Drv) : (s.setDrv n d).perst = s.perst := rfl
@[simp] theorem State.setDrv_wakes (s : State) (n : Nat) (d : Drv) : (s.setDrv n d).wakes = s.wakes := rfl
@[simp] theorem State.setDrv_hqs (s : State) (n : Nat) (d : Drv) : (s.setDrv n d).hqs = s.hqs := rfl
@[simp] theorem State.setDrv_cmds (s : State) (n : Nat) (d : Drv) : (s.setDrv n d).cmds = s.cmds := rfl
@[simp] theorem State.setDrv_toRing (s : State) (n : Nat) (d : Drv) : (s.setDrv n d).toRing = s.toRing := rfl
@[simp] theorem State.setDrv_ring (s : State) (n : Nat) (d : Drv) : (s.setDrv n d).ring = s.ring := rfl
@[simp] theorem State.setDrv_life (s : State) (n : Nat) (d : Drv) : (s.setDrv n d).life = s.life := rfl
@[simp] theorem State.setDrv_shp (s : State) (n : Nat) (d : Drv) : (s.setDrv n d).shp = s.shp := rfl
@[simp] theorem State.setDrv_heap (s : State) (n : Nat) (d : Drv) : (s.setDrv n d).heap = s.heap := rfl
@[simp] theorem State.setDrv_pending (s : State) (n : Nat) (d : Drv) : (s.setDrv n d).pending = s.pending := rfl

/-! ## setCv -/

@[simp] theorem State.setCv_part (s : State) (n : Nat) (x : Canvas) : (s.setCv n x).part = s.part := rfl
@[simp] theorem State.setCv_time (s : State) (n : Nat) (x : Canvas) : (s.setCv n x).time = s.time := rfl
@[simp] theorem State.setCv_ptpNs (s : State) (n : Nat) (x : Canvas) : (s.setCv n x).ptpNs = s.ptpNs := rfl
@[simp] theorem State.setCv_freeCtr (s : State) (n : Nat) (x : Canvas) : (s.setCv n x).freeCtr = s.freeCtr := rfl
@[simp] theorem State.setCv_flds (s : State) (n : Nat) (x : Canvas) : (s.setCv n x).flds = s.flds := rfl
@[simp] theorem State.setCv_cnts (s : State) (n : Nat) (x : Canvas) : (s.setCv n x).cnts = s.cnts := rfl
@[simp] theorem State.setCv_resp (s : State) (n : Nat) (x : Canvas) : (s.setCv n x).resp = s.resp := rfl
@[simp] theorem State.setCv_snaps (s : State) (n : Nat) (x : Canvas) : (s.setCv n x).snaps = s.snaps := rfl
@[simp] theorem State.setCv_restore (s : State) (n : Nat) (x : Canvas) : (s.setCv n x).restore = s.restore := rfl
@[simp] theorem State.setCv_flt (s : State) (n : Nat) (x : Canvas) : (s.setCv n x).flt = s.flt := rfl
@[simp] theorem State.setCv_evm (s : State) (n : Nat) (x : Canvas) : (s.setCv n x).evm = s.evm := rfl
@[simp] theorem State.setCv_nests (s : State) (n : Nat) (x : Canvas) : (s.setCv n x).nests = s.nests := rfl
@[simp] theorem State.setCv_vecs (s : State) (n : Nat) (x : Canvas) : (s.setCv n x).vecs = s.vecs := rfl
@[simp] theorem State.setCv_toHost (s : State) (n : Nat) (x : Canvas) : (s.setCv n x).toHost = s.toHost := rfl
@[simp] theorem State.setCv_pmeEn (s : State) (n : Nat) (x : Canvas) : (s.setCv n x).pmeEn = s.pmeEn := rfl
@[simp] theorem State.setCv_pmeStatus (s : State) (n : Nat) (x : Canvas) : (s.setCv n x).pmeStatus = s.pmeStatus := rfl
@[simp] theorem State.setCv_ldg (s : State) (n : Nat) (x : Canvas) : (s.setCv n x).ldg = s.ldg := rfl
@[simp] theorem State.setCv_dram (s : State) (n : Nat) (x : Canvas) : (s.setCv n x).dram = s.dram := rfl
@[simp] theorem State.setCv_lathes (s : State) (n : Nat) (x : Canvas) : (s.setCv n x).lathes = s.lathes := rfl
@[simp] theorem State.setCv_disps (s : State) (n : Nat) (x : Canvas) : (s.setCv n x).disps = s.disps := rfl
@[simp] theorem State.setCv_dispTag (s : State) (n : Nat) (x : Canvas) : (s.setCv n x).dispTag = s.dispTag := rfl
@[simp] theorem State.setCv_progress (s : State) (n : Nat) (x : Canvas) : (s.setCv n x).progress = s.progress := rfl
@[simp] theorem State.setCv_blks (s : State) (n : Nat) (x : Canvas) : (s.setCv n x).blks = s.blks := rfl
@[simp] theorem State.setCv_manifests (s : State) (n : Nat) (x : Canvas) : (s.setCv n x).manifests = s.manifests := rfl
@[simp] theorem State.setCv_streams (s : State) (n : Nat) (x : Canvas) : (s.setCv n x).streams = s.streams := rfl
@[simp] theorem State.setCv_ovrSets (s : State) (n : Nat) (x : Canvas) : (s.setCv n x).ovrSets = s.ovrSets := rfl
@[simp] theorem State.setCv_heads (s : State) (n : Nat) (x : Canvas) : (s.setCv n x).heads = s.heads := rfl
@[simp] theorem State.setCv_coop (s : State) (n : Nat) (x : Canvas) : (s.setCv n x).coop = s.coop := rfl
@[simp] theorem State.setCv_drvs (s : State) (n : Nat) (x : Canvas) : (s.setCv n x).drvs = s.drvs := rfl
@[simp] theorem State.setCv_bars (s : State) (n : Nat) (x : Canvas) : (s.setCv n x).bars = s.bars := rfl
@[simp] theorem State.setCv_perst (s : State) (n : Nat) (x : Canvas) : (s.setCv n x).perst = s.perst := rfl
@[simp] theorem State.setCv_wakes (s : State) (n : Nat) (x : Canvas) : (s.setCv n x).wakes = s.wakes := rfl
@[simp] theorem State.setCv_hqs (s : State) (n : Nat) (x : Canvas) : (s.setCv n x).hqs = s.hqs := rfl
@[simp] theorem State.setCv_cmds (s : State) (n : Nat) (x : Canvas) : (s.setCv n x).cmds = s.cmds := rfl
@[simp] theorem State.setCv_toRing (s : State) (n : Nat) (x : Canvas) : (s.setCv n x).toRing = s.toRing := rfl
@[simp] theorem State.setCv_ring (s : State) (n : Nat) (x : Canvas) : (s.setCv n x).ring = s.ring := rfl
@[simp] theorem State.setCv_life (s : State) (n : Nat) (x : Canvas) : (s.setCv n x).life = s.life := rfl
@[simp] theorem State.setCv_shp (s : State) (n : Nat) (x : Canvas) : (s.setCv n x).shp = s.shp := rfl
@[simp] theorem State.setCv_heap (s : State) (n : Nat) (x : Canvas) : (s.setCv n x).heap = s.heap := rfl
@[simp] theorem State.setCv_pending (s : State) (n : Nat) (x : Canvas) : (s.setCv n x).pending = s.pending := rfl

/-! ## setHead -/

@[simp] theorem State.setHead_part (s : State) (n : Nat) (x : Head) : (s.setHead n x).part = s.part := rfl
@[simp] theorem State.setHead_time (s : State) (n : Nat) (x : Head) : (s.setHead n x).time = s.time := rfl
@[simp] theorem State.setHead_ptpNs (s : State) (n : Nat) (x : Head) : (s.setHead n x).ptpNs = s.ptpNs := rfl
@[simp] theorem State.setHead_freeCtr (s : State) (n : Nat) (x : Head) : (s.setHead n x).freeCtr = s.freeCtr := rfl
@[simp] theorem State.setHead_flds (s : State) (n : Nat) (x : Head) : (s.setHead n x).flds = s.flds := rfl
@[simp] theorem State.setHead_cnts (s : State) (n : Nat) (x : Head) : (s.setHead n x).cnts = s.cnts := rfl
@[simp] theorem State.setHead_resp (s : State) (n : Nat) (x : Head) : (s.setHead n x).resp = s.resp := rfl
@[simp] theorem State.setHead_snaps (s : State) (n : Nat) (x : Head) : (s.setHead n x).snaps = s.snaps := rfl
@[simp] theorem State.setHead_restore (s : State) (n : Nat) (x : Head) : (s.setHead n x).restore = s.restore := rfl
@[simp] theorem State.setHead_flt (s : State) (n : Nat) (x : Head) : (s.setHead n x).flt = s.flt := rfl
@[simp] theorem State.setHead_evm (s : State) (n : Nat) (x : Head) : (s.setHead n x).evm = s.evm := rfl
@[simp] theorem State.setHead_nests (s : State) (n : Nat) (x : Head) : (s.setHead n x).nests = s.nests := rfl
@[simp] theorem State.setHead_vecs (s : State) (n : Nat) (x : Head) : (s.setHead n x).vecs = s.vecs := rfl
@[simp] theorem State.setHead_toHost (s : State) (n : Nat) (x : Head) : (s.setHead n x).toHost = s.toHost := rfl
@[simp] theorem State.setHead_pmeEn (s : State) (n : Nat) (x : Head) : (s.setHead n x).pmeEn = s.pmeEn := rfl
@[simp] theorem State.setHead_pmeStatus (s : State) (n : Nat) (x : Head) : (s.setHead n x).pmeStatus = s.pmeStatus := rfl
@[simp] theorem State.setHead_ldg (s : State) (n : Nat) (x : Head) : (s.setHead n x).ldg = s.ldg := rfl
@[simp] theorem State.setHead_dram (s : State) (n : Nat) (x : Head) : (s.setHead n x).dram = s.dram := rfl
@[simp] theorem State.setHead_lathes (s : State) (n : Nat) (x : Head) : (s.setHead n x).lathes = s.lathes := rfl
@[simp] theorem State.setHead_disps (s : State) (n : Nat) (x : Head) : (s.setHead n x).disps = s.disps := rfl
@[simp] theorem State.setHead_dispTag (s : State) (n : Nat) (x : Head) : (s.setHead n x).dispTag = s.dispTag := rfl
@[simp] theorem State.setHead_progress (s : State) (n : Nat) (x : Head) : (s.setHead n x).progress = s.progress := rfl
@[simp] theorem State.setHead_blks (s : State) (n : Nat) (x : Head) : (s.setHead n x).blks = s.blks := rfl
@[simp] theorem State.setHead_manifests (s : State) (n : Nat) (x : Head) : (s.setHead n x).manifests = s.manifests := rfl
@[simp] theorem State.setHead_streams (s : State) (n : Nat) (x : Head) : (s.setHead n x).streams = s.streams := rfl
@[simp] theorem State.setHead_canvases (s : State) (n : Nat) (x : Head) : (s.setHead n x).canvases = s.canvases := rfl
@[simp] theorem State.setHead_ovrSets (s : State) (n : Nat) (x : Head) : (s.setHead n x).ovrSets = s.ovrSets := rfl
@[simp] theorem State.setHead_coop (s : State) (n : Nat) (x : Head) : (s.setHead n x).coop = s.coop := rfl
@[simp] theorem State.setHead_drvs (s : State) (n : Nat) (x : Head) : (s.setHead n x).drvs = s.drvs := rfl
@[simp] theorem State.setHead_bars (s : State) (n : Nat) (x : Head) : (s.setHead n x).bars = s.bars := rfl
@[simp] theorem State.setHead_perst (s : State) (n : Nat) (x : Head) : (s.setHead n x).perst = s.perst := rfl
@[simp] theorem State.setHead_wakes (s : State) (n : Nat) (x : Head) : (s.setHead n x).wakes = s.wakes := rfl
@[simp] theorem State.setHead_hqs (s : State) (n : Nat) (x : Head) : (s.setHead n x).hqs = s.hqs := rfl
@[simp] theorem State.setHead_cmds (s : State) (n : Nat) (x : Head) : (s.setHead n x).cmds = s.cmds := rfl
@[simp] theorem State.setHead_toRing (s : State) (n : Nat) (x : Head) : (s.setHead n x).toRing = s.toRing := rfl
@[simp] theorem State.setHead_ring (s : State) (n : Nat) (x : Head) : (s.setHead n x).ring = s.ring := rfl
@[simp] theorem State.setHead_life (s : State) (n : Nat) (x : Head) : (s.setHead n x).life = s.life := rfl
@[simp] theorem State.setHead_shp (s : State) (n : Nat) (x : Head) : (s.setHead n x).shp = s.shp := rfl
@[simp] theorem State.setHead_heap (s : State) (n : Nat) (x : Head) : (s.setHead n x).heap = s.heap := rfl
@[simp] theorem State.setHead_pending (s : State) (n : Nat) (x : Head) : (s.setHead n x).pending = s.pending := rfl

/-! ## setHq -/

@[simp] theorem State.setHq_part (s : State) (n : Nat) (x : HQueue) : (s.setHq n x).part = s.part := rfl
@[simp] theorem State.setHq_time (s : State) (n : Nat) (x : HQueue) : (s.setHq n x).time = s.time := rfl
@[simp] theorem State.setHq_ptpNs (s : State) (n : Nat) (x : HQueue) : (s.setHq n x).ptpNs = s.ptpNs := rfl
@[simp] theorem State.setHq_freeCtr (s : State) (n : Nat) (x : HQueue) : (s.setHq n x).freeCtr = s.freeCtr := rfl
@[simp] theorem State.setHq_flds (s : State) (n : Nat) (x : HQueue) : (s.setHq n x).flds = s.flds := rfl
@[simp] theorem State.setHq_cnts (s : State) (n : Nat) (x : HQueue) : (s.setHq n x).cnts = s.cnts := rfl
@[simp] theorem State.setHq_resp (s : State) (n : Nat) (x : HQueue) : (s.setHq n x).resp = s.resp := rfl
@[simp] theorem State.setHq_snaps (s : State) (n : Nat) (x : HQueue) : (s.setHq n x).snaps = s.snaps := rfl
@[simp] theorem State.setHq_restore (s : State) (n : Nat) (x : HQueue) : (s.setHq n x).restore = s.restore := rfl
@[simp] theorem State.setHq_flt (s : State) (n : Nat) (x : HQueue) : (s.setHq n x).flt = s.flt := rfl
@[simp] theorem State.setHq_evm (s : State) (n : Nat) (x : HQueue) : (s.setHq n x).evm = s.evm := rfl
@[simp] theorem State.setHq_nests (s : State) (n : Nat) (x : HQueue) : (s.setHq n x).nests = s.nests := rfl
@[simp] theorem State.setHq_vecs (s : State) (n : Nat) (x : HQueue) : (s.setHq n x).vecs = s.vecs := rfl
@[simp] theorem State.setHq_toHost (s : State) (n : Nat) (x : HQueue) : (s.setHq n x).toHost = s.toHost := rfl
@[simp] theorem State.setHq_pmeEn (s : State) (n : Nat) (x : HQueue) : (s.setHq n x).pmeEn = s.pmeEn := rfl
@[simp] theorem State.setHq_pmeStatus (s : State) (n : Nat) (x : HQueue) : (s.setHq n x).pmeStatus = s.pmeStatus := rfl
@[simp] theorem State.setHq_ldg (s : State) (n : Nat) (x : HQueue) : (s.setHq n x).ldg = s.ldg := rfl
@[simp] theorem State.setHq_dram (s : State) (n : Nat) (x : HQueue) : (s.setHq n x).dram = s.dram := rfl
@[simp] theorem State.setHq_lathes (s : State) (n : Nat) (x : HQueue) : (s.setHq n x).lathes = s.lathes := rfl
@[simp] theorem State.setHq_disps (s : State) (n : Nat) (x : HQueue) : (s.setHq n x).disps = s.disps := rfl
@[simp] theorem State.setHq_dispTag (s : State) (n : Nat) (x : HQueue) : (s.setHq n x).dispTag = s.dispTag := rfl
@[simp] theorem State.setHq_progress (s : State) (n : Nat) (x : HQueue) : (s.setHq n x).progress = s.progress := rfl
@[simp] theorem State.setHq_blks (s : State) (n : Nat) (x : HQueue) : (s.setHq n x).blks = s.blks := rfl
@[simp] theorem State.setHq_manifests (s : State) (n : Nat) (x : HQueue) : (s.setHq n x).manifests = s.manifests := rfl
@[simp] theorem State.setHq_streams (s : State) (n : Nat) (x : HQueue) : (s.setHq n x).streams = s.streams := rfl
@[simp] theorem State.setHq_canvases (s : State) (n : Nat) (x : HQueue) : (s.setHq n x).canvases = s.canvases := rfl
@[simp] theorem State.setHq_ovrSets (s : State) (n : Nat) (x : HQueue) : (s.setHq n x).ovrSets = s.ovrSets := rfl
@[simp] theorem State.setHq_heads (s : State) (n : Nat) (x : HQueue) : (s.setHq n x).heads = s.heads := rfl
@[simp] theorem State.setHq_coop (s : State) (n : Nat) (x : HQueue) : (s.setHq n x).coop = s.coop := rfl
@[simp] theorem State.setHq_drvs (s : State) (n : Nat) (x : HQueue) : (s.setHq n x).drvs = s.drvs := rfl
@[simp] theorem State.setHq_bars (s : State) (n : Nat) (x : HQueue) : (s.setHq n x).bars = s.bars := rfl
@[simp] theorem State.setHq_perst (s : State) (n : Nat) (x : HQueue) : (s.setHq n x).perst = s.perst := rfl
@[simp] theorem State.setHq_wakes (s : State) (n : Nat) (x : HQueue) : (s.setHq n x).wakes = s.wakes := rfl
@[simp] theorem State.setHq_cmds (s : State) (n : Nat) (x : HQueue) : (s.setHq n x).cmds = s.cmds := rfl
@[simp] theorem State.setHq_toRing (s : State) (n : Nat) (x : HQueue) : (s.setHq n x).toRing = s.toRing := rfl
@[simp] theorem State.setHq_ring (s : State) (n : Nat) (x : HQueue) : (s.setHq n x).ring = s.ring := rfl
@[simp] theorem State.setHq_life (s : State) (n : Nat) (x : HQueue) : (s.setHq n x).life = s.life := rfl
@[simp] theorem State.setHq_shp (s : State) (n : Nat) (x : HQueue) : (s.setHq n x).shp = s.shp := rfl
@[simp] theorem State.setHq_heap (s : State) (n : Nat) (x : HQueue) : (s.setHq n x).heap = s.heap := rfl
@[simp] theorem State.setHq_pending (s : State) (n : Nat) (x : HQueue) : (s.setHq n x).pending = s.pending := rfl

/-! ## setCmd -/

@[simp] theorem State.setCmd_part (s : State) (n : Nat) (x : Option HCmd) : (s.setCmd n x).part = s.part := rfl
@[simp] theorem State.setCmd_time (s : State) (n : Nat) (x : Option HCmd) : (s.setCmd n x).time = s.time := rfl
@[simp] theorem State.setCmd_ptpNs (s : State) (n : Nat) (x : Option HCmd) : (s.setCmd n x).ptpNs = s.ptpNs := rfl
@[simp] theorem State.setCmd_freeCtr (s : State) (n : Nat) (x : Option HCmd) : (s.setCmd n x).freeCtr = s.freeCtr := rfl
@[simp] theorem State.setCmd_flds (s : State) (n : Nat) (x : Option HCmd) : (s.setCmd n x).flds = s.flds := rfl
@[simp] theorem State.setCmd_cnts (s : State) (n : Nat) (x : Option HCmd) : (s.setCmd n x).cnts = s.cnts := rfl
@[simp] theorem State.setCmd_resp (s : State) (n : Nat) (x : Option HCmd) : (s.setCmd n x).resp = s.resp := rfl
@[simp] theorem State.setCmd_snaps (s : State) (n : Nat) (x : Option HCmd) : (s.setCmd n x).snaps = s.snaps := rfl
@[simp] theorem State.setCmd_restore (s : State) (n : Nat) (x : Option HCmd) : (s.setCmd n x).restore = s.restore := rfl
@[simp] theorem State.setCmd_flt (s : State) (n : Nat) (x : Option HCmd) : (s.setCmd n x).flt = s.flt := rfl
@[simp] theorem State.setCmd_evm (s : State) (n : Nat) (x : Option HCmd) : (s.setCmd n x).evm = s.evm := rfl
@[simp] theorem State.setCmd_nests (s : State) (n : Nat) (x : Option HCmd) : (s.setCmd n x).nests = s.nests := rfl
@[simp] theorem State.setCmd_vecs (s : State) (n : Nat) (x : Option HCmd) : (s.setCmd n x).vecs = s.vecs := rfl
@[simp] theorem State.setCmd_toHost (s : State) (n : Nat) (x : Option HCmd) : (s.setCmd n x).toHost = s.toHost := rfl
@[simp] theorem State.setCmd_pmeEn (s : State) (n : Nat) (x : Option HCmd) : (s.setCmd n x).pmeEn = s.pmeEn := rfl
@[simp] theorem State.setCmd_pmeStatus (s : State) (n : Nat) (x : Option HCmd) : (s.setCmd n x).pmeStatus = s.pmeStatus := rfl
@[simp] theorem State.setCmd_ldg (s : State) (n : Nat) (x : Option HCmd) : (s.setCmd n x).ldg = s.ldg := rfl
@[simp] theorem State.setCmd_dram (s : State) (n : Nat) (x : Option HCmd) : (s.setCmd n x).dram = s.dram := rfl
@[simp] theorem State.setCmd_lathes (s : State) (n : Nat) (x : Option HCmd) : (s.setCmd n x).lathes = s.lathes := rfl
@[simp] theorem State.setCmd_disps (s : State) (n : Nat) (x : Option HCmd) : (s.setCmd n x).disps = s.disps := rfl
@[simp] theorem State.setCmd_dispTag (s : State) (n : Nat) (x : Option HCmd) : (s.setCmd n x).dispTag = s.dispTag := rfl
@[simp] theorem State.setCmd_progress (s : State) (n : Nat) (x : Option HCmd) : (s.setCmd n x).progress = s.progress := rfl
@[simp] theorem State.setCmd_blks (s : State) (n : Nat) (x : Option HCmd) : (s.setCmd n x).blks = s.blks := rfl
@[simp] theorem State.setCmd_manifests (s : State) (n : Nat) (x : Option HCmd) : (s.setCmd n x).manifests = s.manifests := rfl
@[simp] theorem State.setCmd_streams (s : State) (n : Nat) (x : Option HCmd) : (s.setCmd n x).streams = s.streams := rfl
@[simp] theorem State.setCmd_canvases (s : State) (n : Nat) (x : Option HCmd) : (s.setCmd n x).canvases = s.canvases := rfl
@[simp] theorem State.setCmd_ovrSets (s : State) (n : Nat) (x : Option HCmd) : (s.setCmd n x).ovrSets = s.ovrSets := rfl
@[simp] theorem State.setCmd_heads (s : State) (n : Nat) (x : Option HCmd) : (s.setCmd n x).heads = s.heads := rfl
@[simp] theorem State.setCmd_coop (s : State) (n : Nat) (x : Option HCmd) : (s.setCmd n x).coop = s.coop := rfl
@[simp] theorem State.setCmd_drvs (s : State) (n : Nat) (x : Option HCmd) : (s.setCmd n x).drvs = s.drvs := rfl
@[simp] theorem State.setCmd_bars (s : State) (n : Nat) (x : Option HCmd) : (s.setCmd n x).bars = s.bars := rfl
@[simp] theorem State.setCmd_perst (s : State) (n : Nat) (x : Option HCmd) : (s.setCmd n x).perst = s.perst := rfl
@[simp] theorem State.setCmd_wakes (s : State) (n : Nat) (x : Option HCmd) : (s.setCmd n x).wakes = s.wakes := rfl
@[simp] theorem State.setCmd_hqs (s : State) (n : Nat) (x : Option HCmd) : (s.setCmd n x).hqs = s.hqs := rfl
@[simp] theorem State.setCmd_toRing (s : State) (n : Nat) (x : Option HCmd) : (s.setCmd n x).toRing = s.toRing := rfl
@[simp] theorem State.setCmd_ring (s : State) (n : Nat) (x : Option HCmd) : (s.setCmd n x).ring = s.ring := rfl
@[simp] theorem State.setCmd_life (s : State) (n : Nat) (x : Option HCmd) : (s.setCmd n x).life = s.life := rfl
@[simp] theorem State.setCmd_shp (s : State) (n : Nat) (x : Option HCmd) : (s.setCmd n x).shp = s.shp := rfl
@[simp] theorem State.setCmd_heap (s : State) (n : Nat) (x : Option HCmd) : (s.setCmd n x).heap = s.heap := rfl
@[simp] theorem State.setCmd_pending (s : State) (n : Nat) (x : Option HCmd) : (s.setCmd n x).pending = s.pending := rfl

end Sys2Proof.Machine
end

