-- ==== Sys2Proof/Laws/Tbl.lean ====
section
/-!
SUPPORT. Laws of the sparse tables: what a read after a write gives, and that a write keeps the canonical form.
-/
namespace Sys2Proof.Laws

open Sys2Proof.Machine

variable {α : Type}

/-- A deleted number reads as the default. -/
theorem tget_tdel_same (d : α) (t : Tbl α) (k : Nat) : tget d (tdel k t) k = d := by
  induction t with
  | nil => rfl
  | cons e r ih =>
    simp only [tdel]
    split
    · exact ih
    · rename_i h
      simp only [tget]
      rw [if_neg (fun c => h c.symm), ih]

/-- Deleting leaves every other number. -/
theorem tget_tdel_other (d : α) (t : Tbl α) (k j : Nat) (h : j ≠ k) : tget d (tdel k t) j = tget d t j := by
  induction t with
  | nil => rfl
  | cons e r ih =>
    simp only [tdel]
    split
    · rename_i hk
      simp only [tget]
      rw [if_neg (fun c => h (c.trans hk)), ih]
    · simp only [tget]
      rw [ih]

/-- An inserted number reads as its value where it was not listed. -/
theorem tget_tins_same (d : α) (t : Tbl α) (k : Nat) (v : α) (h : ∀ e ∈ t, e.1 ≠ k) : tget d (tins k v t) k = v := by
  induction t with
  | nil => simp [tins, tget]
  | cons e r ih =>
    simp only [tins]
    split
    · simp [tget]
    · simp only [tget]
      rw [if_neg (fun c => h e (List.mem_cons_self ..) c.symm)]
      exact ih (fun x hx => h x (List.mem_cons_of_mem _ hx))

/-- Inserting leaves every other number. -/
theorem tget_tins_other (d : α) (t : Tbl α) (k j : Nat) (v : α) (h : j ≠ k) : tget d (tins k v t) j = tget d t j := by
  induction t with
  | nil => simp [tins, tget, h]
  | cons e r ih =>
    simp only [tins]
    split
    · simp [tget, h]
    · simp only [tget]
      rw [ih]

/-- A deleted number is not listed. -/
theorem tdel_notin (t : Tbl α) (k : Nat) : ∀ e ∈ tdel k t, e.1 ≠ k := by
  induction t with
  | nil => simp [tdel]
  | cons e r ih =>
    simp only [tdel]
    split
    · exact ih
    · rename_i h
      intro x hx
      rcases List.mem_cons.1 hx with rfl | hx
      · exact h
      · exact ih x hx

/-- A read after a write to the same number gives the value written. -/
@[simp] theorem tget_tset_same [DecidableEq α] (d : α) (t : Tbl α) (k : Nat) (v : α) : tget d (tset d t k v) k = v := by
  unfold tset
  split
  · rename_i h
    rw [tget_tdel_same, h]
  · exact tget_tins_same d _ k v (tdel_notin t k)

/-- A write leaves every other number, whatever their defaults. -/
theorem tget_tset_other [DecidableEq α] (d d' : α) (t : Tbl α) (k j : Nat) (v : α) (h : j ≠ k) :
    tget d' (tset d t k v) j = tget d' t j := by
  unfold tset
  split
  · exact tget_tdel_other d' t k j h
  · rw [tget_tins_other d' _ k j v h, tget_tdel_other d' t k j h]

/-- A read after a write. -/
theorem tget_tset [DecidableEq α] (d : α) (t : Tbl α) (k j : Nat) (v : α) :
    tget d (tset d t k v) j = if j = k then v else tget d t j := by
  split
  · rename_i h
    rw [h, tget_tset_same]
  · rename_i h
    exact tget_tset_other d d t k j v h

/-! ## The canonical form -/

/-- Sorted: the first number lies below all that follow. -/
theorem tsorted_cons (e : Nat × α) (r : Tbl α) : tsorted (e :: r) = true ↔ (∀ x ∈ r, e.1 < x.1) ∧ tsorted r = true := by
  induction r generalizing e with
  | nil => simp [tsorted]
  | cons y q ih =>
    obtain ⟨k, v⟩ := e
    obtain ⟨k', v'⟩ := y
    simp only [tsorted, Bool.and_eq_true, decide_eq_true_eq, List.mem_cons]
    constructor
    · rintro ⟨h1, h2⟩
      refine ⟨fun x hx => ?_, h2⟩
      rcases hx with rfl | hx
      · exact h1
      · exact Nat.lt_trans h1 (((ih (k', v')).1 h2).1 x hx)
    · rintro ⟨h1, h2⟩
      exact ⟨h1 (k', v') (Or.inl rfl), h2⟩

/-- Whatever is listed after a deletion was listed before. -/
theorem mem_tdel (t : Tbl α) (k : Nat) (e : Nat × α) (h : e ∈ tdel k t) : e ∈ t := by
  induction t with
  | nil => simp [tdel] at h
  | cons x r ih =>
    simp only [tdel] at h
    split at h
    · exact List.mem_cons_of_mem _ (ih h)
    · rcases List.mem_cons.1 h with rfl | h
      · exact List.mem_cons_self ..
      · exact List.mem_cons_of_mem _ (ih h)

/-- Whatever is listed after an insertion is the new entry or was listed before. -/
theorem mem_tins (t : Tbl α) (k : Nat) (v : α) (e : Nat × α) (h : e ∈ tins k v t) : e = (k, v) ∨ e ∈ t := by
  induction t with
  | nil => simpa [tins] using h
  | cons x r ih =>
    simp only [tins] at h
    split at h
    · rcases List.mem_cons.1 h with rfl | h
      · exact Or.inl rfl
      · exact Or.inr h
    · rcases List.mem_cons.1 h with rfl | h
      · exact Or.inr (List.mem_cons_self ..)
      · rcases ih h with h | h
        · exact Or.inl h
        · exact Or.inr (List.mem_cons_of_mem _ h)

/-- A deletion keeps the order. -/
theorem tsorted_tdel (t : Tbl α) (k : Nat) (h : tsorted t = true) : tsorted (tdel k t) = true := by
  induction t with
  | nil => rfl
  | cons x r ih =>
    have hx := (tsorted_cons x r).1 h
    simp only [tdel]
    split
    · exact ih hx.2
    · exact (tsorted_cons _ _).2 ⟨fun e he => hx.1 e (mem_tdel r k e he), ih hx.2⟩

/-- An insertion of a number that is not listed keeps the order. -/
theorem tsorted_tins (t : Tbl α) (k : Nat) (v : α) (h : tsorted t = true) (hk : ∀ e ∈ t, e.1 ≠ k) :
    tsorted (tins k v t) = true := by
  induction t with
  | nil => rfl
  | cons x r ih =>
    have hx := (tsorted_cons x r).1 h
    simp only [tins]
    split
    · rename_i hlt
      refine (tsorted_cons _ _).2 ⟨fun e he => ?_, h⟩
      rcases List.mem_cons.1 he with rfl | he
      · exact hlt
      · exact Nat.lt_trans hlt (hx.1 e he)
    · rename_i hge
      have hne : x.1 ≠ k := hk x (List.mem_cons_self ..)
      refine (tsorted_cons _ _).2 ⟨fun e he => ?_, ih hx.2 (fun e he => hk e (List.mem_cons_of_mem _ he))⟩
      rcases mem_tins r k v e he with rfl | he
      · show x.1 < k
        have : ¬ k < x.1 := hge
        omega
      · exact hx.1 e he

/-- A write keeps the canonical form. -/
theorem twf_tset [DecidableEq α] (d : α) (t : Tbl α) (k : Nat) (v : α) (h : twf d t = true) : twf d (tset d t k v) = true := by
  unfold twf at h ⊢
  simp only [Bool.and_eq_true, List.all_eq_true, decide_eq_true_eq] at h ⊢
  obtain ⟨hs, hv⟩ := h
  unfold tset
  split
  · exact ⟨tsorted_tdel t k hs, fun e he => hv e (mem_tdel t k e he)⟩
  · rename_i hne
    refine ⟨tsorted_tins _ k v (tsorted_tdel t k hs) (tdel_notin t k), fun e he => ?_⟩
    rcases mem_tins _ k v e he with rfl | he
    · exact hne
    · exact hv e (mem_tdel t k e he)

/-- Taking entries away keeps the order and what is listed. -/
theorem mem_tclear (p : Nat → Bool) (t : Tbl α) (e : Nat × α) (h : e ∈ tclear p t) : e ∈ t := by
  induction t with
  | nil => simp [tclear] at h
  | cons x r ih =>
    simp only [tclear] at h
    split at h
    · exact List.mem_cons_of_mem _ (ih h)
    · rcases List.mem_cons.1 h with rfl | h
      · exact List.mem_cons_self ..
      · exact List.mem_cons_of_mem _ (ih h)

/-- A table cleared under p reads the default there and as before elsewhere. -/
theorem tget_tclear (d : α) (p : Nat → Bool) (t : Tbl α) (k : Nat) : tget d (tclear p t) k = if p k then d else tget d t k := by
  induction t with
  | nil => simp [tclear, tget]
  | cons x r ih =>
    obtain ⟨k', v⟩ := x
    simp only [tclear]
    split
    · rename_i hp
      rw [ih]
      split
      · rfl
      · rename_i hk
        simp only [tget]
        rw [if_neg (fun c : k = k' => hk (by rw [c]; exact hp))]
    · rename_i hp
      simp only [tget]
      rw [ih]
      split
      · rename_i hkk
        subst hkk
        rw [if_neg (by simpa using hp)]
      · rfl

end Sys2Proof.Laws
end

