-- ==== Sys2Proof/Laws/Ops.lean ====
section
/-!
SUPPORT. Laws of register fields, counters, time and memory, and of the frames: what each shared operation leaves as it was.
-/
namespace Sys2Proof.Machine

open Sys2Proof.Laws

/-! ## Fields and counters -/

/-- A field reads what was written, cut to its width. -/
@[simp] theorem fld_setFld_same (s : State) (f : Fld) (v : Nat) : (s.setFld f v).fld f = v % 2 ^ f.w := by
  simp [State.fld, State.setFld]

/-- Writing a field leaves every field at another place. -/
theorem fld_setFld_other (s : State) (f g : Fld) (v : Nat) (h : g.key ≠ f.key) : (s.setFld f v).fld g = s.fld g := by
  simp only [State.fld, State.setFld]
  exact tget_tset_other _ _ _ _ _ _ h

@[simp] theorem cnt_setFld (s : State) (f : Fld) (v c : Nat) : (s.setFld f v).cnt c = s.cnt c := rfl
@[simp] theorem byte_setFld (s : State) (f : Fld) (v a : Nat) : (s.setFld f v).byte a = s.byte a := rfl
@[simp] theorem fld_account (s : State) (c n : Nat) (f : Fld) : (s.account c n).fld f = s.fld f := rfl
@[simp] theorem byte_account (s : State) (c n a : Nat) : (s.account c n).byte a = s.byte a := rfl
@[simp] theorem fld_setSnap (s : State) (rq : Requester) (a v : Nat) (f : Fld) : (s.setSnap rq a v).fld f = s.fld f := rfl
@[simp] theorem cnt_setSnap (s : State) (rq : Requester) (a v : Nat) (c : Nat) : (s.setSnap rq a v).cnt c = s.cnt c := rfl
@[simp] theorem byte_setSnap (s : State) (rq : Requester) (a v : Nat) (k : Nat) : (s.setSnap rq a v).byte k = s.byte k := rfl
@[simp] theorem fld_answer (s : State) (rq : Requester) (a v : Nat) (f : Fld) : (s.answer rq a v).fld f = s.fld f := rfl
@[simp] theorem cnt_answer (s : State) (rq : Requester) (a v : Nat) (c : Nat) : (s.answer rq a v).cnt c = s.cnt c := rfl
@[simp] theorem byte_answer (s : State) (rq : Requester) (a v : Nat) (k : Nat) : (s.answer rq a v).byte k = s.byte k := rfl
@[simp] theorem fld_freeNext (s : State) (f : Fld) : (s.freeNext).fld f = s.fld f := rfl
@[simp] theorem cnt_freeNext (s : State) (c : Nat) : (s.freeNext).cnt c = s.cnt c := rfl
@[simp] theorem byte_freeNext (s : State) (k : Nat) : (s.freeNext).byte k = s.byte k := rfl
@[simp] theorem fld_setVec (s : State) (v : Nat) (x : Vec) (f : Fld) : (s.setVec v x).fld f = s.fld f := rfl
@[simp] theorem cnt_setVec (s : State) (v : Nat) (x : Vec) (c : Nat) : (s.setVec v x).cnt c = s.cnt c := rfl
@[simp] theorem byte_setVec (s : State) (v : Nat) (x : Vec) (k : Nat) : (s.setVec v x).byte k = s.byte k := rfl
@[simp] theorem fld_send (s : State) (m : HostMsg) (f : Fld) : (s.send m).fld f = s.fld f := rfl
@[simp] theorem cnt_send (s : State) (m : HostMsg) (c : Nat) : (s.send m).cnt c = s.cnt c := rfl
@[simp] theorem byte_send (s : State) (m : HostMsg) (k : Nat) : (s.send m).byte k = s.byte k := rfl
@[simp] theorem fld_setStack (s : State) (t : Nat) (l : List (Nat × Nat)) (f : Fld) : (s.setStack t l).fld f = s.fld f := rfl
@[simp] theorem cnt_setStack (s : State) (t : Nat) (l : List (Nat × Nat)) (c : Nat) : (s.setStack t l).cnt c = s.cnt c := rfl
@[simp] theorem byte_setStack (s : State) (t : Nat) (l : List (Nat × Nat)) (k : Nat) : (s.setStack t l).byte k = s.byte k := rfl
@[simp] theorem fld_setLth (s : State) (n : Nat) (l : Lathe) (f : Fld) : (s.setLth n l).fld f = s.fld f := rfl
@[simp] theorem cnt_setLth (s : State) (n : Nat) (l : Lathe) (c : Nat) : (s.setLth n l).cnt c = s.cnt c := rfl
@[simp] theorem byte_setLth (s : State) (n : Nat) (l : Lathe) (k : Nat) : (s.setLth n l).byte k = s.byte k := rfl
@[simp] theorem fld_setStream (s : State) (n : Nat) (x : Stream) (f : Fld) : (s.setStream n x).fld f = s.fld f := rfl
@[simp] theorem cnt_setStream (s : State) (n : Nat) (x : Stream) (c : Nat) : (s.setStream n x).cnt c = s.cnt c := rfl
@[simp] theorem byte_setStream (s : State) (n : Nat) (x : Stream) (k : Nat) : (s.setStream n x).byte k = s.byte k := rfl
@[simp] theorem fld_setDrv (s : State) (n : Nat) (d : Drv) (f : Fld) : (s.setDrv n d).fld f = s.fld f := rfl
@[simp] theorem cnt_setDrv (s : State) (n : Nat) (d : Drv) (c : Nat) : (s.setDrv n d).cnt c = s.cnt c := rfl
@[simp] theorem byte_setDrv (s : State) (n : Nat) (d : Drv) (k : Nat) : (s.setDrv n d).byte k = s.byte k := rfl
@[simp] theorem fld_setCv (s : State) (n : Nat) (x : Canvas) (f : Fld) : (s.setCv n x).fld f = s.fld f := rfl
@[simp] theorem cnt_setCv (s : State) (n : Nat) (x : Canvas) (c : Nat) : (s.setCv n x).cnt c = s.cnt c := rfl
@[simp] theorem byte_setCv (s : State) (n : Nat) (x : Canvas) (k : Nat) : (s.setCv n x).byte k = s.byte k := rfl
@[simp] theorem fld_setHead (s : State) (n : Nat) (x : Head) (f : Fld) : (s.setHead n x).fld f = s.fld f := rfl
@[simp] theorem cnt_setHead (s : State) (n : Nat) (x : Head) (c : Nat) : (s.setHead n x).cnt c = s.cnt c := rfl
@[simp] theorem byte_setHead (s : State) (n : Nat) (x : Head) (k : Nat) : (s.setHead n x).byte k = s.byte k := rfl
@[simp] theorem fld_setHq (s : State) (n : Nat) (x : HQueue) (f : Fld) : (s.setHq n x).fld f = s.fld f := rfl
@[simp] theorem cnt_setHq (s : State) (n : Nat) (x : HQueue) (c : Nat) : (s.setHq n x).cnt c = s.cnt c := rfl
@[simp] theorem byte_setHq (s : State) (n : Nat) (x : HQueue) (k : Nat) : (s.setHq n x).byte k = s.byte k := rfl
@[simp] theorem fld_setCmd (s : State) (n : Nat) (x : Option HCmd) (f : Fld) : (s.setCmd n x).fld f = s.fld f := rfl
@[simp] theorem cnt_setCmd (s : State) (n : Nat) (x : Option HCmd) (c : Nat) : (s.setCmd n x).cnt c = s.cnt c := rfl
@[simp] theorem byte_setCmd (s : State) (n : Nat) (x : Option HCmd) (k : Nat) : (s.setCmd n x).byte k = s.byte k := rfl

/-- Counting counts, unless the unit's counters are frozen. -/
theorem cnt_bump_same (s : State) (c n : Nat) (h : s.on (freezeOf c) = false) :
    (s.bump c n).cnt c = (s.cnt c + n) % 2 ^ 64 := by
  simp [State.bump, h, State.cnt]

/-- Counting leaves every other counter. -/
theorem cnt_bump_other (s : State) (c n d : Nat) (h : d ≠ c) : (s.bump c n).cnt d = s.cnt d := by
  unfold State.bump
  split
  · rfl
  · simp only [State.cnt]
    exact tget_tset_other _ _ _ _ _ _ h

@[simp] theorem fld_bump (s : State) (c n : Nat) (f : Fld) : (s.bump c n).fld f = s.fld f := by
  unfold State.bump
  split <;> rfl

@[simp] theorem byte_bump (s : State) (c n a : Nat) : (s.bump c n).byte a = s.byte a := by
  unfold State.bump
  split <;> rfl

@[simp] theorem fld_at (s : State) (n : Nat) (f : Fld) : (s.at n).fld f = s.fld f := by
  unfold State.at
  split <;> rfl

@[simp] theorem cnt_at (s : State) (n c : Nat) : (s.at n).cnt c = s.cnt c := by
  unfold State.at
  split <;> rfl

@[simp] theorem byte_at (s : State) (n a : Nat) : (s.at n).byte a = s.byte a := by
  unfold State.at
  split <;> rfl

/-- The event happens at `now`, or at the present time where that is past (R37). -/
@[simp] theorem time_at (s : State) (n : Nat) : (s.at n).time = max s.time n := by
  unfold State.at
  split
  · show n = max s.time n
    omega
  · omega

@[simp] theorem at_part (s : State) (n : Nat) : (s.at n).part = s.part := by
  unfold State.at
  split <;> rfl
@[simp] theorem at_flds (s : State) (n : Nat) : (s.at n).flds = s.flds := by
  unfold State.at
  split <;> rfl
@[simp] theorem at_cnts (s : State) (n : Nat) : (s.at n).cnts = s.cnts := by
  unfold State.at
  split <;> rfl
@[simp] theorem at_resp (s : State) (n : Nat) : (s.at n).resp = s.resp := by
  unfold State.at
  split <;> rfl
@[simp] theorem at_snaps (s : State) (n : Nat) : (s.at n).snaps = s.snaps := by
  unfold State.at
  split <;> rfl
@[simp] theorem at_restore (s : State) (n : Nat) : (s.at n).restore = s.restore := by
  unfold State.at
  split <;> rfl
@[simp] theorem at_flt (s : State) (n : Nat) : (s.at n).flt = s.flt := by
  unfold State.at
  split <;> rfl
@[simp] theorem at_evm (s : State) (n : Nat) : (s.at n).evm = s.evm := by
  unfold State.at
  split <;> rfl
@[simp] theorem at_nests (s : State) (n : Nat) : (s.at n).nests = s.nests := by
  unfold State.at
  split <;> rfl
@[simp] theorem at_vecs (s : State) (n : Nat) : (s.at n).vecs = s.vecs := by
  unfold State.at
  split <;> rfl
@[simp] theorem at_toHost (s : State) (n : Nat) : (s.at n).toHost = s.toHost := by
  unfold State.at
  split <;> rfl
@[simp] theorem at_pmeEn (s : State) (n : Nat) : (s.at n).pmeEn = s.pmeEn := by
  unfold State.at
  split <;> rfl
@[simp] theorem at_pmeStatus (s : State) (n : Nat) : (s.at n).pmeStatus = s.pmeStatus := by
  unfold State.at
  split <;> rfl
@[simp] theorem at_ldg (s : State) (n : Nat) : (s.at n).ldg = s.ldg := by
  unfold State.at
  split <;> rfl
@[simp] theorem at_dram (s : State) (n : Nat) : (s.at n).dram = s.dram := by
  unfold State.at
  split <;> rfl
@[simp] theorem at_lathes (s : State) (n : Nat) : (s.at n).lathes = s.lathes := by
  unfold State.at
  split <;> rfl
@[simp] theorem at_disps (s : State) (n : Nat) : (s.at n).disps = s.disps := by
  unfold State.at
  split <;> rfl
@[simp] theorem at_dispTag (s : State) (n : Nat) : (s.at n).dispTag = s.dispTag := by
  unfold State.at
  split <;> rfl
@[simp] theorem at_progress (s : State) (n : Nat) : (s.at n).progress = s.progress := by
  unfold State.at
  split <;> rfl
@[simp] theorem at_blks (s : State) (n : Nat) : (s.at n).blks = s.blks := by
  unfold State.at
  split <;> rfl
@[simp] theorem at_manifests (s : State) (n : Nat) : (s.at n).manifests = s.manifests := by
  unfold State.at
  split <;> rfl
@[simp] theorem at_streams (s : State) (n : Nat) : (s.at n).streams = s.streams := by
  unfold State.at
  split <;> rfl
@[simp] theorem at_canvases (s : State) (n : Nat) : (s.at n).canvases = s.canvases := by
  unfold State.at
  split <;> rfl
@[simp] theorem at_ovrSets (s : State) (n : Nat) : (s.at n).ovrSets = s.ovrSets := by
  unfold State.at
  split <;> rfl
@[simp] theorem at_heads (s : State) (n : Nat) : (s.at n).heads = s.heads := by
  unfold State.at
  split <;> rfl
@[simp] theorem at_coop (s : State) (n : Nat) : (s.at n).coop = s.coop := by
  unfold State.at
  split <;> rfl
@[simp] theorem at_drvs (s : State) (n : Nat) : (s.at n).drvs = s.drvs := by
  unfold State.at
  split <;> rfl
@[simp] theorem at_bars (s : State) (n : Nat) : (s.at n).bars = s.bars := by
  unfold State.at
  split <;> rfl
@[simp] theorem at_perst (s : State) (n : Nat) : (s.at n).perst = s.perst := by
  unfold State.at
  split <;> rfl
@[simp] theorem at_wakes (s : State) (n : Nat) : (s.at n).wakes = s.wakes := by
  unfold State.at
  split <;> rfl
@[simp] theorem at_hqs (s : State) (n : Nat) : (s.at n).hqs = s.hqs := by
  unfold State.at
  split <;> rfl
@[simp] theorem at_cmds (s : State) (n : Nat) : (s.at n).cmds = s.cmds := by
  unfold State.at
  split <;> rfl
@[simp] theorem at_toRing (s : State) (n : Nat) : (s.at n).toRing = s.toRing := by
  unfold State.at
  split <;> rfl
@[simp] theorem at_life (s : State) (n : Nat) : (s.at n).life = s.life := by
  unfold State.at
  split <;> rfl
@[simp] theorem at_shp (s : State) (n : Nat) : (s.at n).shp = s.shp := by
  unfold State.at
  split <;> rfl
@[simp] theorem at_heap (s : State) (n : Nat) : (s.at n).heap = s.heap := by
  unfold State.at
  split <;> rfl
@[simp] theorem at_pending (s : State) (n : Nat) : (s.at n).pending = s.pending := by
  unfold State.at
  split <;> rfl
@[simp] theorem at_freeCtr (s : State) (n : Nat) : (s.at n).freeCtr = s.freeCtr := by
  unfold State.at
  split <;> rfl

end Sys2Proof.Machine
end

