-- ==== Sys2Proof/Laws/Dram.lean ====
section
/-!
SUPPORT. Laws of device DRAM: what a byte reads after a store, and that every store keeps memory in its canonical form.
-/
namespace Sys2Proof.Machine

open Sys2Proof.Laws

/-- A byte stored below the usable size reads back; another byte is as before. -/
theorem byte_setByte (s : State) (a k : Nat) (x : BitVec 8) :
    (s.setByte a x).byte k = if a < partUsable s.part ∧ k = a then x else s.byte k := by
  unfold State.setByte
  split
  · rename_i h
    simp only [State.byte, h, true_and]
    exact tget_tset ..
  · rename_i h
    simp [h]

@[simp] theorem part_setByte (s : State) (a : Nat) (x : BitVec 8) : (s.setByte a x).part = s.part := by
  unfold State.setByte
  split <;> rfl

/-- Bytes outside the stored range are as before. -/
theorem byte_setBytes_outside (s : State) (a k : Nat) (l : List Nat) (h : k < a ∨ a + l.length ≤ k) :
    (s.setBytes a l).byte k = s.byte k := by
  induction l generalizing s a with
  | nil => rfl
  | cons x r ih =>
    simp only [State.setBytes]
    simp only [List.length_cons] at h
    rw [ih _ _ (by omega), byte_setByte, if_neg (by omega)]

@[simp] theorem part_setBytes (s : State) (a : Nat) (l : List Nat) : (s.setBytes a l).part = s.part := by
  induction l generalizing s a with
  | nil => rfl
  | cons x r ih =>
    simp only [State.setBytes]
    rw [ih, part_setByte]

/-- The i-th byte of a stored range reads back, below the usable size. -/
theorem byte_setBytes_inside (s : State) (a : Nat) (l : List Nat) (i : Nat) (hi : i < l.length)
    (ha : a + i < partUsable s.part) : (s.setBytes a l).byte (a + i) = BitVec.ofNat 8 l[i] := by
  induction l generalizing s a i with
  | nil => simp at hi
  | cons x r ih =>
    simp only [State.setBytes]
    cases i with
    | zero =>
      rw [byte_setBytes_outside _ _ _ _ (by omega), byte_setByte, if_pos (by simpa using ha)]
      rfl
    | succ j =>
      have := ih (s.setByte a (BitVec.ofNat 8 x)) (a + 1) j (by simpa using hi) (by rw [part_setByte]; omega)
      rw [show a + (j + 1) = a + 1 + j by omega]
      simpa using this

/-- A store keeps memory canonical. -/
theorem memOk_setByte (s : State) (a : Nat) (x : BitVec 8) (h : s.memOk = true) : (s.setByte a x).memOk = true := by
  unfold State.setByte
  split
  · exact twf_tset _ _ _ _ h
  · exact h

/-- Stores keep memory canonical. -/
theorem memOk_setBytes (s : State) (a : Nat) (l : List Nat) (h : s.memOk = true) : (s.setBytes a l).memOk = true := by
  induction l generalizing s a with
  | nil => exact h
  | cons x r ih => exact ih _ _ (memOk_setByte s a _ h)

/-- A wiped memory is canonical. -/
theorem memOk_wipeDram (s : State) : s.wipeDram.memOk = true := rfl

/-- A state with the same memory has it in the same form. -/
theorem memOk_of_mem {s t : State} (e : t.dram.mem = s.dram.mem) (h : s.memOk = true) : t.memOk = true := by
  unfold State.memOk at *
  rw [e]
  exact h

end Sys2Proof.Machine
end

