-- ==== Sys2Proof/Laws/Frame.lean ====
section
/-!
SUPPORT. Frames of the shared operations: one lemma for each says that it changes its own field or counter and what events and faults
reach, and nothing else.
-/
namespace Sys2Proof.Machine

open Sys2Proof.Laws

variable {b s : State} {fs : List Fld} {cs : List Nat}

/-! ## Registers only -/

theorem OnlyRegs.refl (s : State) (fs : List Fld) (cs : List Nat) : OnlyRegs s s fs cs := ⟨fun _ _ => rfl, fun _ _ => rfl, rfl⟩

theorem OnlyRegs.setFld (h : OnlyRegs b s fs cs) (f : Fld) (v : Nat) (hf : f ∈ fs) : OnlyRegs b (s.setFld f v) fs cs :=
  ⟨fun g hg => by rw [fld_setFld_other s f g v (hg f hf)]; exact h.flds g hg, h.cnts, h.rest⟩

theorem OnlyRegs.bump (h : OnlyRegs b s fs cs) (c n : Nat) (hc : c ∈ cs) : OnlyRegs b (s.bump c n) fs cs := by
  refine ⟨fun g hg => by rw [fld_bump]; exact h.flds g hg, fun d hd => ?_, ?_⟩
  · rw [cnt_bump_other s c n d (fun e => hd (e ▸ hc))]
    exact h.cnts d hd
  · rw [← h.rest]
    unfold State.bump
    split <;> rfl

theorem OnlyRegs.account (h : OnlyRegs b s fs cs) (c n : Nat) (hc : c ∈ cs) : OnlyRegs b (s.account c n) fs cs := by
  refine ⟨fun g hg => h.flds g hg, fun d hd => ?_, h.rest⟩
  have hne : d ≠ c := fun e => hd (e ▸ hc)
  rw [← h.cnts d hd]
  exact tget_tset_other _ _ _ _ _ _ hne

theorem OnlyRegs.setFlds (h : OnlyRegs b s fs cs) (l : List (Fld × Nat)) (hl : ∀ e ∈ l, e.1 ∈ fs) : OnlyRegs b (s.setFlds l) fs cs := by
  induction l generalizing s with
  | nil => exact h
  | cons e r ih =>
    obtain ⟨f, v⟩ := e
    exact ih (h.setFld f v (hl (f, v) (List.mem_cons_self ..))) (fun x hx => hl x (List.mem_cons_of_mem _ hx))

/-! ## With events and faults -/

theorem Frame.refl (s : State) (fs : List Fld) (cs : List Nat) : Frame s s fs cs := ⟨fun _ _ _ => rfl, fun _ _ _ => rfl, rfl⟩

theorem Frame.trans {t : State} (h : Frame b s fs cs) (k : Frame s t fs cs) : Frame b t fs cs :=
  ⟨fun g h1 h2 => (k.flds g h1 h2).trans (h.flds g h1 h2), fun c h1 h2 => (k.cnts c h1 h2).trans (h.cnts c h1 h2), k.body.trans h.body⟩

theorem Frame.weaken {fs' : List Fld} {cs' : List Nat} (h : Frame b s fs cs) (hf : ∀ f ∈ fs, f ∈ fs') (hc : ∀ c ∈ cs, c ∈ cs') :
    Frame b s fs' cs' :=
  ⟨fun g h1 h2 => h.flds g h1 (fun f hm => h2 f (hf f hm)), fun c h1 h2 => h.cnts c h1 (fun hm => h2 (hc c hm)), h.body⟩

theorem OnlyRegs.frame (h : OnlyRegs b s fs cs) : Frame b s fs cs :=
  ⟨fun g _ hg => h.flds g hg, fun c _ hc => h.cnts c hc, by
    have e := congrArg State.body h.rest
    exact e⟩

theorem Frame.setFld (h : Frame b s fs cs) (f : Fld) (v : Nat) (hf : f ∈ fs ∨ eventField f.key = true) :
    Frame b (s.setFld f v) fs cs := by
  refine ⟨fun g h1 h2 => ?_, h.cnts, h.body⟩
  have hne : g.key ≠ f.key := by
    rcases hf with hf | hf
    · exact h2 f hf
    · intro e
      rw [e, hf] at h1
      exact Bool.noConfusion h1
  rw [fld_setFld_other s f g v hne]
  exact h.flds g h1 h2

theorem body_bump (s : State) (c n : Nat) : (s.bump c n).body = s.body := by
  unfold State.bump
  split <;> rfl

theorem Frame.bump (h : Frame b s fs cs) (c n : Nat) (hc : c ∈ cs ∨ eventCnt c = true) : Frame b (s.bump c n) fs cs := by
  refine ⟨fun g h1 h2 => by rw [fld_bump]; exact h.flds g h1 h2, fun d h1 h2 => ?_, by rw [body_bump]; exact h.body⟩
  have hne : d ≠ c := by
    rcases hc with hc | hc
    · exact fun e => h2 (e ▸ hc)
    · intro e
      rw [e, hc] at h1
      exact Bool.noConfusion h1
  rw [cnt_bump_other s c n d hne]
  exact h.cnts d h1 h2

/-- A change of what events and faults reach only. -/
theorem Frame.ev (h : Frame b s fs cs) {t : State} (h1 : t.flds = s.flds) (h2 : t.cnts = s.cnts) (h3 : t.body = s.body) :
    Frame b t fs cs :=
  ⟨fun g a c => by rw [← h.flds g a c]; unfold State.fld; rw [h1], fun c a d => by rw [← h.cnts c a d]; unfold State.cnt; rw [h2],
   h3.trans h.body⟩

theorem Frame.vecDue (h : Frame b s fs cs) (v : Nat) : Frame b (s.vecDue v) fs cs := by
  unfold State.vecDue
  split
  · dsimp only
    split
    · refine Frame.bump ?_ _ _ (Or.inr rfl)
      exact Frame.ev h rfl rfl rfl
    · exact Frame.ev h rfl rfl rfl
  · split
    · exact Frame.ev h rfl rfl rfl
    · refine Frame.bump ?_ _ _ (Or.inr rfl)
      exact Frame.ev h rfl rfl rfl

theorem Frame.vecEvent (h : Frame b s fs cs) (v : Nat) : Frame b (s.vecEvent v) fs cs := by
  unfold State.vecEvent
  dsimp only
  split
  · refine Frame.vecDue ?_ v
    exact Frame.ev h rfl rfl rfl
  · exact Frame.ev h rfl rfl rfl

theorem Frame.thEvent (h : Frame b s fs cs) (x : Nat) : Frame b (s.thEvent x) fs cs := by
  unfold State.thEvent
  split
  · exact h
  · exact Frame.vecEvent (h.bump _ _ (Or.inr rfl)) _

/-- The state of a Bellwether source is an event's field. -/
theorem eventField_bst (x : Nat) (hx : x < 1024) : eventField (Reg.BWT_SRC_CFG_STATE x).key = true := by
  have h1 : (Reg.BWT_SRC_CFG_STATE x).key / 32 / 0x10000 = 4 := by
    simp only [Fld.key, Reg.BWT_SRC_CFG_STATE]
    omega
  simp [eventField, h1]

theorem Frame.bwtPend (h : Frame b s fs cs) (x : Nat) (hx : x < 1024) : Frame b (s.bwtPend x) fs cs := by
  unfold State.bwtPend
  dsimp only
  split
  · exact Frame.thEvent (h.setFld _ _ (Or.inr (eventField_bst x hx))) x
  · exact h.setFld _ _ (Or.inr (eventField_bst x hx))

theorem Frame.bwtPulse (h : Frame b s fs cs) (x : Nat) (hx : x < 1024) : Frame b (s.bwtPulse x) fs cs := by
  unfold State.bwtPulse
  split
  · exact h.bwtPend x hx
  · split
    · exact h.setFld _ _ (Or.inr (eventField_bst x hx))
    · exact h.bump _ _ (Or.inr rfl)

theorem Frame.sinkOut (h : Frame b s fs cs) (k : Nat) : Frame b (s.sinkOut k) fs cs := by
  unfold State.sinkOut
  split
  · exact h.bwtPulse k (by omega)
  · split
    · split
      · exact Frame.ev h rfl rfl rfl
      · exact h
    · split
      · exact Frame.ev h rfl rfl rfl
      · exact Frame.ev h rfl rfl rfl

theorem Frame.sinkIn (h : Frame b s fs cs) (x k : Nat) : Frame b (s.sinkIn x k) fs cs := by
  unfold State.sinkIn
  split
  · dsimp only
    split
    · refine Frame.sinkOut ?_ k
      exact Frame.ev h rfl rfl rfl
    · exact Frame.ev h rfl rfl rfl
  · exact h

theorem Frame.sinksIn (l : List Nat) (h : Frame b s fs cs) (x : Nat) : Frame b (s.sinksIn x l) fs cs := by
  induction l generalizing s with
  | nil => exact h
  | cons k r ih => exact ih (h.sinkIn x k)

/-- A pulse changes what events reach, and nothing else. -/
theorem Frame.pulse (h : Frame b s fs cs) (x : Nat) : Frame b (s.pulse x) fs cs := by
  unfold State.pulse
  split
  · refine Frame.sinksIn _ ?_ x
    exact Frame.ev h rfl rfl rfl
  · exact h

theorem Frame.pulses (l : List Nat) (h : Frame b s fs cs) : Frame b (s.pulses l) fs cs := by
  induction l generalizing s with
  | nil => exact h
  | cons x r ih => exact ih (h.pulse x)

theorem Frame.toMode (h : Frame b s fs cs) (m r : Nat) : Frame b (s.toMode m r) fs cs := by
  unfold State.toMode
  exact ((h.setFld _ _ (Or.inr rfl)).setFld _ _ (Or.inr rfl)).setFld _ _ (Or.inr rfl)

theorem Frame.enterHold (h : Frame b s fs cs) (k : Nat) : Frame b (s.enterHold k) fs cs := by
  unfold State.enterHold
  split
  · exact h.toMode _ _
  · exact h

theorem Frame.logFault (h : Frame b s fs cs) (k : Nat) (i : Bool) : Frame b (s.logFault k i) fs cs := by
  unfold State.logFault
  dsimp only
  split
  · exact Frame.ev (h.setFld Reg.FLT_STATUS_LOG_WRAPPED 1 (Or.inr rfl)) rfl rfl rfl
  · exact Frame.ev h rfl rfl rfl

/-- A source that exists has a number below 378. -/
theorem faultPresent_lt {p : Part} {k : Nat} (h : faultPresent p k = true) : k < 378 := by
  refine Nat.lt_of_not_le (fun hk => ?_)
  have hn : faultClass k = none := by
    unfold faultClass
    repeat rw [if_neg (by omega)]
  simp [faultPresent, hn] at h

theorem Frame.react (h : Frame b s fs cs) (k : Nat) (i : Bool) (hk : k < 378) : Frame b (s.react k i) fs cs := by
  unfold State.react
  have h1 := (h.bump Cnt.FLT_SETS 1 (Or.inr rfl)).logFault k i
  generalize (s.bump Cnt.FLT_SETS).logFault k i = q at h1 ⊢
  have h2 : Frame b { q with flt := { q.flt with sticky := tset false q.flt.sticky k true } } fs cs := Frame.ev h1 rfl rfl rfl
  dsimp only at h2 ⊢
  generalize ({ q with flt := { q.flt with sticky := tset false q.flt.sticky k true } } : State) = w at h2 ⊢
  split <;> split
  · exact (h2.bwtPulse _ (by omega)).enterHold k
  · exact h2.bwtPulse _ (by omega)
  · exact h2.enterHold k
  · exact h2

/-- An edge at the collector changes what faults reach, and nothing else. -/
theorem Frame.faultEdge (h : Frame b s fs cs) (k : Nat) (i : Bool) : Frame b (s.faultEdge k i) fs cs := by
  unfold State.faultEdge
  split
  · rename_i hp
    split
    · refine Frame.bump ?_ _ _ (Or.inr rfl)
      exact Frame.ev h rfl rfl rfl
    · exact h.react k i (faultPresent_lt hp)
  · exact h

/-- A unit's fault changes its own register, and what faults reach. -/
theorem Frame.raise (h : Frame b s fs cs) (k : Nat) (f : Fld) (m : Nat) (i : Bool) (hf : f ∈ fs ∨ eventField f.key = true) :
    Frame b (s.raise k f m i) fs cs := by
  unfold State.raise State.orFld
  split
  · exact h.setFld _ _ hf
  · exact (h.setFld _ _ hf).faultEdge k i

theorem Frame.note (h : Frame b s fs cs) (k : Nat) : Frame b (s.note k) fs cs := by
  unfold State.note
  split
  · exact h
  · exact h.faultEdge k false

theorem Frame.level (h : Frame b s fs cs) (k : Nat) (x : Bool) : Frame b (s.level k x) fs cs := by
  unfold State.level
  dsimp only
  split
  · refine Frame.faultEdge ?_ k false
    exact Frame.ev h rfl rfl rfl
  · exact Frame.ev h rfl rfl rfl

theorem Frame.status (h : Frame b s fs cs) (k : Nat) (f : Fld) (v : Nat) (hf : f ∈ fs ∨ eventField f.key = true) :
    Frame b (s.status k f v) fs cs := by
  unfold State.status
  dsimp only
  split
  · exact (h.setFld _ _ hf).faultEdge k false
  · exact h.setFld _ _ hf

theorem Frame.account (h : Frame b s fs cs) (c n : Nat) (hc : c ∈ cs) : Frame b (s.account c n) fs cs := by
  refine ⟨h.flds, fun d h1 h2 => ?_, h.body⟩
  have hne : d ≠ c := fun e => h2 (e ▸ hc)
  rw [← h.cnts d h1 h2]
  exact tget_tset_other _ _ _ _ _ _ hne

theorem Frame.setFlds (h : Frame b s fs cs) (l : List (Fld × Nat)) (hl : ∀ e ∈ l, e.1 ∈ fs) : Frame b (s.setFlds l) fs cs := by
  induction l generalizing s with
  | nil => exact h
  | cons e r ih =>
    obtain ⟨f, v⟩ := e
    exact ih (h.setFld f v (Or.inl (hl (f, v) (List.mem_cons_self ..)))) (fun x hx => hl x (List.mem_cons_of_mem _ hx))

/-! ## What a frame says of each field -/

theorem Frame.part_eq {t : State} (h : Frame b t fs cs) : t.part = b.part := by
  have e := congrArg State.part h.body
  exact e
theorem Frame.time_eq {t : State} (h : Frame b t fs cs) : t.time = b.time := by
  have e := congrArg State.time h.body
  exact e
theorem Frame.ptpNs_eq {t : State} (h : Frame b t fs cs) : t.ptpNs = b.ptpNs := by
  have e := congrArg State.ptpNs h.body
  exact e
theorem Frame.freeCtr_eq {t : State} (h : Frame b t fs cs) : t.freeCtr = b.freeCtr := by
  have e := congrArg State.freeCtr h.body
  exact e
theorem Frame.resp_eq {t : State} (h : Frame b t fs cs) : t.resp = b.resp := by
  have e := congrArg State.resp h.body
  exact e
theorem Frame.snaps_eq {t : State} (h : Frame b t fs cs) : t.snaps = b.snaps := by
  have e := congrArg State.snaps h.body
  exact e
theorem Frame.restore_eq {t : State} (h : Frame b t fs cs) : t.restore = b.restore := by
  have e := congrArg State.restore h.body
  exact e
theorem Frame.nests_eq {t : State} (h : Frame b t fs cs) : t.nests = b.nests := by
  have e := congrArg State.nests h.body
  exact e
theorem Frame.pmeEn_eq {t : State} (h : Frame b t fs cs) : t.pmeEn = b.pmeEn := by
  have e := congrArg State.pmeEn h.body
  exact e
theorem Frame.ldg_eq {t : State} (h : Frame b t fs cs) : t.ldg = b.ldg := by
  have e := congrArg State.ldg h.body
  exact e
theorem Frame.dram_eq {t : State} (h : Frame b t fs cs) : t.dram = b.dram := by
  have e := congrArg State.dram h.body
  exact e
theorem Frame.lathes_eq {t : State} (h : Frame b t fs cs) : t.lathes = b.lathes := by
  have e := congrArg State.lathes h.body
  exact e
theorem Frame.disps_eq {t : State} (h : Frame b t fs cs) : t.disps = b.disps := by
  have e := congrArg State.disps h.body
  exact e
theorem Frame.dispTag_eq {t : State} (h : Frame b t fs cs) : t.dispTag = b.dispTag := by
  have e := congrArg State.dispTag h.body
  exact e
theorem Frame.progress_eq {t : State} (h : Frame b t fs cs) : t.progress = b.progress := by
  have e := congrArg State.progress h.body
  exact e
theorem Frame.blks_eq {t : State} (h : Frame b t fs cs) : t.blks = b.blks := by
  have e := congrArg State.blks h.body
  exact e
theorem Frame.manifests_eq {t : State} (h : Frame b t fs cs) : t.manifests = b.manifests := by
  have e := congrArg State.manifests h.body
  exact e
theorem Frame.streams_eq {t : State} (h : Frame b t fs cs) : t.streams = b.streams := by
  have e := congrArg State.streams h.body
  exact e
theorem Frame.canvases_eq {t : State} (h : Frame b t fs cs) : t.canvases = b.canvases := by
  have e := congrArg State.canvases h.body
  exact e
theorem Frame.ovrSets_eq {t : State} (h : Frame b t fs cs) : t.ovrSets = b.ovrSets := by
  have e := congrArg State.ovrSets h.body
  exact e
theorem Frame.heads_eq {t : State} (h : Frame b t fs cs) : t.heads = b.heads := by
  have e := congrArg State.heads h.body
  exact e
theorem Frame.coop_eq {t : State} (h : Frame b t fs cs) : t.coop = b.coop := by
  have e := congrArg State.coop h.body
  exact e
theorem Frame.drvs_eq {t : State} (h : Frame b t fs cs) : t.drvs = b.drvs := by
  have e := congrArg State.drvs h.body
  exact e
theorem Frame.bars_eq {t : State} (h : Frame b t fs cs) : t.bars = b.bars := by
  have e := congrArg State.bars h.body
  exact e
theorem Frame.perst_eq {t : State} (h : Frame b t fs cs) : t.perst = b.perst := by
  have e := congrArg State.perst h.body
  exact e
theorem Frame.wakes_eq {t : State} (h : Frame b t fs cs) : t.wakes = b.wakes := by
  have e := congrArg State.wakes h.body
  exact e
theorem Frame.hqs_eq {t : State} (h : Frame b t fs cs) : t.hqs = b.hqs := by
  have e := congrArg State.hqs h.body
  exact e
theorem Frame.cmds_eq {t : State} (h : Frame b t fs cs) : t.cmds = b.cmds := by
  have e := congrArg State.cmds h.body
  exact e
theorem Frame.toRing_eq {t : State} (h : Frame b t fs cs) : t.toRing = b.toRing := by
  have e := congrArg State.toRing h.body
  exact e
theorem Frame.ring_eq {t : State} (h : Frame b t fs cs) : t.ring = b.ring := by
  have e := congrArg State.ring h.body
  exact e
theorem Frame.life_eq {t : State} (h : Frame b t fs cs) : t.life = b.life := by
  have e := congrArg State.life h.body
  exact e
theorem Frame.shp_eq {t : State} (h : Frame b t fs cs) : t.shp = b.shp := by
  have e := congrArg State.shp h.body
  exact e
theorem Frame.heap_eq {t : State} (h : Frame b t fs cs) : t.heap = b.heap := by
  have e := congrArg State.heap h.body
  exact e
theorem Frame.pending_eq {t : State} (h : Frame b t fs cs) : t.pending = b.pending := by
  have e := congrArg State.pending h.body
  exact e

end Sys2Proof.Machine
end

