-- ==== Sys2Proof/Laws/Faults.lean ====
section
/-!
SUPPORT. Laws of the fault collector (R419 to R422): what an edge leaves in the sticky bits, the counts and the log.
-/
namespace Sys2Proof.Machine

open Sys2Proof.Laws

@[simp] theorem flt_bump (s : State) (c n : Nat) : (s.bump c n).flt = s.flt := by
  unfold State.bump
  split <;> rfl

@[simp] theorem flt_toMode (s : State) (m r : Nat) : (s.toMode m r).flt = s.flt := rfl

@[simp] theorem flt_enterHold (s : State) (k : Nat) : (s.enterHold k).flt = s.flt := by
  unfold State.enterHold
  split <;> rfl

@[simp] theorem flt_vecDue (s : State) (v : Nat) : (s.vecDue v).flt = s.flt := by
  unfold State.vecDue
  dsimp only
  split
  · split
    · rw [flt_bump]
      rfl
    · rfl
  · split
    · rfl
    · rw [flt_bump]
      rfl

@[simp] theorem flt_vecEvent (s : State) (v : Nat) : (s.vecEvent v).flt = s.flt := by
  unfold State.vecEvent
  dsimp only
  split
  · rw [flt_vecDue]
    rfl
  · rfl

@[simp] theorem flt_thEvent (s : State) (x : Nat) : (s.thEvent x).flt = s.flt := by
  unfold State.thEvent
  split
  · rfl
  · rw [flt_vecEvent, flt_bump]

@[simp] theorem flt_bwtPend (s : State) (x : Nat) : (s.bwtPend x).flt = s.flt := by
  unfold State.bwtPend
  dsimp only
  split
  · rw [flt_thEvent]
    rfl
  · rfl

@[simp] theorem flt_bwtPulse (s : State) (x : Nat) : (s.bwtPulse x).flt = s.flt := by
  unfold State.bwtPulse
  split
  · rw [flt_bwtPend]
  · split
    · rfl
    · rw [flt_bump]

/-- The entry that a new fault writes to the log (R422). -/
def newEnt (s : State) (k : Nat) (i : Bool) : LogEnt := ⟨k, (faultClass k).getD 0, s.fltBroken k, i, s.time % 2 ^ 32, true, true⟩

/-- The log after an entry is written. -/
theorem flt_logFault (s : State) (k : Nat) (i : Bool) :
    (s.logFault k i).flt = { s.flt with log := tset logEnt0 s.flt.log s.flt.logWr (newEnt s k i), logWr := (s.flt.logWr + 1) % 64,
                                        flash := s.flt.flash ++ [.fault (newEnt s k i)] } := by
  unfold State.logFault
  dsimp only
  split <;> rfl

@[simp] theorem time_bump (s : State) (c n : Nat) : (s.bump c n).time = s.time := by
  unfold State.bump
  split <;> rfl

@[simp] theorem part_bump (s : State) (c n : Nat) : (s.bump c n).part = s.part := by
  unfold State.bump
  split <;> rfl

/-- The collector after a sticky bit goes from 0 to 1 (R419). -/
theorem flt_react (s : State) (k : Nat) (i : Bool) :
    (s.react k i).flt = { s.flt with
      log := tset logEnt0 s.flt.log s.flt.logWr (newEnt s k i), logWr := (s.flt.logWr + 1) % 64,
      flash := s.flt.flash ++ [.fault (newEnt s k i)], sticky := tset false s.flt.sticky k true } := by
  have e : newEnt (s.bump Cnt.FLT_SETS) k i = newEnt s k i := by
    simp [newEnt, State.fltBroken]
  unfold State.react
  dsimp only
  split <;> split <;> simp [flt_logFault, e]

/-- An edge sets its source's sticky bit and no other (R419). -/
theorem fltSticky_faultEdge (s : State) (k j : Nat) (i : Bool) :
    (s.faultEdge k i).fltSticky j = if j = k ∧ faultPresent s.part k = true then true else s.fltSticky j := by
  unfold State.faultEdge
  by_cases hp : faultPresent s.part k = true
  · rw [if_pos hp]
    by_cases hs : s.fltSticky k = true
    · rw [if_pos hs]
      simp only [State.fltSticky, flt_bump, hp, and_true]
      split
      · rename_i h
        rw [h]
        exact hs
      · rfl
    · rw [if_neg hs]
      simp only [State.fltSticky, flt_react, hp, and_true]
      exact tget_tset ..
  · rw [if_neg hp]
    simp [hp]

/-- An edge of a source that is not sticky writes a log entry (R419, R422). -/
theorem log_faultEdge (s : State) (k : Nat) (i : Bool) (hp : faultPresent s.part k = true) (hs : s.fltSticky k = false) :
    tget logEnt0 (s.faultEdge k i).flt.log s.flt.logWr = newEnt s k i := by
  unfold State.faultEdge
  rw [if_pos hp, if_neg (by simp [hs]), flt_react]
  exact tget_tset_same ..

/-- An edge of a source that is sticky merges (R419): its COUNT grows to 255 at most. -/
theorem count_faultEdge (s : State) (k : Nat) (i : Bool) (hp : faultPresent s.part k = true) (hs : s.fltSticky k = true) :
    (s.faultEdge k i).flt = { s.flt with count := tset 0 s.flt.count k (satAdd 255 (tget 0 s.flt.count k) 1) } := by
  unfold State.faultEdge
  rw [if_pos hp, if_pos hs, flt_bump]

/-- Setting a unit's bits makes its source sticky where it was quiet (R415, R419). -/
theorem fltSticky_raise (s : State) (k : Nat) (f : Fld) (m : Nat) (i : Bool) (hp : faultPresent s.part k = true)
    (ha : s.asserted k = false) : (s.raise k f m i).fltSticky k = true := by
  unfold State.raise
  rw [if_neg (by simp [ha]), fltSticky_faultEdge]
  have : faultPresent (s.orFld f m).part k = true := hp
  simp [this]

/-- A field set by raise reads its old bits with those set, if the collector does not use it. -/
theorem fld_raise (s : State) (k : Nat) (f : Fld) (m : Nat) (i : Bool) (h : eventField f.key = false) :
    (s.raise k f m i).fld f = (s.fld f ||| m) % 2 ^ f.w := by
  unfold State.raise State.orFld
  split
  · exact fld_setFld_same ..
  · rw [(Frame.faultEdge (Frame.refl _ [] []) k i).flds f h (by simp)]
    exact fld_setFld_same ..

end Sys2Proof.Machine
end

