-- ==== Sys2Proof/Laws/Ledger.lean ====
section
/-!
SUPPORT. Laws of the ledger's judgement of its waiting requests (R31, R32): what it can change.
-/
namespace Sys2Proof.Machine

/-- Judging changes the requests' marks, LIVE_HELD and what faults reach, and nothing else. -/
theorem judge_frame (s : State) : Frame { s with ldg := s.judge.ldg } s.judge [Reg.LGR_STATUS_LIVE_HELD] [] := by
  have hb : ∀ (x : State) (c n : Nat), (x.bump c n).ldg = x.ldg := fun x c n => by
    unfold State.bump
    split <;> rfl
  have hr : ∀ x : State, (x.raise 41 Reg.LGR_STATUS_LIVE_HELD).ldg = x.ldg := fun x =>
    (Frame.raise (Frame.refl x [Reg.LGR_STATUS_LIVE_HELD] []) 41 Reg.LGR_STATUS_LIVE_HELD 1 false (Or.inl (by simp))).ldg_eq
  unfold State.judge
  dsimp only
  generalize s.ldg.reqs.map _ = rq
  generalize (List.filter _ (s.ldg.reqs.filter _)).length = k
  split
  · simp only [hb, hr]
    exact (Frame.raise (Frame.refl _ _ _) _ _ _ _ (Or.inl (by simp))).bump _ _ (Or.inr rfl)
  · simp only [hb]
    exact (Frame.refl _ _ _).bump _ _ (Or.inr rfl)

/-- Judging keeps every entry. -/
theorem judge_entries (s : State) : s.judge.ldg.entries = s.ldg.entries := by
  have hb : ∀ (x : State) (c n : Nat), (x.bump c n).ldg = x.ldg := fun x c n => by
    unfold State.bump
    split <;> rfl
  have hr : ∀ x : State, (x.raise 41 Reg.LGR_STATUS_LIVE_HELD).ldg = x.ldg := fun x =>
    (Frame.raise (Frame.refl x [Reg.LGR_STATUS_LIVE_HELD] []) 41 Reg.LGR_STATUS_LIVE_HELD 1 false (Or.inl (by simp))).ldg_eq
  unfold State.judge
  dsimp only
  split
  · simp only [hb, hr]
  · simp only [hb]

/-- A field that judging does not touch. -/
theorem judge_fld (s : State) (g : Fld) (h : eventField g.key = false) (h' : g.key ≠ Reg.LGR_STATUS_LIVE_HELD.key) :
    s.judge.fld g = s.fld g :=
  (judge_frame s).flds g h (by simpa using h')

end Sys2Proof.Machine
end

