-- ==== Sys2Proof/Tests/Slice0.lean ====
section
/-!
SUPPORT. Tests: what WellFormed refuses, the spec's worked examples, one step of commands, and, for the statements with hypotheses, states
and operands that meet them together. Each example's source stands above it.
-/
namespace Sys2Proof.Tests
open Sys2Proof Sys2Proof.Machine

/-! ## Operands and states -/

/-- A state in SERVICE. -/
def s0 : State := State.reset.setFld Reg.LCM_MODE_MODE 5

/-- A sequence header of 64 by 64, 8 bits. -/
def hdr0 : SeqHdr := ⟨true, 0, false, 1, 40, 64, 64, 8, 8, 0, 32, ⟨false, false, false, false, false, false, false⟩, false, false, 1, 1⟩

/-- A picture header that starts a stream. -/
def pic0 : PicHdr := 
  ⟨true, true, 0, none, none, hdr0.tools, false, 2, 8, false, false, false, none, false, false, false, true, false, [], []⟩

/-- A picture without a hash. -/
def picEnd0 : PicEndIn := ⟨0, false, true, [], 0⟩

/-- One region of an encoded row, with two samples. -/
def encRow0 : EncRowIn := ⟨[⟨100, 50, [9, 9], [9], [⟨0, 0, 64, 64, none, (0, 0), 0, []⟩], false⟩], 10, [1, 2, 3], [⟨0, 3, 3, 77⟩, ⟨1, 1, 1, 5⟩]⟩

/-- A whole item of one word. -/
def word0 : BsqWord := sealWord ⟨9, true, true, 0, 7, false⟩

/-- An HSR frame from another node. -/
def frame0 : Frame := ⟨0x2, 0x3, 7, true, true, 100, 1, 5, false, false, false, false⟩

/-- A media packet of three bytes. -/
def packet0 : Packet := ⟨0, 0, 0, 100, 3, false, true, [1, 2, 3]⟩

/-- A management request that passes. -/
def mgmt0 : MgmtMsg := ⟨0x544D474D, 1, 0, 0, 5, true, List.replicate 16 0, 0x0A000001, 5000, 0, 47100⟩

/-- A firmware image. -/
def image0 : Image := ⟨0x52454E55, 1, 0, 2, 0, 7, 0, 1, 1, 0, 0, 0, true, true, true, true, 9, true, [], [], [], 0, false, []⟩

/-- A task descriptor: opcode, SID, row, lag, PIC_SEQ, DST_ADDR and flags, with its CRC. -/
def desc (op sid row lag seq : Nat) (flags : Nat := 0) : List Nat :=
  sealDesc [op + sid * 256 + flags, seq + row * 65536, lag * 65536, 0, 0, 0, 0x200000, 0, 0x300000, 0, 0x400000, 0, 0x500000, 0, 7, 0]

/-- The task of a descriptor, with entry 500. -/
def qt (d : List Nat) : QTask := ⟨d, 500, 0, []⟩

/-- Lathe 3 of s is ready to start the task of d. -/
def ready (s : State) (d : List Nat) : State :=
  let s := s.setFld (Reg.SPN_STATUS_STATE 3) 3
  let s := { s with ldg := { s.ldg with entries := tset none s.ldg.entries 500 (some ⟨.task, .general, false, 1, dSid d, 0, taskWords d⟩) } }
  let i := if encOpcode (dOpcode d) then 256 + (dOpcode d - 0x30) else dOpcode d
  let s := (s.setFld (Reg.SPN_VSLOT_VALID 3 0) 1).setFld (Reg.SPN_VSLOT_VERSION 3 0) 0
  s.setLth 3 { s.lth 3 with queue := [qt d], disp := tset 0 (s.lth 3).disp i 0x1010 }

/-! ## What WellFormed refuses -/

/-- Ill-formed commands, one for each check of WellFormed, are refused. -/
theorem test_ill_formed_refused_a : (List.any (α := Instr) [
    .regWrite .host (2 ^ 26) 0 0, .misalignedAccess .host (2 ^ 26) 0 false, .misalignedAccess .host 4 4 false,
    .unmappedAccess .host (2 ^ 26) false, .snapshotRead .host (2 ^ 26), .snapshotRead .host 2, .counterClear (.lth 26) [],
    .peakClear (.txq 0 256), .regLock (.spn 26) 0, .lgrLock [(2, 0)], .domainWakeOnAccess .host (2 ^ 26) none 0,
    .domainWakeOnAccess .host 2 none 0, .domainWakeDone 38 0, .taskDispatch 26 (List.replicate 16 0) 0, .taskDispatch 0 [] 0,
    .taskGrantPush 26 false 0, .taskPushRetry 26 0, .nop 26 0, .waitEvent 26 0, .waitEventPulse 256 0, .selfTest 26 false 0,
    .decSeq 26 hdr0 0, .decPicStart 26 pic0 0, .decRow 26 [] 0, .decParse 26 [] 0, .decReconRow 26 [] 0, .decConcealRow 26 [] 0,
    .decPicEnd 26 picEnd0 0, .encPicStart 26 0, .anaRow 26 [] 0, .encRow 26 encRow0 0, .encPicEnd 26 0 0, .ctxSave 26 0,
    .ctxLoad 26 0, .ctxVerify 26 0, .patchOpcode 26 0, .unknownOpcode 26 0, .blockDepRelease 26 0, .encRowWaitRelease 26 0,
    .stepRerun 26 [] 0 0 false 0, .stepRerun 0 [] 4608 0 false 0, .stepRerun 0 [] 0 4096 false 0, .taskCommit 26 ⟨0, 0, [], 0⟩ 0,
    .taskTimeout 26 0 0, .taskAbandon 26 0 0, .lthTqPush .host 26 0 0, .latheDrain 26, .feederPush 26 ⟨word0, 0⟩ none false,
    .feederPush 0 ⟨{ word0 with kind := 3 }, 0⟩ none false, .feederPush 0 ⟨word0, 2 ^ 35⟩ none false, .feederStallLimit 26 false, .bsqFlushRequest 26,
    .bsqFlush 26 0 ⟨false, false⟩,
    .repinWaitExpiry 512 0, .rateChangeWaitExpiry 512 0 0, .rateChangeWaitExpiry 0 4 0, .picDispatchNormal 512 0, .decisionLimit 512 0,
    .groupDispatch 512 0, .shepherdTick [] 0, .parkedLatheOff ⟨26, false⟩] fun i => i.wf) = false := by decide

/-- Ill-formed commands, one for each check of WellFormed, are refused. -/
theorem test_ill_formed_refused_b : (List.any (α := Instr) [
    .frameBoundaryMigrate 512 [] 0, .frameBoundaryMigrate 0 [26] 0, .powerStateDecision 38 none false 0, .domainWakeStart 38 0 0,
    .maintDrained 26 false 0, .commitPoint 64 0, .compGrant 64 0, .bandDone 64 0, .compDelivered 64 0, .fenceLatch 256,
    .overrideGpioAssert 16 0, .overrideGpioDeassert 16 0, .layerStale 64 0, .headEnable 4 0, .headFrameStart 4 0 0, .vblank 4, .hpdLoss 4,
    .hpdReturn 4 [], .hpdReturn 0 [256], .linkTrainingDone 4 false 0 0, .csPatrol 26 0, .csPatrol 0 3, .spindleLoad 26, .spnReload 26 0,
    .spindleLoadDone 26 false, .traceEnable 26 0, .dramRead 9 0 0 0 0, .dramRead 0 597 0 0 0, .dramRead 0 0 (2 ^ 35) 0 0,
    .dramReadRetry 9 0 0 0 0, .dramReadRetry 0 597 0 0 0, .dramReadRetry 0 0 (2 ^ 35) 0 0, .dramWrite 9 0 0 [] 0, .dramWrite 0 597 0 [] 0,
    .dramWrite 0 0 (2 ^ 35) [] 0, .dramWrite 0 0 0 [256] 0, .refreshSlot 16 0, .dramTempRead 16 0 0, .scrubLine 16 0 0,
    .softRepair 16 false 0, .driftTrack 16 0, .dmcLock [(2, 0)], .coopLock [(2, 0)], .coopFree (2 ^ 32), .drvCopy 16 0 0, .drvFill 16 0 0,
    .drvCompare 16 0 0, .drvLedgerGrant 16 [] [] 0, .drvLedgerGrant 0 [256] [] 0, .drvLedgerGrant 0 [] [256] 0, .drvAbort 16 0 0,
    .drvDone 16 0, .switchSensed 4 0, .bypassFaultRetry 4 0, .linkWaitExpiry 2 0, .portLinkUp 2 0, .portLinkDown 2 0, .speedTryExpiry 2 0,
    .sfpInsert 2 0, .frameRx 2 frame0 false 0] fun i => i.wf) = false := by decide

/-- Ill-formed commands, one for each check of WellFormed, are refused. -/
theorem test_ill_formed_refused_c : (List.any (α := Instr) [
    .frameRx 0 { frame0 with pcp := 8 } false 0, .portTransmit 2 0 0, .ptpMessage 2 ⟨true, 0, 0, false⟩ 0, .ppsInEdge 1000000000,
    .rtpPacketRx 2 packet0 0, .rtpPacketRx 0 { packet0 with vlan := 4096 } 0, .reorderTimeout 512 0, .rtcpRx 2 ⟨100, 0, 0, 0, true, 0⟩ 0,
    .arpIcmpRx 2 0 false, .arpIcmpRx 0 (2 ^ 32) false, .slicePacketise 512 0 0, .slicePacketise 0 4 0, .netGrant 512 0 0, .netGrant 0 4 0,
    .txqAgeDrop 2 0 0, .txqAgeDrop 0 256 0, .txqRateWrite 256 0 0, .rtcpSrSend 512 0 0, .rtcpSrSend 0 4 0,
    .mgmtRequest { mgmt0 with cmd := [] } 0, .mgmtHello { mgmt0 with cmd := [] }, .bar4Write 0 [256], .sqTailDoorbell 64 0,
    .cqHeadDoorbell 64 0, .queueEnable 64 0, .queueDisable 64 0, .queueDrained 64, .commandFetch 64 [], .commandFetch 0 [[]],
    .commandStart 64 0, .cmdNop 131072, .streamOpen 131072 [] 0, .streamClose 131072 0, .streamConfig 131072 [] 0, .streamStats 131072 [],
    .refreshRequest 131072 0, .setTargetVersion 131072 0, .canvasCommit 131072 [] 0, .override 131072 0, .overrideRelease 131072 0,
    .bufAlloc 131072 0, .bufFree 131072, .ingest 131072 [], .egress 131072 [], .imageLoad 131072 [] 0, .floorCommit 131072,
    .hostReadTimeout 100 0, .hostReadCompletion 100 .ur 0, .hostReadCompletion 0 (.data [256]) 0, .completionWrite 131072 0,
    .cplWaitExpiry 131072 0, .vectorTimerExpiry 64 0, .vectorUnmask 64, .sinkWrite 256 0, .crossingDelivery 256, .stampRead .host 16,
    .gpioInputEdge 16, .gpioPulseEnd 16, .bwtSourcePulse 1024, .bwtClaim .host 5 [] none] fun i => i.wf) = false := by decide

/-- Ill-formed commands, one for each check of WellFormed, are refused. -/
theorem test_ill_formed_refused_d : (List.any (α := Instr) [
    .bwtClaim .host 0 [1024] none, .bwtClaim .host 0 [] (some 5), .bwtEoi .host 5 0 false, .bwtSrcCfgWrite 1024 0, .targetOffline 5,
    .targetOnline 5, .faultEdge 512 0, .stickyClear 16 0 [] 0, .stickyClear 0 0 [512] 0, .brokenClear 16 0, .wireBroken 512 0,
    .wireRestored 512, .wireTest 512 false 0, .logRead .host 64, .migrateTimeout 26 0, .inputGood 2 0 false 0, .inputLost 2 0 0 false 0,
    .calibrateDone [16] [] [] 0, .calibrateDone [] [(0, 16)] [] 0, .calibrateDone [] [] [(38, 0, 0)] 0,
    .loadDone false false [{ image0 with type := 0 }] [] 0, .loadDone false false [] [{ image0 with type := 0 }] 0, .maintHour 24 0,
    .maintainEnd [16] [] 0, .maintainEnd [] [(0, 16)] 0, .flashScrub 3 0 false false 0, .marginRead 38 [1, 2, 3, 4] 0 0,
    .marginRead 0 [] 0 0, .nearMiss 38 0, .txCopyLeft 131072 0 0, .txCopyLeft 0 2 0, .hostReadCompletion 0 (.data [256]) 0] fun i => i.wf) = false := by decide

/-! ## The spec's worked examples -/

/-- Example of R296: address 0x0_0001_2345, line 1,165, lies on channel 1, bank 2, row 0, slot 17. -/
theorem test_example_address_map : placeIn 16 ⟨0, 1024, 0⟩ 1165 = ⟨1, 2, 0, 17⟩ := by decide

/-- Example of R57: limited-range white, w = 15,040, is 235 at 8 bits. -/
theorem test_example_white : toDepth 8 15040 = 235 := by decide

/-- Example of R61: chromaticity 13,250 becomes 17,367, luminances 10,000,000 and 50 become 256,000 and 82. -/
theorem test_example_mdcv : mdcvOut 2 [13250, 0, 0, 0, 0, 0, 0, 0, 10000000, 50] = [17367, 0, 0, 0, 0, 0, 0, 0, 256000, 82] := by decide

/-- The tile of the example after R238: four flat rows. -/
def flatRows : List Nat := (upTo 0 128).map (fun i => 0x1000 + 4 * (i / 32))

/-- Example after R238: 197 bits, header 1, one sector that starts with 0x40 and 0x00. -/
theorem test_example_veneer : (venBits flatRows).length = 197 ∧ (tileCode (some flatRows)).1 = 1 ∧
    (tileCode (some flatRows)).2.length = 32 ∧ (tileCode (some flatRows)).2.take 2 = [0x40, 0] := by decide +kernel

/-- The floors of the example after R181. -/
def exFloor (j : Nat) : Nat := if j = 0 then 2144 else 480
/-- Its weights. -/
def exWeight (j : Nat) : Nat := if j = 11 then 3 else 12
/-- Bits of rows, those not listed with none. -/
def exBits (l : List Nat) (j : Nat) : Nat := nth 0 l j

/-- Example after R181: the caps of rows 9, 10 and 11 are 4,177, 1,243 and 480 bits. -/
theorem test_example_row_caps :
    (planRow (exBits [176000, 0, 0, 0, 0, 0, 0, 9800, 8600]) (exBits []) exWeight exFloor 0 11 9 12 200000 62000 100 0 408).cap = 4177 ∧
    (planRow (exBits [185500, 0, 0, 0, 0, 0, 0, 0, 8600, 4177]) (exBits []) exWeight exFloor 0 11 10 12 200000 62000 100 0 408).cap = 1243 ∧
    (planRow (exBits [194100, 0, 0, 0, 0, 0, 0, 0, 0, 4177, 1243]) (exBits []) exWeight exFloor 0 11 11 12 200000 62000 100 0 408).cap = 480 := by
  decide +kernel

/-- Example of R457: 5,697.9 equivalent hours in the year, in tenths of a minute each minute. -/
theorem test_example_life : 8766 * (70 * lifeFactor 65 + 28 * lifeFactor 85 + 2 * lifeFactor 125) = 5697900 := by decide

/-- The renditions of CV12: every picture, every picture, every second and every fourth. -/
def cv12 : Stream :=
  { stream0 with dir := 1, rends := 4, rend := [(2, { rend0 with params := putVals [] 2 2 0 [1] }), (3, { rend0 with params := putVals [] 2 2 0 [2] })] }

/-- CV12 after the refresh point at 960, with a request that waits from picture 1,002 on, and after the point at 1,004. -/
def cv12At (last : Nat) (req : Option Nat) : Stream := { cv12 with enc := { encSt0 with refresh := some (last, 1), request := req } }

/-- Example of R161: the request is served at picture 1,004 and not before; the next periodic point moves from 1,080 to 1,124. -/
theorem test_example_refresh :
    (upTo 1002 3).map (fun c => pointCause (cv12At 960 (some 1002)) c 0) = [none, none, some 2] ∧
    pointCause (cv12At 960 none) 1080 0 = some 1 ∧ pointCause (cv12At 1004 none) 1120 0 = none ∧
    pointCause (cv12At 1004 none) 1124 0 = some 1 := by decide +kernel

/-- Owner 12 of the example after R325, with what it holds of each pool. -/
def owner12 (held : Tbl CoopBuf) : State :=
  { s0.setFlds [(Reg.COP_POOL2_COUNT 1, 8192), (Reg.COP_POOL2_COUNT 2, 64), (Reg.COP_OWNER_LIMIT_MIN 12 1, 34), (Reg.COP_OWNER_LIMIT_MAX 12 1, 64),
      (Reg.COP_OWNER_LIMIT_MIN 12 2, 4), (Reg.COP_OWNER_LIMIT_MAX 12 2, 16)] with coop := ⟨held, [], []⟩ }

/-- Buffers k, k + 1, ... of pool p that owner 12 holds. -/
def held12 (p k n : Nat) (reserve : Bool) : Tbl CoopBuf := (upTo k n).map (fun i => (p * 2 ^ 18 + i, ⟨true, reserve, 1, 12, true⟩))

/-- Example after R325: 1,225 bytes from P1's reserve; with 64 held, from P2's reserve; 9,800 bytes with 4 held of P2 from its shared part. -/
theorem test_example_coop :
    (owner12 (held12 1 0 10 true)).coopChoice 12 1225 = some (1, true) ∧
    (owner12 (held12 1 0 34 true ++ held12 1 34 30 false ++ held12 2 0 2 true)).coopChoice 12 1225 = some (2, true) ∧
    (owner12 (held12 2 0 4 true)).coopChoice 12 9800 = some (2, false) ∧
    (owner12 []).coopChoice 900 200000 = none := by decide +kernel

/-- DV3 as in the example after R331: 10,000 bytes from 0x0013 to 0x0100 of a buffer. -/
def shift3 : State := s0.setFlds [(Reg.DRV_SRC_LO_ADDR 3, 0x800013), (Reg.DRV_DST_LO_ADDR 3, 0x800100), (Reg.DRV_LEN_BYTES 3, 10000)]

/-- Example after R331: the copy descends. -/
theorem test_example_descends : shift3.drvDescends 3 = true := by decide

/-- Example after R363: a frame of 1,225 bytes of slice charges 10,504 bits. -/
theorem test_example_charge : 8 * (1225 + 68 + s0.fld (Reg.RNG_PORT_CFG_OVERHEAD 0)) = 10504 := by decide

/-- CC2's target with sources 40 and 385 pending, of the example after R412. -/
def bell : State :=
  s0.setFlds [(Reg.BWT_SRC_CFG_STATE 40, 1), (Reg.BWT_SRC_CFG_ENABLE 40, 1), (Reg.BWT_SRC_CFG_TARGET 40, 2), (Reg.BWT_SRC_CFG_PRIORITY 40, 6),
    (Reg.BWT_TGT_STATE_OFFLINE 2, 0)]

/-- Example after R412: CC2's claim of source 40 leaves it on the stack with priority 6. -/
theorem test_example_claim : (match exec (.bwtClaim .cc2 2 [] none) bell with | .next t => t.stack 2 | _ => []) = [(40, 6)] := by decide +kernel

/-- The state after that claim, another job of DV3, and the claim of source 385. -/
def bell2 : State := { bell.setFlds [(Reg.BWT_SRC_CFG_STATE 40, 3), (Reg.BWT_SRC_CFG_STATE 385, 2)] with nests := [(2, [(385, 12), (40, 6)])] }

/-- Example after R412: the EOI of 40 ahead of 385's is refused and raises FS118; 385's pops, and then 40 returns to PENDING. -/
theorem test_example_eoi :
    (match exec (.bwtEoi .cc2 2 40 false) bell2 with | .next t => (t.stack 2, t.fltSticky 118) | _ => ([], false)) = ([(385, 12), (40, 6)], true) ∧
    (match exec (.bwtEoi .cc2 2 385 false) bell2 with | .next t => t.stack 2 | _ => []) = [(40, 6)] ∧
    (match exec (.bwtEoi .cc2 2 40 false) { bell2 with nests := [(2, [(40, 6)])] } with | .next t => (t.stack 2, t.bst 40) | _ => ([], 0)) =
      ([], 1) := by decide +kernel

/-! ## Hypotheses that are met: registers, domains and the ledger -/

/-- A tile that the round trip is about, and one at the ends of the range. -/
theorem test_met_tiles : flatRows.length = 128 ∧ (∀ v ∈ flatRows, v < 2 ^ 14) ∧ (List.replicate 128 16383).length = 128 ∧
    ∀ v ∈ List.replicate 128 16383, v < 2 ^ 14 := by decide +kernel

/-- Regions of both ends, the last line of one, and the last place. -/
theorem test_met_address_map : (0 : Nat) < 1024 ∧ (3 : Nat) < 4 ∧ 1024 * granuleSize 16 / 64 - 1 < 1024 * granuleSize 16 / 64 ∧
    (15 < 16 ∧ 27 < 28 ∧ 64 * 1023 ≤ 65535 ∧ 65535 < 64 * (1023 + 1)) ∧ granuleSize (partChannels .lmx7260) / 64 = 16 * 16 * 1792 := by decide

/-- SERVICE meets the invariants, and its idle step is a step. -/
theorem test_met_invariants : s0.memOk = true ∧ LevelsInRange s0 ∧ ModeOk s0 ∧ LedgerFits s0 ∧ ∃ t, step s0 = .next t :=
  ⟨by decide +kernel, by unfold LevelsInRange; decide +kernel, by unfold ModeOk; decide +kernel, by unfold LedgerFits; decide +kernel, _, rfl⟩

/-- Addresses that are unmapped, misaligned, and of an absent unit. -/
theorem test_met_bad_access : mapped 0x0FFF0000 = false ∧ 0x0FFF0000 % 4 = 0 ∧ s0.absentAt 0x0FFF0000 = false ∧ s0.asserted 0 = false ∧
    s0.fltSticky 0 = false ∧ ({ s0 with part := .lmx7221 } : State).absentAt 0x190000 = true ∧ snapWords 0x190100 ≠ [] ∧ (2 : Nat) % 4 ≠ 0 := by
  decide +kernel

/-- A register of the DMC_ window, and a counter of it. -/
theorem test_met_register_access : 0x90008 / 0x10000 = 9 ∧ 0x90008 % 4 = 0 ∧ mapped 0x90008 = true ∧ (regFields 0x90008).length = 5 ∧
    counterAt 0x90400 = true ∧ s0.absentAt 0x90400 = false ∧ domainOf 0x90400 = none ∧ 5 ≤ s0.mode := by decide +kernel

/-- Units with counters, a lock bit, and a ledger whose minima fit and one whose do not. -/
theorem test_met_clears_and_locks : s0.hasCnt (.lth 25) = true ∧ s0.hasLathe 25 = true ∧ s0.pd 37 = 0 ∧
    domainOf (cntCtrlAddr (.lth 25)) = some 37 ∧ s0.pd 7 = 0 ∧ s0.pd 6 = 0 ∧ s0.pd 5 = 0 ∧ s0.pd 3 = 0 ∧ (s0.lth 25).queue.length < 128 ∧
    allCls[4]? = some .dma ∧ bitsOf (1 : Word) 0 1 = 1 ∧ s0.hasInlay 1 = true ∧ s0.fld Reg.LGR_CTRL_LOCK = 0 ∧ s0.lgrMinSum ≤ 131072 ∧
    (∀ c ∈ allCls, s0.lgrLive c ≤ s0.lgrMin c) ∧
    ¬ ((s0.setFld (Reg.LGR_MIN_MIN 0) 262143).lgrMinSum ≤ 131072) := by decide +kernel

/-- Lathe 5's domain sleeps. -/
def asleep : State := s0.setFld (pdStateF 17) 2

/-- A waking domain with no access that waits, and a request held since time 0. -/
def waking : State := { s0.setFld (pdStateF 6) 2 with wakes := [(6, some ⟨3, []⟩)] }
/-- The request. -/
def held : State := { s0 with ldg := ⟨[], [⟨.task, false, 5, 1, 0, some 0⟩], 0⟩ }

/-- An access to a sleeping domain, the end of a wake, and a request held too long. -/
theorem test_met_wakes : asleep.absentAt 0x150000 = false ∧ mapped 0x150000 = true ∧ domainOf 0x150000 = some 17 ∧
    hasDomain asleep.part 17 = true ∧ 2 ≤ asleep.pd 17 ∧ tget none waking.wakes 6 = some ⟨3, []⟩ ∧ waking.pd 6 = 2 ∧ 3 < max waking.time 4 ∧
    held.ldg.reqs = [⟨.task, false, 5, 1, 0, some 0⟩] ∧ 0 + atLeast1 (held.fld Reg.LGR_HOLD_LIMIT_LIMIT_US) < max held.time 100000000 := by
  decide +kernel

/-- An Inlay's domain that wakes from OFF with a field to restore and a write that waits, and a Lathe's that wakes. -/
def wakingOff : State :=
  { s0.setFld (pdStateF 6) 3 with restore := [((Reg.INL_CTRL_LOCK 0).key, 2)], wakes := [(6, some ⟨3, [⟨.host, 0x80000, some 1⟩]⟩)] }
def wakingLathe : State := { s0.setFld (pdStateF 17) 2 with wakes := [(17, some ⟨3, [⟨.host, 0x150000, none⟩]⟩)] }

/-- Wakes with accesses that wait, restored fields of either value, no wake, and a request that is not held too long. -/
theorem test_met_wake_ends :
    tget none s0.wakes 6 = none ∧ (tget none wakingOff.wakes 6).isSome = true ∧ wakingOff.pd 6 = 3 ∧ tsorted wakingOff.restore = true ∧
    (let g := Reg.INL_CTRL_LOCK 0
     (regFields (g.key / 32)).any (fun f => f.lo = g.lo && (fieldAt (g.key / 32) f).key = g.key) = true ∧ domainOf (g.key / 32) = some 6 ∧
     tget 0 wakingOff.restore g.key = 1 + 1) ∧
    ((tget none wakingLathe.wakes (12 + 5)).any fun k => k.accs.length = 1) = true ∧ wakingLathe.flt.inject = none ∧ wakingLathe.pd (12 + 5) = 2 ∧
    (∀ r ∈ held.ldg.reqs, ∀ t0 ∈ r.held.toList, max held.time 9 ≤ t0 + atLeast1 (held.fld Reg.LGR_HOLD_LIMIT_LIMIT_US)) := by
  decide +kernel

/-- Writes that wait: of a sleeping Lathe's registers, and of those of PD03, PD05 and PD06. -/
theorem test_met_write_waits : asleep.hasLathe 5 = true ∧ 2 ≤ asleep.pd (12 + 5) ∧
    ((.latheDrain 5, 0x150008, 1) : Instr × Nat × Word) ∈ latheWrites asleep 5 7 ∧
    (∀ d ∈ [3, 5, 6], 2 ≤ (s0.setFld (pdStateF d) 3).pd d) ∧ s0.hasHead 1 = true ∧ s0.hostQueue 1 = true := by decide +kernel

/-! ## Tasks -/

/-- A dispatched task, a granted one, and one that waits for the retry. -/
def dispatched : State := { s0 with disps := [⟨3, desc 0x12 5 0 0 0, 9⟩], dispTag := 10, ldg := ⟨[], [⟨.task, false, 5, 9, 0, none⟩], 0⟩ }
/-- The retry. -/
def retrying : State := s0.setLth 3 { lathe0 with retry := [qt (desc 0 5 0 0 0)] }

/-- A decode stream of class 2 that may open picture 7 on Lathe 3, and the task that opens it; the first on a Lathe that another SID holds. -/
def opening (busy : Bool) : State :=
  let s := s0.setStream 5 { stream0 with cls := 2, state := 1, wMax := 1, params := putVals [] 5 6 0 [64, 64, 8, 0] }
  if busy then s.setLth 3 { lathe0 with queue := [qt (desc 0x12 6 0 0 0)] } else s
def openTask : List Nat :=
  let s := opening false
  sealDesc [0x11 + 5 * 256, 7, 0, 0, 2 ^ 32 - 1, 0, s.ctxAddr 5 % 2 ^ 32, s.ctxAddr 5 / 2 ^ 32, 0x300000, 0, 0x400000, 0, 0x500000, 0, 7, 0]

/-- Tasks on their way to Lathe 3: one that opens no picture-paced picture and may be given, one that opens one and waits or not, a grant with
room and at a full queue, and a retry. -/
theorem test_met_tasks_reach : s0.hasLathe 3 = true ∧
    ((s0.at 9).opens (desc 0 5 0 0 0) = false ∧ (s0.at 9).mayGive 3 (desc 0 5 0 0 0) = true) ∧
    (nextDisp 3 dispatched.disps []).isSome = true ∧ (dispatched.at 9).grantBucket .task 9 = some .general ∧ (dispatched.lth 3).retry = [] ∧ s0.pd 15 = 0 ∧
    (retrying.lth 3).retry = [qt (desc 0 5 0 0 0)] ∧ (retrying.lth 3).queue.length < 64 ∧
    64 ≤ ((s0.setLth 3 { lathe0 with queue := List.replicate 64 (qt (desc 0 5 0 0 0)) }).lth 3).queue.length ∧
    (s0.setFld (Reg.LTH_CTRL_DIRECT_TQ 3) 1).on (Reg.LTH_CTRL_DIRECT_TQ 3) = true := by decide +kernel

/-- The span model of R87 on the example of spec/03_lathe_pipeline.md: 1,685 CTU times on five Lathes, 1,087 on eight. -/
theorem test_span_model : spanUnits 5 120 68 64 32 68 = 1685 * 64 ∧ spanUnits 8 120 68 64 32 68 = 1087 * 64 := by decide +kernel

/-- A task that opens a picture of a picture-paced stream, with the first eligible Lathe and with one that another SID holds. -/
theorem test_met_openings : ∀ busy ∈ [false, true], let s := (opening busy).at 9
    s.opens openTask = true ∧ s.mayDispatch openTask = true ∧ s.taskDue openTask = true ∧ s.shp.ready = [] ∧
    (∃ n < 26, s.mayGive n openTask = true) ∧ s.mayGive 3 openTask = false := by decide +kernel

/-- Lathe 3 can start a task of each of these opcodes. -/
theorem test_met_startable : ∀ op ∈ [0, 1, 2, 0x60, 0x61, 0x62, 0x80],
    Startable (ready s0 (desc op 5 0 0 0)) 3 (qt (desc op 5 0 0 0)) := by unfold Startable; decide +kernel

/-- A stream of version 3, which Lathe 3 holds in slot 0, or does not hold. -/
theorem test_met_context_tasks : ((ready s0 (desc 0x62 5 0 0 0)).slotOf 3 0).isSome = true ∧ (s0.stream 5).target = 0 ∧
    ((ready (s0.setStream 5 { stream0 with version := 3 }) (desc 0x62 5 0 0 0)).slotOf 3 3) = none := by decide +kernel

/-- The task of a descriptor whose length field is spoilt. -/
def spoilt : List Nat := setNth 1 (desc 0 5 0 0 0) 4

/-- A descriptor that fails a check, an opcode that is not defined, and one without an entry in the dispatch RAM. -/
theorem test_met_refused_tasks :
    (let s := (ready s0 (desc 0 5 0 0 0)).setLth 3 { lathe0 with queue := [qt spoilt] }
     s.headTask 3 = some (qt spoilt) ∧ s.canPop 3 spoilt = true ∧ s.descCheck 3 spoilt ≠ 0 ∧ dOpcode spoilt = 0) ∧
    Startable (ready s0 (desc 3 5 0 0 0)) 3 (qt (desc 3 5 0 0 0)) ∧ Startable (ready s0 (desc 0x7F 5 0 0 0)) 3 (qt (desc 0x7F 5 0 0 0)) ∧
    (let d := desc 0 5 0 0 0
     let s := (ready s0 d).setLth 3 { lathe0 with queue := [qt d] }
     s.headTask 3 = some (qt d) ∧ s.canPop 3 d = true ∧ s.descCheck 3 d = 0 ∧ nbits (s.dispEntry 3 d) 12 1 = 0) := by
  unfold Startable; decide +kernel

/-! ## Decode and encode tasks -/

/-- The state after a command. -/
def after (c : Instr) (s : State) : State := match exec c s with | .next t => t | _ => s

/-- A picture of 64 by 64 that stream 5 decodes: two rows of two blocks. -/
def cur0 : DecPic :=
  { id := 1, poc := 4, seq := 7, intra := false, clears := false, surf := ⟨0x400000, 64, 64, 0, 0⟩, refSurf := ⟨0x400000, 64, 64, 0, 0⟩, refs := [],
    first := false, parseAhead := false, skip := false, directed := 0, layer := 0, shown := true, started := true, finalAt := none, syn := [],
    parsed := false, rowsDone := [], taint := false, concealed := 0, acc := [], damage := none }

/-- A decode stream with that picture. -/
def decStream : Stream :=
  { stream0 with cls := 2, state := 2, params := putVals [] 5 6 0 [64, 64, 8, 0], dec := { decSt0 with seq := some hdr0, cur := some cur0, needStart := 0 } }

/-- The stream with another picture. -/
def decWith (c : Option DecPic) : Stream := { decStream with dec := { decStream.dec with cur := c } }

/-- Lathe 3 ready for a task of stream 5. -/
def sdec (st : Stream) (d : List Nat) : State := ready (s0.setStream 5 st) d

/-- A block of a row. -/
def blk (words : Nat) : BlockIn := ⟨words, 0, true, false, false, false, [], none, (0, 0), [⟨0, 3, 3, 77⟩, ⟨1, 1, 1, 5⟩], []⟩

/-- What the statements ask of a stream that decodes, of each opcode, of a skipped picture too, and of blocks. -/
theorem test_met_decode :
    (∀ op ∈ [0x10, 0x11], Startable (sdec (decWith none) (desc op 5 0 0 7)) 3 (qt (desc op 5 0 0 7)) ∧
      ((sdec (decWith none) (desc op 5 0 0 7)).stream 5).dec.cur = none) ∧
    (∀ op ∈ [0x12, 0x13, 0x14, 0x15, 0x16], ∀ c ∈ [cur0, { cur0 with skip := true }],
      Startable (sdec (decWith (some c)) (desc op 5 1 0xFF 7)) 3 (qt (desc op 5 1 0xFF 7)) ∧
      ((sdec (decWith (some c)) (desc op 5 1 0xFF 7)).stream 5).dec.cur = some c ∧
      ((sdec (decWith (some c)) (desc op 5 1 0xFF 7)).stream 5).dec.seq = some hdr0 ∧ c.seq = dPicSeq (desc op 5 1 0xFF 7)) ∧
    (0 < (hdr0.width + hdr0.block - 1) / atLeast1 hdr0.block) ∧ (∀ b ∈ [blk 0, blk 3], ∀ p ∈ b.px, p.plane < planesOf cur0.surf.format) := by
  unfold Startable; decide +kernel

/-- What a sequence header meets and what it fails. -/
theorem test_met_sequences : hdr0.parses = true ∧ seqReason (decWith none) hdr0 = 0 ∧ seqReason (decWith none) { hdr0 with width := 8000 } ≠ 0 ∧
    (decWith none).dec.seq ≠ none ∧ decSt0.seq = none ∧ pic0.irap = false := by decide +kernel

/-- The parameters of a rendition that is coded at 8 bits. -/
def rparams : Tbl Nat := putVals (putVals (putVals (putVals [] 3 1 0 [1000000]) 3 4 0 [100]) 2 8 0 [0]) 2 4 0 [8]

/-- A canvas of 128 by 64. -/
def cv64 : Canvas := { canvas0 with cfg := putVals (putVals canvas0.cfg 6 0 0 [128, 64]) 6 2 0 [450000] }

/-- An encode stream of one rendition, with picture 0 decided, and a picture that it codes. -/
def encWith (p : Option EncPic) : Stream :=
  { stream0 with dir := 1, cls := 2, state := 1, canvas := 0, period := 450000, rends := 1, wMax := 1,
                 rend := tset rend0 [] 0 { rend0 with params := rparams, active := true, cur := p },
                 enc := { encSt0 with c := 1, decided := [⟨0, 0, 0, 0, some 0, true, 0, 0, false, none, [0]⟩] } }

/-- A picture in coding; its only row has been coded where `d`. -/
def encCur (d : Bool) : EncPic :=
  { encPic0 with c := 0, intra := true, cause := some 0, full := 50000, target := 40000, rq := 200, rowsDone := if d then [(0, true)] else [] }

/-- Lathe 3 ready for a task of it. -/
def senc (st : Stream) (d : List Nat) : State := ready ((s0.setStream 5 st).setCv 0 cv64) d

/-- What the statements ask of a stream that encodes: a decided picture, one in coding, a row that is ready and one that waits. -/
theorem test_met_encode :
    (Startable (senc (encWith none) (desc 0x30 5 0 0 0)) 3 (qt (desc 0x30 5 0 0 0)) ∧
      ((encWith none).startable 0 0).map (fun z => (z.c, z.intra)) = some (0, true)) ∧
    (∀ op ∈ [0x31, 0x32, 0x33], Startable (senc (encWith (some (encCur true))) (desc op 5 0 0 0)) 3 (qt (desc op 5 0 0 0))) ∧
    ((encWith (some (encCur true))).rendition 0).cur = some (encCur true) ∧ (encCur true).c % 65536 = 0 ∧
    (∀ i < (senc (encWith none) []).rendRows (encWith (some (encCur true))) 0, tget false (encCur true).rowsDone i = true) ∧
    (let s := senc (encWith (some (encCur false))) (desc 0x32 5 0 0 0)
     let k := (s.at 9).encCtx (s.stream 5) 0 (encCur false)
     s.anaReady k 5 0 = false ∧ k.delayMet 0 = true ∧ (s.setProg (rowKey 5 4 0) 1).anaReady k 5 0 = true ∧
     ∀ p ∈ encRow0.recon, p.plane < planesOf k.y.chroma) := by
  unfold Startable; decide +kernel

/-- A row of concealed blocks that waits for the row above, which then is complete. -/
def waitingRow : State :=
  (after (.decConcealRow 3 [blk 0, blk 0] 9) (sdec decStream (desc 0x15 5 1 1 7))).setProg (rowKey 5 0 0) 2

/-- A row that is reconstructed from a whole parse and waits for the row above. -/
def waitingRecon : State :=
  after (.decReconRow 3 [blk 0, blk 0] 9)
    (sdec (decWith (some { cur0 with parseAhead := true, parsed := true, syn := [(512, 1), (513, 1)] })) (desc 0x14 5 1 1 7))

/-- An encoded row that waits for its analysis, which then is complete. -/
def waitingEnc : State :=
  (after (.encRow 3 encRow0 9) (senc (encWith (some (encCur false))) (desc 0x32 5 0 0 0))).setProg (rowKey 5 4 0) 1

/-- Rows that wait. -/
theorem test_met_waiting_rows :
    ((waitingRow.lth 3).run.any fun r => !r.done && !r.exhausted && !r.dropping && r.waiting ≠ [] && r.pos + r.waiting.length = 2 &&
      dOpcode r.task.desc = 0x15) = true ∧
    (waitingRow.stream 5).dec.cur = some cur0 ∧ 2 ≤ waitingRow.prog (rowKey 5 0 0) ∧
    ((waitingRecon.lth 3).run.any fun r => !r.done && !r.exhausted && !r.dropping && r.waiting ≠ [] && r.pos + r.waiting.length = 2 &&
      dOpcode r.task.desc = 0x14) = true ∧
    ((waitingRecon.stream 5).dec.cur.any fun cur => (upTo 0 2).all fun k => tget 0 cur.syn (1 * 512 + k) != 0) = true ∧
    ((waitingEnc.lth 3).run.any fun r => !r.done && !r.exhausted && r.encIn = some encRow0 && r.pos = 0 && r.blocks = 0) = true ∧
    ((waitingEnc.stream 5).rendition 0).cur = some (encCur false) ∧
    (let k := (waitingEnc.at 10).encCtx (waitingEnc.stream 5) 0 (encCur false)
     waitingEnc.anaReady k 5 0 = true ∧ k.delayMet 0 = true) := by decide +kernel

/-! ## Commits, reruns and the ladder -/

/-- Lathe 3 with a run of a task of opcode `op` whose routine has ended, and what it will do. -/
def running (s : State) (op flags : Nat) (f : Run → Run) : State :=
  let d := desc op 5 0 40 7 flags
  let r : Run := { run0 (qt d) 0 with done := true }
  (ready s d).setLth 3 { lathe0 with run := some (f r) }

/-- A commit's report. -/
def commit0 : CommitIn := ⟨100, 4, [], 0⟩

/-- Runs of each kind that may commit. -/
theorem test_met_commits :
    (∀ s ∈ [running s0 0 0 id, running (s0.setStream 5 decStream) 0x12 0 id,
        running (s0.setStream 5 decStream) 0x11 0 (fun r => { r with dec := some decSt0 }),
        running (s0.setStream 5 decStream) 0x11 0 (fun r => { r with dec := some decSt0, lost := true }),
        running (s0.setStream 5 decStream) 0x10 0 (fun r => { r with dec := some decSt0 }), running (s0.setStream 5 decStream) 0x10 0 id,
        running (s0.setStream 5 (encWith none)) 0x30 0 (fun r => { r with enc := some (encCur false) }),
        running (s0.setStream 5 (encWith (some (encCur false)))) 0x31 0 (fun r => { r with encSt := some encSt0 }),
        running (s0.setStream 5 (encWith (some (encCur false)))) 0x32 0 (fun r => { r with enc := some (encCur true) }),
        running (s0.setStream 5 (encWith (some (encCur false)))) 0x32 (2 ^ 26) (fun r => { r with enc := some (encCur true) }),
        running (s0.setStream 5 (encWith (some (encCur false)))) 0x33 0 id,
        running (s0.setStream 5 decStream) 0x16 0 (fun r => { r with dec := some decSt0 }), running (s0.setStream 5 decStream) 0x16 0 id],
      ((s.lth 3).run.any fun r => r.done && !r.exhausted && r.commit.isNone && (s.at 9).rowCommits r) = true ∧ (s.stream 5).closeBy = none ∧
        s.shp.ready = []) ∧
    dSliceLast (desc 0x32 5 0 40 7 (2 ^ 26)) = true ∧ dSliceLast (desc 0x32 5 0 40 7) = false ∧
    (let s := running (s0.setStream 5 (encWith (some (encCur false)))) 0x32 (2 ^ 26) (fun r => { r with enc := some { encCur true with bytes := [(0, [1, 2])] } })
     s.on Reg.COP_STATUS_READY = false ∧
     ((s.lth 3).run.any fun r => let n := ((s.at 9).sliceBytes r []).length; 0 < n && n ≤ 8388608) = true) := by decide +kernel

/-- A WAIT_EVENT task that waits for source 40. -/
def waits : State := after (.waitEvent 3 9) (ready s0 (desc 1 5 0 40 0))

/-- A pulse for which it waits, and one for which it does not; a rerun below the limit and at it. -/
theorem test_met_pulses_and_reruns :
    ((waits.lth 3).run.any fun r => r.awaits 40 && !r.awaits 41 && !r.exhausted) = true ∧ waits.hasLathe 3 = true ∧
    topCause (waits.liveCauses 3 77 [.pipeParity, .csUncorr]) = some .csUncorr ∧
    ((waits.lth 3).run.any fun r => r.stepReruns < atLeast1 (waits.fld (Reg.SPN_RERUN_LIMIT_LIMIT 3)) && !r.uncorr.contains 5) = true ∧
    (let s := running s0 1 0 (fun r => { r with stepReruns := 200, uncorr := [5] })
     topCause (s.liveCauses 3 77 [.csUncorr]) = some .csUncorr ∧
     ((s.lth 3).run.any fun r => atLeast1 (s.fld (Reg.SPN_RERUN_LIMIT_LIMIT 3)) ≤ r.stepReruns && r.uncorr.contains 5 && !r.exhausted) = true) := by
  decide +kernel

/-- A run past its time limit, an abandon, and a rung 3 that has lasted too long, on a Lathe that may retire or not. -/
theorem test_met_ladder :
    ((waits.lth 3).run.any fun r => r.commit.isNone && !r.timedOut) = true ∧
    atLeast1 (waits.fld (Reg.LTH_TASK_LIMIT_LIMIT_KCYC 3)) * 1024 < 2 ^ 40 ∧
    (let s := running s0 1 0 (fun r => { r with timedOut := true }); ((s.lth 3).run.any fun r => r.canAbandon) = true ∧ (s.lent 500).isSome = true) ∧
    (let s := s0.setLth 3 { lathe0 with ladderSince := some 0 }
     (s.lth 3).ladderSince = some 0 ∧ 0 + atLeast1 (s.fld Reg.FLT_LADDER_CFG_MIGRATE_MS) * 1000 ≤ max s.time 200000 ∧ s.mayRetire 3 = false ∧
     ({ s with flt := { s.flt with sticky := [(131, true)] } } : State).mayRetire 3 = true) := by decide +kernel

/-- Queues with room, discarding, flushed, full, held at the limit, and with a flush pending; clean and poisoned ranges, and a recorded loss. -/
theorem test_met_bitstream_queue :
    (s0.lth 3).run = none ∧ (s0.bsq 3).held = none ∧ s0.flt.inject = none ∧ (s0.bsq 3).discarding = false ∧ (s0.bsq 3).flushed = false ∧
    (s0.bsq 3).unread = 0 ∧ (s0.bsq 3).occupied < 16383 ∧ s0.pd (12 + 3) = 0 ∧
    (s0.feederWord 3 word0 64 none).start = true ∧ (s0.feederWord 3 (sealWord ⟨9, false, true, 0, 7, false⟩) 64 none).start = false ∧
    s0.rangePoison 64 8 = false ∧ (s0.setPoison 1 true).rangePoison 64 8 = true ∧
    (lossesOf (tget [] ({ s0 with ring := { s0.ring with arrived := [(0, [.loss 4])] } } : State).ring.arrived 0))[0]? = some 4 ∧
    (let s := s0.setBsq 3 { bsq0 with words := List.replicate 16383 word0 }; 16383 ≤ (s.bsq 3).occupied) ∧
    (let s := s0.setBsq 3 { bsq0 with held := some word0, stalled := true, words := List.replicate 16384 word0 }
     (s.bsq 3).held = some word0 ∧ 16384 ≤ (s.bsq 3).words.length) ∧
    (let s := s0.setBsq 3 { bsq0 with flushPending := true }; (s.bsq 3).flushPending = true ∧ (s.bsq 3).rd = 0) := by decide +kernel

/-! ## The Spindle and the decisions -/

/-- Lathe 3 with a load that is being verified, and a manifest that fits it. -/
def loading (k : Nat) (crc : Nat := 0) : State :=
  { (s0.setFlds [(Reg.SPN_STATUS_STATE 3, 1), (Reg.SPN_STATUS_LOADED_FROM 3, 0)]).setLth 3 { lathe0 with loads := k } with
    manifests := [(0, some ⟨11, 2, 33, [4, 0, 6, 0], [1, 2, 3, 4], crc⟩)] }

/-- States for the patrol, a load, a reload, and a load's end the first and the second time. -/
theorem test_met_spindle :
    (s0.hasLathe 3 = true ∧ (s0.setFld (Reg.SPN_STATUS_STATE 3) 3).pd 15 ≤ 1 ∧ s0.flt.inject = none ∧ s0.pd 15 = 0 ∧
      s0.fld (Reg.SPN_STATUS_STATE 3) = 0) ∧
    ((3 : Word).getLsbD 1 = true ∧ (3 : Word).getLsbD 0 = true ∧ (2 : Word).getLsbD 0 = false ∧ (s0.setFld (Reg.LTH_CTRL_DRAIN 3) 1).drained 3 = true) ∧
    (∀ k ∈ [1, 2], (loading k).fld (Reg.SPN_STATUS_STATE 3) = 1 ∧ ((loading k).lth 3).loads = k ∧
      (tget none (loading k).manifests 0).isSome = true) ∧
    s0.testLife = false ∧ (s0.setFld Reg.LCM_LC_STATE 1).testLife = true ∧ s0.on (Reg.SPN_TRACE_CTRL_EN 3) = false := by decide +kernel

/-- A manifest whose CRC is that of Lathe 3's store, which is empty: the premise of a load that succeeds. -/
theorem test_met_load_crc : ∃ crc m, tget none (loading 1 crc).manifests 0 = some m ∧ m.crc = storeCrc ((loading 1 crc).lth 3).cs ((loading 1 crc).lth 3).disp :=
  have h : ∀ crc, tget none (loading 1 crc).manifests 0 = some ⟨11, 2, 33, [4, 0, 6, 0], [1, 2, 3, 4], crc⟩ := fun _ => rfl
  have hc : ∀ crc, ((loading 1 crc).lth 3).cs = [] := fun _ => rfl
  have hd : ∀ crc, ((loading 1 crc).lth 3).disp = [] := fun _ => rfl
  ⟨storeCrc [] [], _, h _, by rw [hc, hd]⟩

/-- Stream 5 codes canvas 0, whose picture 1 has `bands` bands composed; its next picture is c. -/
def deciding (c bands : Nat) (f : Rend → Rend) (e : EncSt) : State :=
  let x := encWith none
  let x := { x with rend := tset rend0 [] 0 (f (x.rendition 0)), enc := { e with c := c, decided := [] } }
  (s0.setStream 5 x).setCv 0 { cv64 with cur := some ⟨1, 0, 0, 0, bands, false, false⟩, c := 2, startAt := 1 }

/-- A rendition in the structure REORDER_8. -/
def reorder (y : Rend) : Rend := { y with params := putVals y.params 2 7 0 [3] }

/-- Waits that have run out, a picture that is ready, one that is not, picture 0, and a group. -/
theorem test_met_decisions :
    (let s := deciding 1 10 (fun y => { y with changeAt := some 0, change := putVals [] 3 1 0 [5] }) { encSt0 with repinAt := some 0 }
     let x := s.stream 5
     x.enc.repinAt = some 0 ∧ x.enc.repinDue = false ∧ x.repinWait * 1000 ≤ max s.time 9000000 - 0 ∧ (x.rendition 0).changeAt = some 0 ∧
     (x.rendition 0).signalled = true ∧ x.state ≠ 0 ∧ x.dir = 1 ∧ x.enc.request = none) ∧
    (let s := deciding 1 10 id encSt0
     let x := s.stream 5
     x.encoding = true ∧ s.inService = true ∧ (x.rendition 0).structure_ ≠ 3 ∧
     (∀ now ∈ [9, 9000000], (x.enc.previousEnded && (s.at now).rowZeroDone x 1) = true ∧
       (s.at now).limitReached x 1 = decide (now ≠ 9)) ∧ encShed x.cls (s.levelFor x) 1 = false) ∧
    (let s := deciding 7 10 id encSt0
     let x := s.stream 5
     (x.enc.previousEnded && (s.at 9000000).rowZeroDone x 7) = false ∧ (s.at 9000000).limitReached x 7 = true) ∧
    (let s := deciding 0 0 id encSt0
     let x := s.stream 5
     (x.enc.previousEnded && (s.at 9000000).rowZeroDone x 0) = false ∧ x.enc.c = 0 ∧ (s.at 9000000).limitReached x 0 = true) ∧
    (let s := deciding 9 0 reorder encSt0
     let x := s.stream 5
     (x.rendition 0).structure_ = 3 ∧ x.encoding = true ∧ x.enc.decided = [] ∧ encHeld x.cls (s.levelFor x) = false ∧
     (∀ k ∈ groupOrder 9, (s.at 9000000).limitReached x k = true)) := by decide +kernel

/-! ## Device DRAM -/

/-- Two retries set, line 1 poisoned where `p`. -/
def dramS (p : Bool) : State := (s0.setFld Reg.DMC_ECC_CTRL_RETRIES 2).setPoison 1 p

/-- A read past the usable size, clean, wrong and poisoned lines, and a read that is retried for the last time and before it. -/
theorem test_met_dram_reads :
    partUsable (dramS false).part < 30 * 2 ^ 30 + 20 ∧ 100 + 20 ≤ partUsable (dramS false).part ∧ (dramS false).asserted 0 = false ∧
    (dramS false).poisoned (100 / 64) = false ∧ (dramS true).poisoned (100 / 64) = true ∧ 3 + tget 0 (dramS false).dram.errs 1 ≤ 3 ∧
    (dramS false).fld Reg.DMC_ECC_CTRL_RETRIES = 2 ∧ (s0.setFld Reg.DMC_ECC_CTRL_RETRIES 0).fld Reg.DMC_ECC_CTRL_RETRIES = 0 ∧
    (∀ k ∈ [0, 1], let s := { dramS false with dram := { (dramS false).dram with retry := [⟨3, 514, 100, 20, k⟩] } }
      (s.dram.retry.find? (fun r => r.port = 3 && r.tag = 514 && r.addr / 64 = 100 / 64)).isSome = true) := by decide +kernel

/-- Writes, upkeep, the patrol, a soft repair, the lock and the wipe. -/
theorem test_met_dram_rest :
    60 + 80 ≤ partUsable s0.part ∧ (60 : Nat) ≤ 64 * 1 ∧ 64 * 1 + 64 ≤ (60 : Nat) + 80 ∧ 15 < partChannels s0.part ∧ s0.pd 11 < 2 ∧
    (s0.setFld (Reg.DMC_CH_STATE_MULT 15) 3).fld (Reg.DMC_CH_STATE_MULT 15) = 3 ∧ multFor 20 < 3 ∧ s0.asserted 239 = false ∧
    s0.on (Reg.DMC_CH_STATE_RETRAIN_DUE 15) = false ∧
    (s0.setFld Reg.DMC_SCRUB_EN 1).on Reg.DMC_SCRUB_EN = true ∧ tget 0 s0.dram.patrol 15 + 1 < chLines ∧
    (s0.lineOfPlace (placeAt 15 0)).isSome = true ∧
    (let s := { s0.setFld Reg.DMC_ECC_CTRL_SOFT_EN 1 with dram := { Dram.reset with cands := [(2, [⟨1, 5, 3, false, false, false⟩])] } }
     s.on Reg.DMC_ECC_CTRL_SOFT_EN = true ∧ s.inService = true ∧ s.softCand 2 = some ⟨1, 5, 3, false, false, false⟩ ∧
     tget 0 s.dram.lastSoft 2 = 0) ∧
    s0.fld Reg.DMC_CTRL_LOCK = 0 ∧ mapCovers s0.regions = true ∧ mapCovers (s0.setFld (Reg.DMC_REGION_COUNT 0) 5).regions = false ∧
    (s0.setFld Reg.LCM_MODE_MODE 2).mode = 2 := by decide +kernel

/-! ## The Coop and the Drover -/

/-- A Coop with ten buffers in pool 1, 5 of which owner 7 may hold, locked and ready. -/
def coopS : State :=
  s0.setFlds [(Reg.COP_POOL2_COUNT 1, 10), (Reg.COP_CTRL_LOCK, 1), (Reg.COP_OWNER_LIMIT_MAX 7 1, 5), (Reg.COP_STATUS_READY, 1)]

/-- Its lock, READY, a request of a command that can be served, and buffers held and free. -/
theorem test_met_coop :
    (s0.fld Reg.COP_CTRL_LOCK = 0 ∧ s0.coopCfgOk = true ∧ (s0.setFld (Reg.COP_OWNER_LIMIT_MIN 7 1) 5).coopCfgOk = false) ∧
    ((coopS.setFld Reg.COP_STATUS_READY 0).on Reg.COP_CTRL_LOCK = true ∧ (coopS.setFld Reg.COP_STATUS_READY 0).fld Reg.COP_STATUS_READY = 0) ∧
    (let s := { coopS with coop := ⟨[], [], [⟨.host 77, 7, 1000, 0⟩]⟩ }
     s.on Reg.COP_STATUS_READY = true ∧ s.coopChoice 7 1000 = some (1, false)) ∧
    (let s := { coopS with coop := ⟨[(2 ^ 18 + 9, ⟨true, false, 15, 7, true⟩)], [], []⟩ }
     (s.cbuf 1 9).held = true ∧ (s.cbuf 1 9).gen = (1 + 9 * 8 + 15 * 2 ^ 21) / 2 ^ 21 % 16 ∧ (s.cbuf 1 8).held = false) := by decide +kernel

/-- Channel 2 with a job of a mode and a length, in a phase. -/
def drvS (mode len : Nat) (p : DrvPhase) : State :=
  { s0.setFlds [(Reg.DRV_CFG_MODE 2, mode), (Reg.DRV_LEN_BYTES 2, len), (Reg.DRV_SRC_LO_ADDR 2, 100), (Reg.DRV_DST_LO_ADDR 2, 130)] with
    drvs := [(2, { drv0 with phase := p, entry := some 44 })], ldg := ⟨[], [⟨.dma, false, 2, 2, 0, none⟩], 0⟩ }

/-- Channels that are free and busy, a request that can be granted, and jobs that run in device memory. -/
theorem test_met_drover :
    (∀ m ∈ [0, 1, 2, 3], (drvS m 100 .idle).drvMode 2 = m ∧ (drvS m 100 .idle).on (Reg.DRV_STATUS_BUSY 2) = false) ∧
    ((drvS 0 100 .idle).setFld (Reg.DRV_STATUS_BUSY 2) 1).on (Reg.DRV_STATUS_BUSY 2) = true ∧
    ((1 : Word).getLsbD 0 = true ∧ (1 : Word).getLsbD 1 = false ∧ (2 : Word).getLsbD 1 = true ∧ (2 : Word).getLsbD 0 = false) ∧
    (((drvS 0 100 .asked).at 9).grantBucket .dma 2 = some .general ∧ (drvS 0 100 .asked).drvCheck 2 = 0 ∧ (drvS 3 100 .asked).drvCheck 2 ≠ 0 ∧
      ((drvS 0 100 .asked).drv 2).phase = .asked) ∧
    (((drvS 0 100 .ended).drv 2).phase = .ended ∧ ((drvS 0 100 .ended).drv 2).entry = some 44) ∧
    (∀ m ∈ [0, 1, 2], ((drvS m 100 .running).drv 2).phase = .running ∧ (drvS m 100 .running).drvSrcHost 2 = false ∧
      (drvS m 100 .running).drvDstHost 2 = false ∧ (drvS m 100 .running).drvDst 2 + 100 ≤ partUsable s0.part) := by decide +kernel

/-- Reset leaves no line poisoned. -/
theorem test_met_clean : ∀ l, (drvS 2 100 .running).poisoned l = false := fun _ => rfl

/-! ## The Shepherd -/

/-- Readings of 64 sensors. -/
def temps (t : Int) (valid : Nat) : List (Option Int) := List.replicate valid (some t) ++ List.replicate (64 - valid) none

/-- Readings below 160 degrees, of too few sensors too. -/
theorem test_met_ticks : (maxTemp (s0.validTemps 0 (temps 159 64))).getD 0 = 159 ∧
    ((s0.validTemps 0 (temps 60 55)).filter (fun t => t.isSome)).length = 55 ∧ bandOf 159 = 2 ∧ bandOf 60 = 0 ∧ s0.band = 0 ∧
    (s0.setFld Reg.SHP_TEMP_BAND 2).band = 2 := by decide +kernel

/-- A band that may fall, Lathes that wake for it, a parked Lathe that is drained, and a rotation. -/
theorem test_met_bands :
    (let s := { s0.setFld Reg.SHP_TEMP_BAND 2 with shp := { s0.shp with fallSince := some 0 } }
     s.shp.fallSince = some 0 ∧ 0 < s.band ∧ atLeast1 (s.fld Reg.SHP_BAND_CFG_DWELL_MS) * 1000 ≤ max s.time 100000000 - 0) ∧
    (let s := { s0 with shp := { s0.shp with falling := true } }
     s.shp.falling = true ∧ ∀ n ∈ s.serving, s.pd (12 + n) ≤ 1) := by decide +kernel


/-- Lathe 25, a spare, parked and drained in SLEEP, and the same Lathe asleep with rotation due. -/
def parkedS : State := ((s0.setFld (pdStateF 37) 2).setFld (Reg.LTH_CTRL_DRAIN 25) 1).setMask Reg.SHP_LT_PARKED_MASK 25 true

/-- A parked Lathe that can go OFF, and one that a rotation wakes. -/
theorem test_met_parked :
    (parkedS.hasLathe 25 = true ∧ parkedS.parked 25 = true ∧ parkedS.drained 25 = true ∧ parkedS.pd (12 + 25) ≠ 3) ∧
    (parkedS.setFld (pdStateF 37) 1).pd (12 + 25) ≤ 1 ∧
    (let s := (parkedS.setFld Reg.SHP_CTRL_ROTATE_EN 1).setFld Reg.SHP_TEMP_BAND 2
     s.on Reg.SHP_CTRL_ROTATE_EN = true ∧ nLim s.part s.band < s.healthy.length ∧ s.shp.rotating = none ∧
     atLeast1 (s.fld Reg.SHP_ROTATE_ROTATE_MIN) * 60000000 ≤ max s.time 90000000000 - s.shp.rotateAt ∧
     s.coolest s.parkedAll = some 25 ∧ 2 ≤ s.pd (12 + 25)) := by decide +kernel

/-- Windows above the cap, within 5 W of it, and below it for a second; a bandwidth level that is too high. -/
theorem test_met_budgets :
    s0.capDw < 1201 ∧ s0.capDw - 49 ≤ s0.capDw ∧ s0.capDw < s0.capDw - 49 + 50 ∧ 50 ≤ s0.capDw ∧ s0.shp.falling = false ∧
    (let s := { s0.setFld Reg.SHP_SHED_BW_LEVEL 5 with shp := { s0.shp with bwSince := some 0, capSince := some 0 } }
     s.shp.bwSince = some 0 ∧ s.shp.capSince = some 0 ∧ s.bwNeed < s.fld Reg.SHP_SHED_BW_LEVEL ∧ 1000000 ≤ max s.time 1000000 - 0) := by
  decide +kernel

/-- Levels at their greatest and at reset. -/
theorem test_met_levels : LevelsInRange ({ s0.setFld Reg.SHP_SHED_BW_LEVEL 5 with shp := { s0.shp with bwSince := some 0 } }) ∧
    LevelsInRange ({ s0.setFld Reg.SHP_TEMP_BAND 2 with shp := { s0.shp with fallSince := some 0, falling := true } }) := by
  unfold LevelsInRange; decide +kernel

/-- A stream that is open, has a span or none yet, and may take lanes 3 and 4. -/
theorem test_met_migration : ∀ old ∈ [[3], []],
    let s := s0.setStream 5 { decStream with cls := 0, lanes := old, dec := { decStream.dec with cur := none } }
    let x := s.stream 5
    x.state ≠ 0 ∧ x.state ≠ 5 ∧ x.idle = true ∧ s.spanOk x [4] = true ∧ [4] ≠ x.lanes ∧ x.lanes = old := by decide +kernel

/-- A domain that the Shepherd chooses for, idle, working, and asleep. -/
theorem test_met_sleep :
    (s0.chooses 37 = true ∧ s0.busyPd 37 = false ∧ tget none s0.wakes 37 = none ∧ s0.pd 37 ≤ 1) ∧
    (s0.chooses 1 = true) ∧ (hasDomain parkedS.part 37 = true ∧ parkedS.chooses 37 = true ∧ 2 ≤ parkedS.pd 37) ∧
    (40 : Nat) ≤ max s0.time 40 + wakeUs 37 2 + s0.fld Reg.SHP_GUARD_WAKE_GUARD_US := by decide +kernel

/-- A maintenance of Lathe 3, whose step is `st`, drained. -/
def maintS (st : Nat) : State :=
  (s0.setFlds [(Reg.SHP_MAINT_STATE, st), (Reg.SHP_MAINT_LATHE, 3), (Reg.LTH_CTRL_DRAIN 3, 1)]).setLth 3 { lathe0 with ladderSince := some 0 }

/-- Maintenances that start, whose versions are held and not, that are drained, and a Lathe of the ladder that is. -/
theorem test_met_maintenance :
    (s0.hasLathe 3 = true ∧ s0.fld Reg.SHP_MAINT_START = 0 ∧ s0.role 3 ≠ 3 ∧ s0.maintOk 3 = true ∧
      (s0.setStream 5 { encWith none with version := 9, lanes := [3] }).maintOk 3 = false) ∧
    (∀ k ∈ [0, 1, 2], let v := BitVec.ofNat 32 (2 ^ 7 + 3 + k * 2 ^ Reg.SHP_MAINT_ACTION.lo)
      bitsOf v 7 1 = 1 ∧ bitsOf v Reg.SHP_MAINT_ACTION.lo Reg.SHP_MAINT_ACTION.w = k ∧ bitsOf v Reg.SHP_MAINT_LATHE.lo Reg.SHP_MAINT_LATHE.w = 3) ∧
    ((maintS 1).fld Reg.SHP_MAINT_STATE = 1 ∧ (maintS 1).fld Reg.SHP_MAINT_LATHE = 3 ∧ (maintS 1).maintOk 3 = true) ∧
    ((maintS 2).fld Reg.SHP_MAINT_STATE = 2 ∧ (maintS 2).fld Reg.SHP_MAINT_LATHE = 3 ∧ (maintS 2).drained 3 = true ∧
      (maintS 2).fld Reg.SHP_MAINT_ACTION ≠ 2 ∧ ((maintS 2).setFld Reg.SHP_MAINT_ACTION 2).fld Reg.SHP_MAINT_ACTION = 2) ∧
    (let s := (maintS 0).setMask Reg.SHP_LT_MAINT_MASK 3 true
     s.fld Reg.SHP_MAINT_STATE ≠ 2 ∧ (s.lth 3).ladderSince.isSome = true ∧ s.role 3 = 2 ∧ s.drained 3 = true) := by decide +kernel

/-! ## Canvases and heads -/

/-- A surface of 128 by 64. -/
def surfA : Surf := ⟨0x600000, 128, 64, 2, 0⟩

/-- A canvas of Inlay 0 with two surfaces. -/
def cvA : Canvas := { cv64 with cfg := putVals cv64.cfg 6 1 0 [2], inlay := some 0, surfs := [(surfA, 0x700000), (⟨0x640000, 128, 64, 2, 0⟩, 0x710000)] }

/-- Canvas 3 is v. -/
def cvS (v : Canvas) : State := (s0.setCv 3 v).setFld (Reg.INL_LB_POOL_BYTES 0) 100000

/-- An item of a layer record. -/
def item (n row : Nat) (vs : List Nat) : Item := ⟨7, row, n, vs⟩

/-- Layer n of solid colour at depth z. -/
def rec7 (n z : Nat) : LayerRec :=
  ⟨n, [item n 0 [1, 0x8000, 0, 512, 64, 64], item n 1 [0, 0, 32, 32], item n 2 [0, 0], item n 3 [32, 32], item n 4 [8], item n 7 [1], item n 9 [z]], []⟩

/-- Entry 77's commit of layer 0 and layer z. -/
def commitA (z : Nat) (fences : List (Nat × Bool)) : Commit := ⟨77, [rec7 0 0, rec7 z 1], fences, 0⟩

/-- The state with it queued. -/
def queuedS (m : Commit) : State := cvS { cvA with queue := [m] }

/-- R229 and R354: T_c of a canvas of 60 pictures a second lies at whole periods of 16,666.67 us; after a step, at the first such
point that is at least half a period after the start before it. -/
theorem test_canvas_starts : (let s := { s0 with ptpNs := 16000000 }; s.startNs cv64 = 16666666) ∧
    (let s := { s0 with ptpNs := 21000000 }; s.startNs { cv64 with startAt := 20000000 } = 33333333) ∧
    (let s := { s0 with ptpNs := 27000000 }; s.startNs { cv64 with startAt := 26000000 } = 50000000) := by decide +kernel

/-- Commit points of a canvas whose commit is applied, refused, or waits for its fence in HOLD. -/
theorem test_met_commit_points :
    (let v := (cvS cvA).cv 3
     v.inlay = some 0 ∧ v.asked = none ∧ (cvS cvA).inService = true ∧ v.switch = none ∧ v.cur = none ∧ v.delivering.length < 2 ∧
     tget 0 v.surfC v.nextSurf = 0 ∧ v.queue = []) ∧
    (∀ z ∈ [0, 1], let s := queuedS (commitA z [])
      (((s.at 9).ask .comp (s.cvLive 3) 3 3).servable .comp 3).isSome = true ∧ (s.cv 3).queue.length = 1) ∧
    ((applyRecs cvA.layers (commitA 1 []).recs []).any (fun ls => (queuedS (commitA 1 [])).stackStillOk cvA ls && (queuedS (commitA 1 [])).bufFits 0 3 ls)) = true ∧
    (applyRecs cvA.layers (commitA 0 []).recs []).isNone = true ∧
    (let s := (queuedS (commitA 1 [(5, false)])).setFld Reg.LCM_MODE_MODE 8
     s.outputsHeld = true ∧ (s.cv 3).switch = none ∧ (s.cv 3).ovr = none ∧ ((commitA 1 [(5, false)]).fences.all fun f => f.2) = false ∧
     atLeast1 (s.fld (Reg.INL_COMMIT_TIMEOUT_MS 0)) * 1000 ≤ max s.time 900000000 - 0) := by decide +kernel

/-- A picture asked for, and one in composition whose band `n` is next. -/
def askedS : State := after (.commitPoint 3 9) (queuedS (commitA 1 []))
def composing (n : Nat) : State :=
  let s := after (.compGrant 3 20) askedS
  s.setCv 3 { s.cv 3 with cur := (s.cv 3).cur.map (fun p => { p with bands := n }) }

/-- A grant, the first band and the last, a feed of an unscaled copy, a delivery, and the commit points of a picture still composed. -/
theorem test_met_composition :
    ((askedS.cv 3).inlay = some 0 ∧ (askedS.cv 3).asked = some 0 ∧ ((askedS.at 20).grantBucket .comp 3).isSome = true ∧ (askedS.cv 3).judged = true ∧
      (askedS.cv 3).ovr = none) ∧
    (∀ n ∈ [0, 3], ((composing n).cv 3).inlay = some 0 ∧ ((composing n).cv 3).cur.map (fun p => p.bands) = some n ∧ n < ((composing n).cv 3).bands ∧
      ((composing n).cv 3).switch = none ∧ (composing n).inService = true) ∧ ((composing 3).cv 3).bands = 4 ∧
    (((composing 0).setStream 5 { encWith none with canvas := 3 }).feeds 3).isSome = true ∧
    ((cvS { cvA with delivering := ((composing 3).cv 3).cur.toList }).cv 3).delivering.length = 1 ∧ (cvS { cvA with switch := some (some 2), cur := ((composing 3).cv 3).cur }).inService = true := by
  decide +kernel

/-- Canvas 3 is named by override set 2. -/
def ovrS : State := { composing 0 with ovrSets := [(2, ⟨[(3, [])], false⟩)] }

/-- A trigger and a release, written and from GPIO 5, a write of both, and a canvas with a stale layer. -/
theorem test_met_overrides :
    ((24 : Word).getLsbD 3 = true ∧ (24 : Word).getLsbD 4 = true ∧ (10 : Word).getLsbD 3 = true ∧ (10 : Word).getLsbD 4 = false ∧
      bitsOf (10 : Word) 0 3 = 2 ∧ (16 : Word).getLsbD 4 = true ∧ (16 : Word).getLsbD 3 = false) ∧
    (let s := ovrS.setFlds [(Reg.INL_OVR_CTRL_GPIO_EN, 1), (Reg.INL_OVR_CTRL_GPIO_SEL, 5), (Reg.INL_OVR_CTRL_GPIO_SET, 2),
        (Reg.INL_OVR_CTRL_GPIO_RELEASE, 1), (Reg.INL_OVR_STATUS_ACTIVE, 1)]
     s.ovrGpio 5 = true ∧ s.on Reg.INL_OVR_CTRL_GPIO_RELEASE = true ∧ s.on Reg.INL_OVR_STATUS_ACTIVE = true ∧
     (s.ovrSet 2).canvases.map (fun e => e.1) = [3] ∧ (ovrS.ovrSet 3).canvases = []) := by decide +kernel

/-- Head 1 shows canvas 1: its timing passes, and then HPD has returned. -/
def headS : State :=
  (s0.setCv 1 cvA).setFlds [(Reg.DP_HTIMING0_HTOTAL 1, 200), (Reg.DP_HTIMING0_HSYNC_START 1, 130), (Reg.DP_HTIMING1_HSYNC_WIDTH 1, 10),
    (Reg.DP_VTIMING_VSYNC_START 1, 65), (Reg.DP_VTIMING_VSYNC_WIDTH 1, 2)]
def headOn : State :=
  headS.setFlds [(Reg.DP_CTRL_ENABLE 1, 1), (Reg.DP_STATUS_HPD 1, 1), (Reg.DP_STATUS_LINK_UP 1, 1)]

/-- A head whose mode passes, one whose mode does not, and one that sends. -/
theorem test_met_heads : headS.hasHead 1 = true ∧ headS.on (Reg.DP_CTRL_ENABLE 1) = false ∧
    (headS.plainWrite (0xA8000 + 0x400 * 1) 1 0 [0]).modeOk 1 = true ∧ (s0.plainWrite (0xA8000 + 0x400 * 1) 1 0 [0]).modeOk 1 = false ∧
    headOn.on (Reg.DP_CTRL_ENABLE 1) = true ∧ headOn.on (Reg.DP_STATUS_LINK_UP 1) = true ∧ headOn.on (Reg.DP_STATUS_HPD 1) = true ∧
    headOn.on Reg.RNG_PTP_STATUS_LOCKED = false ∧ (headOn.setFld Reg.RNG_PTP_STATUS_LOCKED 1).on Reg.RNG_PTP_STATUS_LOCKED = true ∧
    (headOn.cv 1).cur = none := by decide +kernel

/-! ## Events, the Bellwether and faults -/

/-- A canvas one of whose layers has shown a picture for more than a second. -/
theorem test_met_pulses : sourcePresent s0.part 192 = true ∧ sourcePresent s0.part 255 = true ∧ tget .idle s0.evm.xing 192 = .idle ∧
    (let s := { s0.setFld Reg.EVM_GPIO_DIR_DIR 8 with evm := { s0.evm with xing := tset .idle (tset .idle [] 166 .busy) 167 .busyPending } }
     tget .idle s.evm.xing 166 ≠ .idle ∧ (s.fld Reg.EVM_GPIO_DIR_DIR).testBit 3 = true ∧ (s.fld Reg.EVM_GPIO_DIR_DIR).testBit 5 = false ∧
     tget .idle s.evm.xing (161 + 5) ≠ .busyPending ∧ tget .idle s.evm.xing (161 + 6) = .busyPending ∧ 1 < s.mode ∧
     (s.setFld Reg.LCM_MODE_MODE 1).mode = 1) ∧
    s0.on Reg.EVM_CTRL_LOCK = false ∧ (s0.setFld Reg.EVM_CTRL_LOCK 1).on Reg.EVM_CTRL_LOCK = true := by decide +kernel

/-- Crossings of a present and an absent source, a GPIO that is an output, and inputs in ABSENT and RESET. -/
theorem test_met_crossings :
    (let s := { s0 with evm := { s0.evm with xing := [(178, .busy)] } }
     tget .idle s.evm.xing 178 = .busy ∧ sourcePresent s.part 178 = false) ∧ sourcePresent s0.part 166 = true ∧
    ((s0.setFld Reg.EVM_GPIO_DIR_DIR 8).fld Reg.EVM_GPIO_DIR_DIR).testBit 3 = true ∧ (s0.fld Reg.EVM_GPIO_DIR_DIR).testBit 3 = false ∧
    (s0.setFld Reg.LCM_MODE_MODE 0).mode = 0 ∧ ((upTo 0 32).filter (fun b => (0x80000005 : Word).toNat.testBit b)) = [0, 2, 31] := by
  decide +kernel

/-- A sink of a core's event input that takes every third pulse of fence 5, and one that is not enabled. -/
theorem test_met_sinks : ∀ v ∈ [0x201C5, 0xC5], ∃ u, bitsOf v 0 8 = 192 + (if false then 32 else 0) + 5 ∧ s0.on Reg.EVM_CTRL_LOCK = false ∧
    exec (.sinkWrite (208 + 31) v) s0 = .next u ∧ FencePulses false 5 0 u u := by
  intro v h; simp only [List.mem_cons, List.not_mem_nil, or_false] at h
  rcases h with rfl | rfl <;> exact ⟨_, by decide +kernel, by decide +kernel, rfl, .none _⟩

/-- Source 9 is PENDING for the host, whose target is online, and source x of a stack. -/
def bellS : State := s0.setFlds [(Reg.BWT_SRC_CFG_STATE 9, 1), (Reg.BWT_SRC_CFG_ENABLE 9, 1), (Reg.BWT_SRC_CFG_TARGET 9, 4),
  (Reg.BWT_SRC_CFG_PRIORITY 9, 3), (Reg.BWT_TGT_STATE_OFFLINE 4, 0), (Reg.BWT_TGT_STATE_OFFLINE 1, 0)]

/-- Owners and others, claims with and without a source, ends in and out of order, and targets that go off and on. -/
theorem test_met_bellwether :
    owns .host 4 = true ∧ owns .cc1 4 = false ∧ (∀ y ∈ upTo 0 1024, s0.claimable 4 y = false) ∧ bellS.claimable 4 9 = true ∧
    (let s := { bellS with nests := tset [] [] 4 [(9, 3), (2, 1)] }
     s.stack 4 = [(9, 3), (2, 1)] ∧ bitsOf (9 : Word) 0 10 = 9 ∧ (∀ e ∈ s.stack 4, e.1 < 1024) ∧ s.offline 4 = false) ∧
    s0.stack 4 = [] ∧ maySet .host (bitsOf (200 : Word) 0 10) = true ∧ (∃ x ∈ [9, 300, 700], maySet .host x = false) ∧
    (bellS.bst 9 = 1 ∧ (bellS.setFld (Reg.BWT_SRC_CFG_TARGET 9) 1).fld (Reg.BWT_SRC_CFG_TARGET 9) ≠ 4 ∧ bitsOf (0x10043 : Word) 4 3 = 4 ∧
      bitsOf (0x10043 : Word) 16 1 = 1) ∧ (s0.setFld (Reg.BWT_TGT_STATE_OFFLINE 4) 1).offline 4 = true := by decide +kernel

/-- Source 9, whose target CC1 is offline and falls back to the host, with source 12 of the host's own. -/
def rivalS : State :=
  s0.setFlds [(Reg.BWT_SRC_CFG_STATE 9, 1), (Reg.BWT_SRC_CFG_ENABLE 9, 1), (Reg.BWT_SRC_CFG_TARGET 9, 1), (Reg.BWT_SRC_CFG_FALLBACK 9, 4),
    (Reg.BWT_SRC_CFG_PRIORITY 9, 3), (Reg.BWT_TGT_STATE_OFFLINE 4, 0), (Reg.BWT_TGT_STATE_OFFLINE 1, 1)]
def rivalS2 : State := rivalS.setFlds [(Reg.BWT_SRC_CFG_STATE 12, 1), (Reg.BWT_SRC_CFG_ENABLE 12, 1), (Reg.BWT_SRC_CFG_TARGET 12, 4)]

/-- A claim whose only source a rival takes, one that has another left, and a source of the cycle's pulses that is INACTIVE or not. -/
theorem test_met_rivals :
    (∀ y < 1024, rivalS.claimable 4 y = true → RivalTakes rivalS 4 (some 1) y) ∧ rivalS.claimable 4 9 = true ∧
    (∃ y < 1024, rivalS2.claimable 4 y = true ∧ ¬ RivalTakes rivalS2 4 (some 1) y) ∧ rivalS.bst 9 ≠ 0 ∧ rivalS.bst 12 = 0 := by
  have h : ∀ y < 1024, rivalS.claimable 4 y = true → y = 9 := by decide +kernel
  refine ⟨fun y hy hc => ?_, by decide +kernel, ⟨12, by decide, by decide +kernel, ?_⟩, by decide +kernel, by decide +kernel⟩
  · rw [h y hy hc]; exact ⟨1, rfl, by decide, by decide +kernel, by decide +kernel⟩
  · rintro ⟨r, hr, _, h12, _⟩
    cases hr
    revert h12
    decide +kernel

/-- The state with source 41's bit set, and its cause gone or its pair broken. -/
def faultS (broken : Bool) : State :=
  { s0 with flt := { s0.flt with sticky := tset false [] 41 true, latched := tset false [] 41 true, broken := if broken then tset false [] 41 true else [] } }

/-- Edges of sources that are clear, set, hold and do not; clears that act and are refused; and injection in FACTORY. -/
theorem test_met_faults :
    (∀ k ∈ [0, 323], faultPresent s0.part k = true ∧ k ≠ 115 ∧ s0.fltSticky k = false) ∧ (faultS false).fltSticky 41 = true ∧
    s0.holdSet 323 = true ∧ s0.holdSet 0 = false ∧ s0.on (fltIrq 323) = true ∧ s0.asserted 115 = false ∧
    (32 * 1 + 9 = 41 ∧ s0.fltSticky 41 = false ∧ (faultS false).cause 41 = false ∧ (faultS false).fltBroken 41 = false ∧
      (faultS true).fltBroken 41 = true ∧ tget false (faultS true).flt.latched 41 = true ∧ faultPresent s0.part 41 = true) ∧
    s0.testLife = false ∧
    (let s := s0.setFld Reg.LCM_LC_STATE 1
     s.testLife = true ∧ s.on Reg.FLT_INJECT_CTRL_ARM = false ∧
     (∀ n ∈ [0, 1, 2, 3, 4, 5, 6, 7], let v := BitVec.ofNat 32 (2 ^ 13 + 16 * 3 + n)
       v.getLsbD 13 = true ∧ bitsOf v 0 4 = n ∧ bitsOf v 4 9 = 3 ∧ s.hasLathe 3 = true ∧ faultPresent s.part 3 = true ∧ s.asserted 3 = false ∧
       s.fltSticky 3 = false) ∧
     (let u := { s with flt := { s.flt with levels := tset false [] 3 true } }
      u.asserted 3 = true ∧ u.fltBroken 3 = false ∧ faultPresent u.part 3 = true)) := by decide +kernel

/-- Sources that are absent, and clears of words with bits that go and bits that stay. -/
theorem test_met_fault_words :
    (faultPresent s0.part 320 = true ∧ (∃ k ∈ upTo 0 512, faultPresent s0.part k = false ∧ k ≠ 115)) ∧ faultPresent s0.part 5000 = false ∧
    (let s := faultS false
     s.fltSticky 41 = true ∧ s.cause 41 = false ∧ s.fltBroken 41 = false ∧ 41 / 32 = 1 ∧ (0x00000200 : Word).toNat.testBit (41 % 32) = true) ∧
    (let s := faultS true
     0 < ((upTo 0 32).filter (fun b => (0x00000200 : Word).toNat.testBit b && s.fltSticky (32 * 1 + b) &&
       (s.cause (32 * 1 + b) || s.fltBroken (32 * 1 + b)))).length) := by decide +kernel

/-! ## Starts, modes and life -/

/-- The state in mode m. -/
def inMode (m : Nat) : State := s0.setFld Reg.LCM_MODE_MODE m

/-- Inputs that come and go: the first, a later one, MOD_INHIBIT's release, the loss of one and of both. -/
theorem test_met_supplies :
    inRange12 1080 = true ∧ inRange12 1320 = true ∧ (inMode 0).mode = 0 ∧ (inMode 5).mode ≠ 0 ∧
    (let s := (inMode 0).setFld Reg.LCM_SUPPLY_A_GOOD 1
     let u := { s with life := { s.life with inhibit := true } }
     u.life.inhibit = true ∧ u.mode = 0 ∧ u.on Reg.LCM_SUPPLY_A_GOOD = true) ∧
    (let s := s0.setFlds [(Reg.LCM_SUPPLY_A_GOOD, 1), (Reg.LCM_SUPPLY_B_GOOD, 1)]
     s.on (goodOf 1) = true ∧ s.on (goodOf (1 - 1)) = true ∧ s.asserted (320 + 1) = false ∧ s.mode = 5 ∧ s.holdSet (320 + 1) = false) ∧
    (let s := s0.setFlds [(Reg.LCM_SUPPLY_A_GOOD, 0), (Reg.LCM_SUPPLY_B_GOOD, 1)]
     s.on (goodOf 1) = true ∧ s.on (goodOf (1 - 1)) = false) ∧ (999 < 1000 ∨ 1400 < 999) ∧
    (let s := s0.setFld Reg.RNG_BYPASS_STATUS_STATE 3
     3 ≤ s.bypass ∧ s.bypass ≤ 5) := by decide +kernel

/-- Bank 0 holds an image of every type, in state st. -/
def bankS (m st : Nat) : State := (inMode m).setBank 0 { (inMode m).bank 0 with state := st }

/-- RESET of a part that starts, that is retired, and that cools; CALIBRATE; LOAD without a bank that passes. -/
theorem test_met_starts :
    ((inMode 1).mode = 1 ∧ (inMode 1).life.withdrawn = false ∧ (inMode 1).fld Reg.LCM_LC_STATE ≠ 4 ∧
      ((inMode 1).setFld Reg.LCM_LC_STATE 4).fld Reg.LCM_LC_STATE = 4) ∧
    (let s := { inMode 1 with life := { (inMode 1).life with withdrawn := true, coolSince := some 0 } }
     s.mode = 1 ∧ s.life.withdrawn = true ∧ s.life.coolSince = some 0 ∧ 60000000 ≤ max s.time 60000000 - 0) ∧
    ((inMode 4).mode = 4 ∧ (∀ ch ∈ [16], partChannels (inMode 4).part ≤ ch) ∧ (∃ ch ∈ [15], ch < partChannels (inMode 4).part)) ∧
    (∀ k ∈ [0, 1], let s := inMode 3
      let r := (((s.at 9).judgeBanks).readBank 0 []).readBank 1 []
      s.mode = 3 ∧ ¬ (((r.bank k).state = 1 ∨ (r.bank k).state = 2) ∧ (if k = 0 then false else false) = true ∧ r.bankPasses k = true)) := by
  decide +kernel

/-- LCM_MODE_REQ without GO, and its requests in modes that have the transition and in modes that have not. -/
theorem test_met_requests :
    (bitsOf (0x01 : Word) 4 1 = 0) ∧ ([0x11, 0x15, 0x17, 0x18].all fun v => bitsOf v 4 1 == 1) = true ∧
    (bitsOf (0x11 : Word) 0 4 = 1 ∧ s0.mode ≠ 0 ∧ s0.mode ≠ 11 ∧ s0.bypass ≠ 4 ∧ s0.bypass ≠ 5 ∧
      (s0.setFld Reg.RNG_BYPASS_STATUS_STATE 4).bypass = 4) ∧
    (bitsOf (0x15 : Word) 0 4 = 5 ∧ (inMode 8).mode = 8 ∧ (inMode 10).mode = 10) ∧ (bitsOf (0x17 : Word) 0 4 = 7 ∧ s0.mode = 5) ∧
    (bitsOf (0x18 : Word) 0 4 = 8 ∧ s0.inService = true) ∧
    ((inMode 0).mode = 0 ∧ s0.mode ≠ 8 ∧ s0.mode ≠ 10 ∧ (inMode 8).mode ≠ 5 ∧ (inMode 8).mode ≠ 6 ∧ (inMode 8).inService = false) := by decide +kernel

/-- The maintenance hour on the second day, the end of MAINTAIN, and a HOLD that has cooled for 10 s. -/
theorem test_met_maintain :
    (let s := s0.setFld Reg.LCM_BOOT_CFG_MAINT_HOUR 23
     s.mode = 5 ∧ s.fld Reg.LCM_BOOT_CFG_MAINT_HOUR = 23 ∧ s.life.maintDay < (s.at 90000000000).ptpDay) ∧
    (let s := (inMode 7).setFld Reg.LCM_MODE_PREV 5
     s.mode = 7 ∧ (∀ q < 4, s.holdSet (232 + q) = false)) ∧
    (let s := { inMode 9 with life := { (inMode 9).life with coolSince := some 0 } }
     s.mode = 9 ∧ s.holdReq = false ∧ s.life.coolSince = some 0 ∧ 10000000 ≤ max s.time 10000000 - 0) := by decide +kernel

/-- MAINTAIN out of SERVICE meets the invariant of the modes. -/
theorem test_met_maintain_mode : ModeOk ((inMode 7).setFld Reg.LCM_MODE_PREV 5) := by unfold ModeOk; decide +kernel

/-- A bank in trial, blocks of flash, readings of a margin, and a near miss of a Lathe at work. -/
theorem test_met_life :
    (let s := { bankS 5 1 with life := { (bankS 5 1).life with servedSince := some 0 } }
     s.life.servedSince = some 0 ∧ 5 ≤ s.mode ∧ s.mode ≤ 8 ∧ (s.bank (s.fld Reg.LCM_BOOT_BANK)).state = 1 ∧
     atLeast1 (s.fld Reg.LCM_BOOT_CFG_CONFIRM_MIN) * 60000000 ≤ max s.time 100000000000 - 0) ∧
    (s0.mode ≠ 0 ∧ s0.on Reg.LCM_FLASH_SCRUB_EN = true ∧ s0.asserted 327 = false ∧ s0.asserted 326 = false) ∧
    ({ s0 with flt := { s0.flt with flash := [.failedStarts 1] } } : State).flt.flash ≠ [] ∧
    (hasDomain s0.part 37 = true ∧ 19 < s0.fld Reg.LCM_AGE_CFG_TARGET_PS ∧
      (∀ k ∈ [0, 58, 59], let s := { s0 with life := { s0.life with low := tset 0 [] 37 k } }
        tget 0 s.life.low 37 = k)) ∧
    (let s := waitingRow
     ((s.lth 3).run.any fun r => !r.done && !r.exhausted && r.stepReruns = 0) = true ∧ hasDomain s.part (12 + 3) = true) := by decide +kernel

/-! ## The ring -/

/-- A node in bypass state st, both links up. -/
def ringS (st : Nat) : State := s0.setFlds [(Reg.RNG_BYPASS_STATUS_STATE, st), (Reg.RNG_PORT_STATUS_LINK_UP 0, 1), (Reg.RNG_PORT_STATUS_LINK_UP 1, 1)]

/-- Every state of the bypass, the ring seen closed and open, waits that are over, and a link that stays down. -/
theorem test_met_bypass :
    (∀ st ∈ [0, 1, 2, 3, 4, 5, 6, 7], (ringS st).bypass = st ∧ (ringS st).mode ≠ 11 ∧ (ringS st).life.restart = none) ∧
    ((ringS 1).seenClosed 200 0 = true ∧ (ringS 2).seenClosed 200 1 = false ∧ (ringS 1).checkUs ≤ max (ringS 1).time 1000000000 - (ringS 1).ring.since) ∧
    (let s := { ringS 2 with ring := { (ringS 2).ring with closed := true } }
     s.ring.closed = true ∧
     s.fld Reg.RNG_BYPASS_CFG_INSERT_SLOT * atLeast1 (s.fld Reg.RNG_BYPASS_CFG_SLOT_100MS) * 100000 ≤ max s.time 1000000000 - s.ring.since) ∧
    ((ringS 3).bypOpen = true ∧ ((ringS 3).setFld Reg.RNG_BYPASS_CTRL_FORCE_BYPASS 1).bypOpen = false ∧ (0 : Nat) % 4 = 0) ∧
    (let s := { ringS 6 with life := { (ringS 6).life with restart := some 1 } }
     s.life.restart = some 1 ∧ s.bypass = 6) ∧
    (atLeast1 ((ringS 5).fld Reg.RNG_BYPASS_CTRL_WITHDRAW_WAIT_S) * 1000000 ≤ max (ringS 5).time 1000000000 - (ringS 5).ring.since) ∧
    (let s := (ringS 4).setFld (Reg.RNG_PORT_STATUS_LINK_UP 1) 0
     s.bypass = 4 ∧ s.linkUp 1 = false ∧
     atLeast1 (s.fld Reg.RNG_BYPASS_CTRL_LINK_WAIT_10MS) * 10000 ≤ max s.time 1000000000 - s.ring.since) := by decide +kernel

/-- Ports that come up, go down and try the other rate; Syncs of the path that lock, lose lock and keep it; and no Syncs on either path. -/
theorem test_met_links :
    (let s := (ringS 4).setFld (Reg.RNG_PORT_STATUS_LINK_UP 1) 0
     s.bypass = 4 ∧ s.linkUp 1 = false ∧ s.on (Reg.RNG_PORT_STATUS_LINK_LATE 1) = false) ∧ (ringS 4).linkUp 0 = true ∧
    (((ringS 4).setFld (Reg.RNG_PORT_STATUS_LINK_UP 1) 0).autoRate 1 = true) ∧
    (ringS 4).portSends 0 = true ∧ (ringS 4).fld Reg.RNG_PTP_STATUS_PATH = 0 ∧
    (let s := { ringS 4 with ring := { (ringS 4).ring with good := 15 } }
     s.on Reg.RNG_PTP_STATUS_LOCKED = false ∧ s.ring.everLocked = false ∧ s.ring.good = 15) ∧
    ((ringS 4).setFld Reg.RNG_PTP_STATUS_LOCKED 1).on Reg.RNG_PTP_STATUS_LOCKED = true ∧
    (let s := { ringS 4 with ring := { (ringS 4).ring with lastSync := tset 0 [] 1 5 } }
     tget 0 s.ring.lastSync 0 < tget 0 s.ring.lastSync (1 - 0)) ∧ ¬ tget 0 (ringS 4).ring.lastSync 0 < tget 0 (ringS 4).ring.lastSync (1 - 0) := by
  decide +kernel

/-- Bad frames, this node's own, multicast and unicast ones; a queue that is full; an entry that has seen the frame. -/
theorem test_met_frames :
    (ringS 4).portSends 1 = true ∧ frameBad { frame0 with fcsOk := false } = true ∧ frameBad frame0 = false ∧
    frame0.srcMac ≠ (ringS 4).nodeMac ∧ frame0.multicast = false ∧ frame0.dstMac ≠ (ringS 4).nodeMac ∧
    (let s := ((ringS 4).setFlds [(Reg.RNG_NODE_MAC_LO_MAC_LO, 2)])
     frame0.srcMac = s.nodeMac) ∧
    (let s := ((ringS 4).setFlds [(Reg.RNG_NODE_MAC_LO_MAC_LO, 3)])
     frame0.dstMac = s.nodeMac ∧ frame0.srcMac ≠ s.nodeMac) ∧
    262144 < frameBytes (List.replicate 200 { frame0 with len := 1500 }) + 100 := by decide +kernel

/-- An image of a type that passes every check of R285, with the CRC of an empty store, and a state in LOAD whose bank 0 is confirmed. -/
def imageOf (type : Nat) : Image :=
  ⟨0x444C4E52, 1, 512, type, 1, 7, 0, 0, 1, 16, 0, 0, true, true, true, true, 9, true, [0, 0, 0, 0], [0, 0, 0, 0], [⟨4, 0, 0, 0, []⟩],
    storeCrc [] [], false, []⟩
def loadS : State := (bankS 3 2).setFlds [(Reg.LCM_OTP_SIGN_VALID, 1), (Reg.LCM_OTP_IMAGE_KEYS, 1)]

/-- The microcode image's result is the store it composes. -/
theorem test_met_load_code : ∀ s : State, s.fld Reg.LCM_OTP_SIGN_VALID = 1 → s.fld Reg.LCM_OTP_SIGN_REVOKED = 0 → s.fld Reg.LCM_OTP_IMAGE_KEYS = 1 → s.part = .lmx7260 →
    s.rollback (imageOf 3) = false → s.passes 3 (imageOf 3) = true := by
  intro s h1 h2 h3 h4 h5
  have hk : s.keyOk (imageOf 3) = true := by unfold State.keyOk; rw [h1, h2]; decide +kernel
  have ht : s.tagHolds (imageOf 3) = true := by unfold State.tagHolds; rw [h3]; decide +kernel
  have hc : s.composed (imageOf 3) = ([], []) := by unfold State.composed; rw [if_neg (by decide)]; rfl
  have hr : (imageOf 3).resultCrc = storeCrc [] [] := by simp only [imageOf]
  have hi : imageCodeOk (imageOf 3) = true := by decide +kernel
  have hp : (imageOf 3).payloadOk = true ∧ (imageOf 3).type = 3 := by decide
  unfold State.passes State.imageReason
  rw [if_neg (by decide +kernel), if_neg (by decide +kernel), if_neg (by rw [h4]; decide +kernel), if_neg (by simp [hk]), if_neg (by decide +kernel), if_neg (by simp [h5]),
    if_neg (by simp [ht]), if_neg (by decide +kernel), if_neg (by simp [hi, hp]), if_neg (by simp [hp]), if_neg (by simp [hc, hr])]
  rfl

/-- LOAD with a complete bank 0 whose CONFIG image holds no record. -/
theorem test_met_load :
    let r := (((loadS.at 9).judgeBanks).readBank 0 [imageOf 1, imageOf 2, imageOf 3]).readBank 1 []
    loadS.mode = 3 ∧ (r.bank 0).state = 2 ∧ [1, 2, 3].map (fun t => ((r.bank 0).image t).map (fun i => i.type)) = [some 1, some 2, some 3] ∧
    ((r.bank 0).image 4).isNone = true ∧ [1, 2].all (fun t => r.passes t (imageOf t)) = true ∧ r.fld Reg.LCM_OTP_SIGN_VALID = 1 ∧
    r.fld Reg.LCM_OTP_SIGN_REVOKED = 0 ∧ r.fld Reg.LCM_OTP_IMAGE_KEYS = 1 ∧ r.part = .lmx7260 ∧ r.rollback (imageOf 3) = false ∧
    (∀ k < 2, (r.bank k).config.1.length = 0) := by decide +kernel

/-! ## Packets and flows -/

/-- An entry's packet, its copies on both ports' queue 232 and that of the EAST port on the wire. -/
def netE (w : Bool) : NetEnt := ⟨5, 0, 232, 7, ⟨100, 9, false, some 9⟩, true, true, w⟩
def netS (w : Bool) : State :=
  let s := ringS 4
  let p := { s.port 0 with txq := tset [] [] 232 [⟨44, 168, 0⟩], wire := some 44 }
  let q := { s.port 1 with txq := tset [] [] 232 [⟨44, 168, 0⟩], wire := some 44 }
  let s := (s.setPort 0 p).setPort 1 q
  { s with ring := { s.ring with nets := tset none [] 44 (some (netE w)) } }

/-- A port with a message, a frame, a queue with credit, a low frame and a reply first; copies that leave; a head that is too old. -/
theorem test_met_ports :
    ((ringS 4).portSends 0 = true ∧ ((ringS 4).port 0).wire.isNone = true) ∧
    (let s := (ringS 4).setPort 0 { (ringS 4).port 0 with ctl := [.supervision] }
     (s.port 0).ctl = [.supervision] ∧ (s.port 0).wire.isNone = true) ∧
    (let s := (ringS 4).setPort 0 { (ringS 4).port 0 with high := [frame0], low := [frame0], reply := [.supervision] }
     (s.port 0).ctl = [] ∧ (s.port 0).high = [frame0] ∧ (s.port 0).low = [frame0] ∧ s.residenceBound 0 < 10000000 ∧ (s.at 9).localQ 0 = none) ∧
    (let s := ((netS true).setPort 0 { (netS true).port 0 with wire := none }).setFld (Reg.RNG_TXQ_CFG0_RATE_KBPS 232) 100000
     (s.at 9).localQ 0 = some 232 ∧ (tget [] (s.port 0).txq 232).map (fun c => c.entry) = [44] ∧ (s.port 0).wire.isNone = true ∧
     (s.net 44).isSome = true) ∧
    (((netS true).port 1).wire = some 44 ∧ (netS true).net 44 = some (netE true) ∧ (netS false).net 44 = some (netE false) ∧
      (netE true).west = true ∧ (netE false).west = false) ∧
    atLeast1 ((netS true).fld (Reg.RNG_TXQ_CFG1_DROP_AGE_100US 232)) * 100 < max (netS true).time 900000000 - 0 := by decide +kernel

/-- A slice of three packets at most. -/
def slice0 : Slice := ⟨0, 1, 3, some 9, 40, [], [], false, 0⟩

/-- Stream 5's rendition goes onto queue 232 with that slice ready, its cuts, and an entry asked for. -/
def cutS (st : Nat) (cuts : List CutPkt) : State :=
  let x := encWith none
  let y := { x.rendition 0 with params := putVals (putVals rparams 8 0 0 [4]) 8 3 0 [1000], ready := [slice0] }
  let s := ((ringS st).setStream 5 { x with rend := tset rend0 [] 0 y }).setCv 0 cv64
  { s with ring := { s.ring with cuts := tset [] [] 20 cuts }, ldg := ⟨[], [⟨.net, false, 20, 20, 0, none⟩], 0⟩ }

/-- A slice to cut, a packet to number in an inserted node and in a bypassed one, and a report. -/
theorem test_met_packets :
    (let y := ((cutS 4 []).stream 5).rendition 0
     y.txq = some 232 ∧ y.ready = [slice0] ∧ (cutS 4 []).outputsHeld = false ∧ (cutS 4 []).cut 5 0 = [] ∧ slice0.picLast = false) ∧
    (∀ st ∈ [4, 1], let s := cutS st [⟨100, 9, false, some 9⟩]
      s.cut 5 0 = [⟨100, 9, false, some 9⟩] ∧ ((s.stream 5).rendition 0).txq = some 232 ∧ (s.at 9).grantBucket .net (5 * 4 + 0) = some .general ∧
      s.bypass = st ∧ s.linkUp 0 = true ∧ s.linkUp 1 = true) ∧ (cutS 4 []).isOpen 5 = true := by decide +kernel

/-- Flow 0 carries stream 5, which decodes, into pool 1; its bucket holds cbs bytes. -/
def flowS (kind cbs : Nat) : State :=
  ((ringS 4).setFlds [(Reg.COP_STATUS_READY, 1), (Reg.RNG_FLOW2_SID 0, 5), (Reg.RNG_FLOW4_CBS 0, cbs), (Reg.RNG_FLOW0_KIND 0, kind),
    (Reg.COP_POOL2_COUNT 1, 4), (Reg.COP_OWNER_LIMIT_MAX 0 1, 0xFFFF)]).setStream 5 decStream

/-- A packet that waits behind one that is missing. -/
def lateS : State :=
  let s := flowS 1 100000
  s.setFlow 0 { s.flow 0 with next := some 5, ahead := [⟨7, some 8, [1, 2, 3], false⟩] }

/-- Packets without a flow, past their rate and in their turn, stored in the buffer freed last; and an address asked for. -/
theorem test_met_arrivals :
    (flowS 0 100000).flowOf 1 0 0 0 = none ∧
    ((flowS 1 1).flowOf 1 0 0 0 = some 0 ∧ (((flowS 1 1).at 9).police 0 100).2 = false) ∧
    (let s := { flowS 1 100000 with coop := ⟨[], tset [] [] 1 [3], []⟩ }
     s.flowOf 1 packet0.vlan packet0.dstIp packet0.port = some 0 ∧ ((s.at 9).police 0 packet0.frameLen).2 = true ∧ (s.flow 0).next = none ∧
     (s.flow 0).ahead = [] ∧ s.rxOpen 0 (packet0.seq % 65536) = true ∧ packet0.accepted = true ∧ packet0.payload ≠ [] ∧ packet0.marker = false ∧
     s.on Reg.COP_STATUS_READY = true ∧ s.coop.waits = [] ∧ s.coopChoice (s.fld (Reg.RNG_FLOW2_OWNER 0)) (max 257 3) = some (1, false) ∧
     s.isOpen 5 = true ∧ (s.stream 5).dir = 0 ∧ fragKind (s.stream 5).std packet0.payload = 0 ∧ s.nextBuf 1 = 3 ∧
     s.handleAddr (handleOf 1 (s.nextBuf 1) ((s.cbuf 1 (s.nextBuf 1)).gen + 1)) + 3 ≤ partUsable s.part) ∧
    (let s := s0.setFld Reg.RNG_NODE_IP_IPV4 7
     7 = s.fld Reg.RNG_NODE_IP_IPV4 ∧ (7 : Nat) ≠ 0) := by decide +kernel

/-- A packet that waited long enough for the two before it, and a request for a refresh point. -/
theorem test_met_late_and_requests :
    ((lateS.flow 0).next = some 5 ∧ (lateS.flow 0).ahead.map (fun k => (k.seq, k.handle, k.payload, k.marker)) = [(7, some 8, [1, 2, 3], false)] ∧ lateS.isOpen 5 = true ∧
      fragKind (lateS.stream 5).std [1, 2, 3] = 0 ∧ lateS.arrivals 5 = [] ∧
      lateS.fld Reg.RNG_SAMPLE_REORDER_US ≤ max lateS.time 90000000 - (lateS.flow 0).since) ∧
    (let s := (flowS 2 100000).setStream 5 (encWith none)
     s.flowOf 2 0 0 0 = some 0 ∧ ((s.at 9).police 0 100).2 = true ∧ s.isOpen 5 = true ∧ (s.stream 5).dir = 1 ∧
     ((s.stream 5).rendition (s.fld (Reg.RNG_FLOW2_RENDITION 0))).ssrc = 0 ∧ (s.stream 5).enc.request = none) := by decide +kernel

/-- Management on, with n requests staged, failures f and a lockout u. -/
def mgmtS (n : Nat) (f : List Nat) (u : Option Nat) : State :=
  let s := s0.setFld Reg.RNG_MGMT_CFG_MGMT_EN 1
  let q := s.fld Reg.RNG_MGMT_CFG_MGMT_QP
  { s with hqs := tset hq0 [] q { hq0 with staged := List.replicate n ⟨[], none⟩ }, ring := { s.ring with fails := f, lockUntil := u } }

/-- Requests that join, find the queue full, fail for the fifteenth and the sixteenth time, and meet a lockout before and at its end. -/
theorem test_met_management :
    (mgmtS 0 [] none).on Reg.RNG_MGMT_CFG_MGMT_EN = true ∧ mgmt0.magic = 0x544D474D ∧ mgmt0.version = 1 ∧
    mgmt0.dstIp = (mgmtS 0 [] none).fld Reg.RNG_NODE_IP_IPV4 ∧ mgmt0.dstPort = (mgmtS 0 [] none).fld Reg.RNG_MGMT_CFG_MGMT_PORT ∧
    (let s := mgmtS 15 [] none
     mgmt0.tagOk = true ∧ mgmt0.keySlot = s.fld Reg.RNG_MGMT_CFG_MGMT_KEY_SLOT ∧ mgmt0.epoch = s.fld Reg.LCM_EPOCH_EPOCH ∧
     s.ring.counter < mgmt0.counter ∧ mgmt0.counter < 2 ^ 63 ∧ (s.hq (s.fld Reg.RNG_MGMT_CFG_MGMT_QP)).staged.length < 16 ∧ s.ring.lockUntil = none) ∧
    16 ≤ ((mgmtS 16 [] none).hq ((mgmtS 16 [] none).fld Reg.RNG_MGMT_CFG_MGMT_QP)).staged.length ∧
    (∀ n ∈ [14, 15], let s := mgmtS 0 (List.replicate n 5) none
      (s.ring.fails.filter (fun t => decide (max s.time 9 - t < 1000000))).length = n ∧ s.asserted 108 = false) ∧
    ((mgmtS 0 [] (some 10)).ring.lockUntil = some 10 ∧ max (mgmtS 0 [] (some 10)).time 9 < 10 ∧ 10 ≤ max (mgmtS 0 [] (some 10)).time 10) := by
  decide +kernel

/-! ## The host interface -/

/-- Queue pair 2 in state st, of 16 and 16 entries, its tail at 1, and what it has staged. -/
def hostS (st : Nat) (staged : List HStaged) : State :=
  { s0.setFlds [(Reg.HIF_Q5_STATE 2, st), (Reg.HIF_Q4_SQ_SIZE_M1 2, 15), (Reg.HIF_Q4_CQ_SIZE_M1 2, 15), (Reg.HIF_STATUS_LINK_UP, 1)] with
    hqs := tset hq0 [] 2 { hq0 with sqTail := 1, staged := staged }, ldg := ⟨[], [⟨.host, false, 2, 2, 0, none⟩], 0⟩ }

/-- A command of an opcode and its words. -/
def hostCmd (op target len p0 : Nat) (chain : Nat := 0) : List Nat :=
  [op + 256 * chain + 0x70000, target, 0x1000, 0, len, chain, p0, 0, 0, 0, 0, 0, 0, 0, 0, 0]

/-- It in flight in entry 44: what it waits for, and how it ended. -/
def flight (w : List Nat) (wait : HWait) (fin : Option HFin) : HCmd := ⟨2, w, none, 0, 0, 0, 0, 0, wait, [], fin, 0, false⟩
def inFlightS (c : HCmd) : State := { hostS 1 [] with cmds := tset none [] 44 (some c), ldg := ⟨[], [], 0⟩ }

/-- Tails and heads at the ends of their ranges, queues in each state, and a queue that has drained. -/
theorem test_met_queues :
    (hostS 1 []).isMgmt 2 = false ∧ (hostS 1 []).sqSize 2 = 16 ∧ (hostS 1 []).cqSize 2 = 16 ∧ bitsOf (15 : Word) 0 12 = 15 ∧ bitsOf (16 : Word) 0 12 = 16 ∧
    (∀ st ∈ [0, 1, 2, 3], (hostS st []).qState 2 = st) ∧ ((hostS 1 []).hq 2).cqHead = 0 ∧ (hostS 1 []).fld (Reg.HIF_Q5_CQ_TAIL 2) = 0 ∧
    ((0 + 16 - 0) % 16 ≤ (0 + 16 - 0) % 16 ∧ ¬ ((1 + 16 - 0) % 16 ≤ (0 + 16 - 0) % 16)) ∧ (0x8100F00F : Word).getLsbD 31 = true ∧
    (0 : Word).getLsbD 31 = false ∧ inFlight 2 (hostS 2 []).cmds = 0 := by decide +kernel

/-- A queue that fetches, a staged command that is granted, and completions that can be written and that cannot. -/
theorem test_met_commands :
    (hostS 1 []).fetches 2 = true ∧ (hostS 1 []).fetchable 2 = 1 ∧
    ((hostS 1 [⟨hostCmd 0 0 0 0, none⟩]).at 9).grantBucket .host 2 = some .general ∧ ((hostS 1 [⟨hostCmd 0 0 0 0, none⟩]).hq 2).staged.length = 1 ∧
    (let c := flight (hostCmd 0 0 0 0) .nothing (some okFin)
     let s := inFlightS c
     s.cmd 44 = some c ∧ c.fin = some okFin ∧ s.cplReady c = true ∧ { c with mgmt := some ⟨5, 1, 2⟩ }.mgmt = some ⟨5, 1, 2⟩ ∧
     (let u := s.setFld (Reg.HIF_Q5_CQ_TAIL 2) 15
      u.cplReady c = false ∧ atLeast1 (u.fld Reg.HIF_CFG_CPL_WAIT_MS) * 1000 ≤ max u.time 10000000 - c.since)) := by decide +kernel

/-- Vectors with events and pending bits, masked and not, awake and in D3hot; PD03's resets; BAR4 at its ends. -/
theorem test_met_vectors :
    (let s := s0.setVec 63 ⟨2, 0, true⟩
     (s.vec 63).count ≠ 0 ∧ s.fld (Reg.HIF_VEC_MOD_TIME_US 63) ≤ max s.time 100000 - (s.vec 63).since ∧ (s.vec 63).pend = true ∧
     (s0.vec 63).pend = false ∧ (s.setFld (Reg.MSIX_CTRL_MASK 63) 0).on (Reg.MSIX_CTRL_MASK 63) = false ∧
     (s.setFld (Reg.MSIX_CTRL_MASK 63) 1).on (Reg.MSIX_CTRL_MASK 63) = true) ∧ s0.d3hot = false ∧
    (s0.setFld Reg.HIF_STATUS_DSTATE 3).d3hot = true ∧ (2 : Word).getLsbD 1 = true ∧ (1 : Word).getLsbD 0 = true ∧ (1 : Word).getLsbD 1 = false ∧
    s0.on Reg.HIF_CTRL_QUIESCE = false ∧ (∀ n < 16, s0.drvHost n = false) ∧ (hostS 1 []).hostReach = true ∧
    (2 ≤ s0.mode ∧ (s0.setFld Reg.LCM_MODE_MODE 1).mode < 2) ∧ (hostS 1 []).bar4Open = true ∧ 2 ^ 32 - 3 + 3 ≤ 2 ^ 32 := by decide +kernel

/-- Every opcode that acts at once, running, on streams that are open and not. -/
theorem test_met_actions :
    (∀ op ∈ [0, 0x31, 0x21, 0x22, 0x14, 0x15, 0x11, 0x30, 0x41], let c := flight (hostCmd op 5 0 1) .nothing none
      ((inFlightS c).running 44 op).isSome = true ∧ (c.lost = false)) ∧
    (let s := { s0 with coop := ⟨[(2 ^ 18 + 9, ⟨true, false, 15, 7, true⟩)], [], []⟩ }
     let p := 1 + 9 * 8 + 15 * 2 ^ 21
     ((s.cbuf (p % 8) (p / 8 % 2 ^ 18)).held && (s.cbuf (p % 8) (p / 8 % 2 ^ 18)).gen = p / 2 ^ 21 % 16 && p % 8 < 6 && p < 2 ^ 25) = true) ∧
    (s0.setFld Reg.INL_OVR_STATUS_ACTIVE 1).on Reg.INL_OVR_STATUS_ACTIVE = true ∧ (s0.stream 5).state = 0 ∧ decStream.dir = 0 ∧ decStream.state ≠ 0 ∧
    (encWith none).dir = 1 ∧ (encWith none).state ≠ 0 ∧ decStream.idle = false ∧ (decWith none).idle = true ∧ s0.outputsHeld = false ∧
    ((encWith none).version = 0 ∧ s0.loadable 3 = false ∧ ({ s0 with manifests := [(0, some ⟨11, 2, 33, [3, 0, 0, 0], [1, 0, 0, 0], 0⟩)] } : State).loadable 3 = true) ∧
    (s0.on Reg.COP_STATUS_READY = false ∧ coopS.coop.waits = [] ∧ coopS.coopChoice 7 8388608 = none ∧ coopS.coopChoice 7 1000 = some (1, false)) ∧
    (s0.fld (Reg.LCM_FLOOR_FLOOR 0) < 3 ∧ (s0.setFld (floorLeft 0) 2).fld (floorLeft 0) ≠ 0 ∧ (s0.setFld (floorLeft 0) 0).fld (floorLeft 0) = 0) := by
  decide +kernel

/-- Versions that are refused, a stream with lanes that closes, and floors that rise, stay, and may not rise. -/
theorem test_met_changes :
    ((encWith none).version = 0 ∧ (0 : Nat) = 0 ∧ (7 : Nat) ≠ (encWith none).version ∧ s0.loadable 7 = false) ∧
    (let x := { decWith none with lanes := [3, 4] }
     x.idle = true ∧ x.state ≠ 0 ∧ ((s0.setStream 5 x).lth 3).run = none) ∧
    (let s := { s0 with life := { s0.life with running := [(2, 5)] } }
     s.fld (Reg.LCM_FLOOR_FLOOR 2) < 5 ∧ (s.lathesAll.any fun n => s.fld (Reg.SPN_SECVER_SECVER n) < 5) = true ∧
     (s0.lathesAll.any fun n => s0.fld (Reg.SPN_SECVER_SECVER n) < tget 0 s0.life.running 2) = false ∧
     tget 0 s0.life.running 0 ≤ s0.fld (Reg.LCM_FLOOR_FLOOR 0)) := by decide +kernel

/-- A parked Lathe that an access reaches, and a tick while a picture waits. -/
theorem test_met_accesses :
    (let s := parkedS.setFld (pdStateF 37) 1
     s.hasLathe 25 = true ∧ s.parked 25 = true ∧ s.drained 25 = true ∧ s.pd (12 + 25) ≤ 1) ∧
    ({ s0 with shp := { s0.shp with ready := [⟨openTask, 5, 0⟩] } } : State).shp.ready ≠ [] ∧ (s0.chooses 37 = true ∧ s0.pd 37 = 0) := by
  decide +kernel

/-- Commands with data, whose chains end well and badly, awake and in D3hot. -/
theorem test_met_reads :
    (∀ op ∈ [0x10, 0x12, 0x20, 0x40, 0x32, 0x33, 0x13], let c := flight (hostCmd op 5 64 0) .nothing none
      ((inFlightS c).running 44 op).isSome = true ∧ (inFlightS c).d3hot = false ∧ (s0.walk c.words []).1.moved = 64 ∧
      ((inFlightS c).setFld Reg.HIF_STATUS_DSTATE 3).d3hot = true ∧ cChain c.words = false) ∧
    (match (s0.walk (hostCmd 0x10 5 64 0 1) [⟨0x1000, [⟨0x1000, 1, true, false, 0⟩]⟩]).2 with | .fail _ _ => true | _ => false) = true := by
  decide +kernel

/-- A command without a chain does not fail its walk. -/
theorem test_met_walk : ∀ f a, (s0.walk (hostCmd 0x10 5 64 0) []).2 ≠ .fail f a := by
  intro f a h; rw [show s0.walk (hostCmd 0x10 5 64 0) [] = (⟨0, 64, [(0x1000, 64)]⟩, .done) from rfl] at h; cases h

/-! ## Payloads -/

/-- The bytes of an item, and of a record of a type for a target. -/
def itemBytes (i : Item) : List Nat :=
  leBytes (i.group + 2 ^ 8 * i.row + 2 ^ 16 * i.index + 2 ^ 24 * i.values.length) 4 ++ (i.values.map (fun v => leBytes v 4)).flatten
def recordBytes (type target n : Nat) (l : List Item) : List Nat :=
  let body := leBytes target 2 ++ leBytes n 2 ++ (l.map itemBytes).flatten
  let all := leBytes type 2 ++ [0, 0] ++ leBytes body.length 4 ++ body
  all ++ List.replicate ((8 - all.length % 8) % 8) 0

/-- A decode stream's items, an encode stream's, and a change of a decode stream. -/
def decItems : List Item := [⟨1, 0, 0, [0]⟩, ⟨1, 1, 0, [0]⟩, ⟨1, 2, 0, [2]⟩, ⟨1, 3, 0, [1]⟩, ⟨1, 6, 0, [450000]⟩, ⟨5, 6, 0, [64, 64, 8, 0]⟩]
def encItems : List Item :=
  [⟨1, 0, 0, [1]⟩, ⟨1, 1, 0, [0]⟩, ⟨1, 2, 0, [2]⟩, ⟨1, 3, 0, [1]⟩, ⟨1, 4, 0, [1]⟩, ⟨1, 5, 0, [0]⟩, ⟨1, 6, 0, [450000]⟩, ⟨4, 8, 0, [1]⟩,
    ⟨2, 0, 0, [0, 0, 0]⟩, ⟨2, 1, 0, [0]⟩, ⟨2, 2, 0, [0]⟩, ⟨2, 3, 0, [1]⟩, ⟨2, 4, 0, [8, 0]⟩, ⟨2, 5, 0, [0]⟩, ⟨2, 6, 0, [1]⟩, ⟨2, 7, 0, [0]⟩, ⟨2, 9, 0, [0]⟩,
    ⟨3, 1, 0, [8000000]⟩]

/-- INGEST's bytes in two pieces, and the payloads of STREAM_OPEN, its fields accepted, refused and not whole. -/
theorem test_met_payloads :
    (let c := flight (hostCmd 0x32 0 4 0x2000) (.data 4 okFin) none
     (inFlightS c).cmd 44 = some c ∧ cOpcode c.words = 0x32 ∧ cDev c.words + c.moved + 4 ≤ partUsable s0.part) ∧
    parseStream 5 [1, 2, 3] = none ∧
    ((parseStream 5 (recordBytes 5 5 0 decItems)).map (fun p => p.1) = some 5 ∧ ((draft decItems).any fun y => y.dir = 0 && s0.decodeReason y = 0 && s0.streamHolds y) = true) ∧
    ((draft (decItems.map fun i => if i.group = 5 then { i with values := [8, 8, 8, 0] } else i)).any fun y => y.dir = 0 && s0.decodeReason y ≠ 0) = true ∧
    ((parseStream 5 (recordBytes 5 5 0 encItems)).map (fun p => p.1) = some 5 ∧
      ((draft (encItems.map fun i => if i.group = 2 ∧ i.row = 0 then { i with values := [0, 5, 0] } else i)).any fun y =>
        y.dir = 1 && s0.encodeFin y = some (admission 2)) = true) ∧
    ((parseStream 6 (recordBytes 6 5 0 [⟨5, 0, 0, [2]⟩])).any fun p => p.1 = 5 && p.2.all (changeItem decStream 1)) = true := by decide +kernel

/-- Where the limits of a level hold, AUTO names a level (R70). -/
theorem auto_level_holds (h : ∀ std l tier facts, Config.levelFits std l tier facts = true) (s : State) (x : Stream) (hl : (x.rendition 0).level = 0)
    (hs : (x.rendition 0).std = 0) : s.levelHolds x 0 = true := by
  have hf : ∀ tier, s.levelFits x 0 10 tier = true := fun _ => by unfold State.levelFits; rw [if_neg (by decide)]; exact h _ _ _ _
  have ha : autoLevels 0 = (10, 0) :: (autoLevels 0).tail := by decide
  have hs2 : s.signalledLevel x 0 = some (10, 0) := by
    unfold State.signalledLevel
    simp only [hl, hs, if_pos]
    rw [ha, List.find?_cons_of_pos (by exact hf 0)]
  unfold State.levelHolds
  rw [hs2]
  simp [hs, hf, levelOk, levelTop]

/-- Where the limits of a level hold (they are Config's: R70), an encode stream opens. -/
theorem test_met_encode_open (h : ∀ std l tier facts, Config.levelFits std l tier facts = true) :
    ∃ y, draft encItems = some y ∧ y.dir = 1 ∧ (s0.setCv 0 cv64).encodeFin y = none := by
  have hd : (draft encItems).any (fun y => y.dir = 1 && y.rends = 1 && (y.rendition 0).level = 0 && (y.rendition 0).std = 0 &&
      (s0.setCv 0 cv64).kindReason y = 0 && (y.rendition 0).qpHolds && (s0.setCv 0 cv64).streamHolds y &&
      sizeOk ((s0.setCv 0 cv64).rendW y 0) ((s0.setCv 0 cv64).rendH y 0) &&
      rateOk ((s0.setCv 0 cv64).rendW y 0) ((s0.setCv 0 cv64).rendH y 0) (y.rendPeriod 0) &&
      depthEnc (y.rendition 0).std (y.rendition 0).chroma (y.rendition 0).depth &&
      profileAllows (y.rendition 0).std (y.rendition 0).profile (y.rendition 0).chroma (y.rendition 0).depth &&
      !overCapacity (s0.setCv 0 cv64).part ((s0.setCv 0 cv64).rendW y 0 * (s0.setCv 0 cv64).rendH y 0) (y.rendPeriod 0)
        (workRate 1 (y.rendition 0).std (y.rendition 0).effort) (factor16 (y.rendition 0).depth (y.rendition 0).chroma)) = true := by decide +kernel
  obtain ⟨y, hy, hd⟩ := (Option.any_eq_true _ _).mp hd
  simp only [Bool.and_eq_true, decide_eq_true_eq, Bool.not_eq_true'] at hd
  obtain ⟨⟨⟨⟨⟨⟨⟨⟨⟨⟨⟨h1, h2⟩, h3⟩, h4⟩, h5⟩, h6⟩, h7⟩, h8⟩, h9⟩, h10⟩, h11⟩, h12⟩ := hd
  have hl := auto_level_holds h (s0.setCv 0 cv64) y h3 h4
  have hu : upTo 0 1 = [0] := by decide
  refine ⟨y, hy, h1, ?_⟩
  unfold State.encodeFin State.encodeReason Stream.someBad
  simp [h2, hu, hl, h5, h6, h7, h8, h9, h10, h11]
  exact h12

/-- A commit of two layers for canvas 3, whose queue has one place left. -/
theorem test_met_commit_payload :
    let l := recordBytes 4 3 0 (rec7 0 0).items ++ [0, 0] ++ recordBytes 4 3 1 (rec7 1 1).items ++ [0, 0]
    ((parseCommit 3 2 l).any fun r => r.map (fun x => x.layer) = [0, 1] && !r.any (fun x => (layerOf x.layer x.items).isNone)
      && (applyRecs cvA.layers r []).any ((cvS cvA).stackOk cvA 2)) = true ∧
    ((cvS cvA).cv 3).inlay = some 0 ∧ (List.replicate 7 (commitA 1 [])).length < 8 := by decide +kernel

/-- Reads that time out with and without a retry left, of a command, of a queue and of a Drover channel. -/
theorem test_met_timeouts :
    (let c := flight (hostCmd 0x32 0 4 0x2000) (.data 4 okFin) none
     (inFlightS c).cmd 44 = some c ∧ c.reading = true ∧ c.tries < ((inFlightS c).setFld Reg.HIF_CFG_RD_RETRY 1).fld Reg.HIF_CFG_RD_RETRY ∧
     ((inFlightS c).setFld Reg.HIF_CFG_RD_RETRY 0).fld Reg.HIF_CFG_RD_RETRY ≤ c.tries) ∧
    ((hostS 1 []).qState 2 = 1 ∧ (hostS 1 []).fetchable 2 ≠ 0 ∧ ((hostS 1 []).hq 2).tries = 0) ∧
    (let s := { (drvS 0 100 .running).setFlds [(Reg.DRV_CFG_SRC_HOST 2, 1)] with pmeEn := false }
     s.drvReading 2 = true ∧ s.drvSrcHost 2 = true ∧ s.drvMode 2 ≠ 2) := by decide +kernel

/-- An image that IMAGE_LOAD takes, and one of another type. -/
theorem test_met_images :
    (let s := s0.setFlds [(Reg.LCM_OTP_SIGN_VALID, 1), (Reg.LCM_OTP_IMAGE_KEYS, 1)]
     s.imageReason (imageOf 2) 2 528 = 0 ∧ (imageOf 2).type = 2 ∧ s.mode ≠ 11 ∧ s.imageReason (imageOf 2) 1 528 ≠ 0) := by decide +kernel

end Sys2Proof.Tests
end

section
/-!
PROOFS. What a write by access codes leaves in a register's fields (R7, R8), and the statements on register writes, snapshots, locks
and wakes.
-/
namespace Sys2Proof.Machine

open Sys2Proof Sys2Proof.Laws

/-! ## Fields written by software -/

@[simp] theorem fld_swSet (s : State) (f g : Fld) (v : Nat) : (s.swSet f v).fld g = (s.setFld f v).fld g := by
  unfold State.swSet
  dsimp only
  split <;> rfl

/-- Where PD02 keeps no copy, software sets a field and nothing else. -/
theorem swSet_of_not_restored (s : State) {f : Fld} (v : Nat) (h : restored f.a = false) : s.swSet f v = s.setFld f v := by
  simp [State.swSet, h]

/-- Where PD02 keeps a copy, that copy changes with the field. -/
theorem OnlyRegs.swSet (s : State) (f : Fld) (v : Nat) :
    OnlyRegs { s with restore := (s.swSet f v).restore } (s.swSet f v) [f] [] := by
  unfold State.swSet
  dsimp only
  split
  · exact ((OnlyRegs.refl { s with restore := tset 0 s.restore f.key (v % 2 ^ f.w + 1) } [f] []).setFld f v (by simp) :)
  · exact (OnlyRegs.refl s [f] []).setFld f v (by simp)

/-- A lock bit whose bit of the word is 1 reads 1 (R7). -/
theorem lockBit_of_one (s : State) (f : Fld) (v : Word) (b : Nat) (h : bitsOf v b 1 = 1) : s.lockBit f v b = s.swSet f 1 := if_pos h

/-! ## The fields of a register (R7, R8) -/

theorem fieldAt_key (a : Nat) (f : RegField) : (fieldAt a f).key = a * 32 + f.lo := rfl

/-- A field takes its part of a word by its access code. -/
theorem fld_writeField_same (s : State) (a : Nat) (v hw : Word) (lock : Bool) (f : RegField) :
    (s.writeField a v hw lock f).fld (fieldAt a f) = written f lock v hw (s.fld (fieldAt a f)) := by
  have hb : ∀ x : Word, bitsOf x f.lo f.w < 2 ^ f.w := fun x => Nat.mod_lt _ (Nat.two_pow_pos _)
  have hw' : (fieldAt a f).w = f.w := rfl
  unfold State.writeField written
  dsimp only
  cases f.acc with
  | rw => simp [hw', Nat.mod_eq_of_lt (hb v)]
  | rwl => cases lock <;> simp [hw', Nat.mod_eq_of_lt (hb v)]
  | w1c =>
    have hle : s.fld (fieldAt a f) &&& (2 ^ f.w - 1 - bitsOf v f.lo f.w) < 2 ^ f.w :=
      Nat.lt_of_le_of_lt Nat.and_le_right (by have := Nat.two_pow_pos f.w; omega)
    simp [State.orFld, State.clrFld, hw', Nat.mod_eq_of_lt (hb v), Nat.mod_eq_of_lt hle]
  | ro => rfl
  | w1s => rfl
  | wo => rfl

/-- A write of one field leaves every field at another place. -/
theorem fld_writeField_other (s : State) (a : Nat) (v hw : Word) (lock : Bool) (f : RegField) (g : Fld)
    (h : g.key ≠ (fieldAt a f).key) : (s.writeField a v hw lock f).fld g = s.fld g := by
  have set (x : State) (y : Nat) : (x.setFld (fieldAt a f) y).fld g = x.fld g := fld_setFld_other _ _ _ _ h
  unfold State.writeField
  dsimp only
  cases f.acc with
  | rw => simp [set]
  | rwl => cases lock <;> simp [set]
  | w1c => simp [State.orFld, State.clrFld, set]
  | ro => rfl
  | w1s => rfl
  | wo => rfl

/-- A write of fields leaves every field at another place. -/
theorem fld_writeFields_other (s : State) (a : Nat) (v hw : Word) (lock : Bool) (l : List RegField) (g : Fld)
    (h : ∀ f ∈ l, g.key ≠ (fieldAt a f).key) : (s.writeFields a v hw lock l).fld g = s.fld g := by
  induction l generalizing s with
  | nil => rfl
  | cons f r ih =>
    rw [State.writeFields, ih _ (fun x hx => h x (List.mem_cons_of_mem _ hx)),
      fld_writeField_other _ _ _ _ _ _ _ (h f (List.mem_cons_self ..))]

/-- Each field of a register takes its part, whatever the others take: their lowest bits differ. -/
theorem fld_writeFields_mem (s : State) (a : Nat) (v hw : Word) (lock : Bool) (l : List RegField) (f : RegField)
    (hl : (l.map RegField.lo).Nodup) (hf : f ∈ l) :
    (s.writeFields a v hw lock l).fld (fieldAt a f) = written f lock v hw (s.fld (fieldAt a f)) := by
  induction l generalizing s with
  | nil => simp at hf
  | cons x r ih =>
    obtain ⟨hx, hr⟩ := List.nodup_cons.1 hl
    have hlo : ∀ y ∈ r, x.lo ≠ y.lo := fun y hy e => hx (e ▸ List.mem_map_of_mem hy)
    rw [State.writeFields]
    rcases List.mem_cons.1 hf with rfl | hf
    · rw [fld_writeFields_other _ _ _ _ _ _ _ (fun y hy => by have := hlo y hy; simp only [fieldAt_key]; omega), fld_writeField_same]
    · rw [ih _ hr hf, fld_writeField_other _ _ _ _ _ _ _ (by have := hlo f hf; simp only [fieldAt_key]; omega)]

theorem Frame.writeField {b s : State} {fs : List Fld} {cs : List Nat} (h : Frame b s fs cs) {a : Nat} (v hw : Word) (lock : Bool)
    (f : RegField) (ha : restored a = false) (hf : fieldAt a f ∈ fs) : Frame b (s.writeField a v hw lock f) fs cs := by
  have ha' : restored (fieldAt a f).a = false := ha
  unfold State.writeField
  dsimp only
  cases f.acc with
  | rw => exact swSet_of_not_restored s _ ha' ▸ h.setFld _ _ (Or.inl hf)
  | rwl =>
    cases lock with
    | true => exact h
    | false => exact swSet_of_not_restored s _ ha' ▸ h.setFld _ _ (Or.inl hf)
  | w1c => exact (h.setFld _ _ (Or.inl hf)).setFld _ _ (Or.inl hf)
  | ro => exact h
  | w1s => exact h
  | wo => exact h

/-- A write of fields of which PD02 keeps no copy changes those fields and nothing else. -/
theorem Frame.writeFields {b s : State} {fs : List Fld} {cs : List Nat} (h : Frame b s fs cs) {a : Nat} (v hw : Word) (lock : Bool)
    (l : List RegField) (ha : restored a = false) (hl : ∀ f ∈ l, fieldAt a f ∈ fs) : Frame b (s.writeFields a v hw lock l) fs cs := by
  induction l generalizing s with
  | nil => exact h
  | cons f r ih =>
    exact ih (h.writeField v hw lock f ha (hl f (List.mem_cons_self ..))) (fun x hx => hl x (List.mem_cons_of_mem _ hx))

/-- Without fields to skip, each field of the register takes its part. -/
theorem plainWrite_all (s : State) (a : Nat) (v hw : Word) :
    s.plainWrite a v hw = s.writeFields a v hw (s.locked a) (regFields a) := by
  have all : (regFields a).filter (fun f => !([] : List Nat).contains f.lo) = regFields a := List.filter_eq_self.2 (fun _ _ => rfl)
  rw [State.plainWrite, all]

/-- The fields of a register are those of a row of its window's table, or none. -/
theorem rowFields_eq (o : Nat) (l : List RegRow) : rowFields o l = [] ∨ ∃ r ∈ l, rowFields o l = r.fields := by
  induction l with
  | nil => exact Or.inl rfl
  | cons r q ih =>
    rw [rowFields]
    split
    · exact Or.inr ⟨r, List.mem_cons_self .., rfl⟩
    · exact ih.imp id (fun ⟨x, hx, e⟩ => ⟨x, List.mem_cons_of_mem _ hx, e⟩)

/-- New edges of fault sources change what faults reach, and nothing else. -/
theorem Frame.newEdges {b s : State} {fs : List Fld} {cs : List Nat} (h : Frame b s fs cs) (s0 : State) (l : List Nat) :
    Frame b (s.newEdges s0 l) fs cs := by
  induction l generalizing s with
  | nil => exact h
  | cons k r ih =>
    rw [State.newEdges]
    split
    · exact ih (h.faultEdge k false)
    · exact ih h

/-! ## The window of the DRAM controller -/

section Dmc

variable {a : Nat} (ha : a / 0x10000 = 9)
include ha

theorem domainOf_dmc : domainOf a = none := by simp [domainOf, ha]

theorem restored_dmc : restored a = false := by simp [restored, domainOf_dmc ha]

theorem absentAt_dmc (s : State) : s.absentAt a = false := by simp [State.absentAt, ha]

theorem locked_dmc (s : State) : s.locked a = s.on Reg.DMC_CTRL_LOCK := by simp [State.locked, lockOf, ha]

theorem peakAt_dmc : peakAt a = none := by simp [peakAt, ha]

theorem cntCtrl_dmc (h : a ≠ 0x90480) : cntCtrl a = none := by
  unfold cntCtrl
  repeat rw [if_neg (by omega)]

/-- What holds of the fields of each row of the window's table holds of those of each register. -/
theorem regFields_dmc (P : List RegField → Prop) (h0 : P []) (rows : ∀ r ∈ dmcRows, P r.fields) : P (regFields a) := by
  have e : regFields a = rowFields (a - 0x90000) dmcRows := by simp [regFields, winRows, ha]
  rw [e]
  rcases rowFields_eq (a - 0x90000) dmcRows with h | ⟨r, hr, h⟩
  · exact h ▸ h0
  · exact h ▸ rows r hr

theorem regFields_nodup_dmc : ((regFields a).map RegField.lo).Nodup :=
  regFields_dmc ha (fun l => (l.map RegField.lo).Nodup) (by decide) (by decide)

theorem lo_lt_dmc : ∀ f ∈ regFields a, f.lo < 32 :=
  regFields_dmc ha (fun l => ∀ f ∈ l, f.lo < 32) (by decide) (by decide)

/-- No event or fault changes a field of the window. -/
theorem eventField_dmc (f : RegField) (hf : f ∈ regFields a) : eventField (fieldAt a f).key = false := by
  have h32 := lo_lt_dmc ha f hf
  have e : (fieldAt a f).key / 32 = a := by rw [fieldAt_key]; omega
  have h1 : a ≠ 0x30004 := by omega
  have h2 : a ≠ 0x10004 := by omega
  simp [eventField, e, ha, h1, h2]

theorem winWrite_dmc (s : State) (rq : Requester) (v hw : Word) (h0 : a ≠ 0x90000) : s.winWrite rq a v hw = s.plainWrite a v hw := by
  have ho : a % 0x10000 ≠ 0 := by omega
  have e : 0x90000 + a % 0x10000 = a := by omega
  simp [State.winWrite, ha, State.dmcWrite, ho, e]

/-- A write in the window is a write by access codes, and the edges of the bits that hardware sets in its cycle. -/
theorem exec_regWrite_dmc (s : State) (rq : Requester) (v hw : Word) (h4 : a % 4 = 0) (hm : mapped a = true) (h0 : a ≠ 0x90000)
    (hc : a ≠ 0x90480) :
    exec (.regWrite rq a v hw) s = .next (if hw = 0 then s.plainWrite a v hw else (s.plainWrite a v hw).newEdges s (upTo 0 512)) := by
  simp [exec, execRegWrite, State.asleepAt, domainOf_dmc ha, State.busWrite, absentAt_dmc ha, h4, hm, winWrite_dmc ha s rq v hw h0,
    cntCtrl_dmc ha hc, peakAt_dmc ha]

end Dmc

/-- Settles O11: the write goes field by field, and the edges that follow touch no field of the window. -/
theorem registerWriteFollowsAccessCodes : Obligations.RegisterWriteFollowsAccessCodes := by
  intro s rq a v hw ha h4 hm h0 hc
  have hfr : Frame s (s.plainWrite a v hw) ((regFields a).map (fieldAt a)) [] := by
    rw [plainWrite_all]
    exact (Frame.refl s _ _).writeFields v hw _ _ (restored_dmc ha) (fun f hf => List.mem_map_of_mem hf)
  have hval : ∀ f ∈ regFields a, (s.plainWrite a v hw).fld (fieldAt a f) =
      written f (s.on Reg.DMC_CTRL_LOCK) v hw (s.fld (fieldAt a f)) := fun f hf => by
    rw [plainWrite_all, fld_writeFields_mem _ _ _ _ _ _ f (regFields_nodup_dmc ha) hf, locked_dmc ha]
  refine ⟨_, exec_regWrite_dmc ha s rq v hw h4 hm h0 hc, ?_⟩
  split
  · exact ⟨hval, hfr⟩
  · refine ⟨fun f hf => ?_, hfr.newEdges s _⟩
    have edges := Frame.newEdges (Frame.refl (s.plainWrite a v hw) [] []) s (upTo 0 512)
    rw [edges.flds _ (eventField_dmc ha f hf) (by simp), hval f hf]

end Sys2Proof.Machine
end

section
/-!
PROOFS. The read of a counter's low word, with the snapshot that it takes for its requester (R10).
-/
namespace Sys2Proof.Machine

open Sys2Proof Sys2Proof.Laws

@[simp] theorem snap_answer (s : State) (rq r : Requester) (a v x : Nat) : (s.answer rq a v).snap r x = s.snap r x := rfl

/-- A snapshot reads back for its requester. -/
@[simp] theorem snap_setSnap_same (s : State) (rq : Requester) (a v : Nat) : (s.setSnap rq a v).snap rq a = v :=
  tget_tset_same ..

/-- A snapshot leaves those of every other requester. -/
theorem snap_setSnap_other (s : State) (rq r : Requester) (a v x : Nat) (hr : r ≠ rq) (ha : a < 2 ^ 28) (hx : x < 2 ^ 28) :
    (s.setSnap rq a v).snap r x = s.snap r x := by
  have hix : rqIx r ≠ rqIx rq := by
    revert hr
    cases r <;> cases rq <;> decide
  exact tget_tset_other _ _ _ _ _ _ (by omega)

/-! ## Where counters lie -/

theorem within_iff {o a n : Nat} : within o a n = true ↔ a ≤ o ∧ o < a + n := by simp [within]

/-- The bounds of a range of 64-bit words part no word's halves. -/
theorem within_add_four {o a n : Nat} (ho : o % 8 = 0) (ha : a % 8 = 0) (hn : n % 8 = 0) : within (o + 4) a n = within o a n := by
  rw [Bool.eq_iff_iff, within_iff, within_iff]
  omega

/-- A counter's high word lies behind its low word. -/
theorem counterAt_high {a : Nat} (h8 : a % 8 = 0) : counterAt (a + 4) = counterAt a := by
  have hw : (a + 4) / 0x10000 = a / 0x10000 := by omega
  have ho : (a + 4) % 0x10000 = a % 0x10000 + 4 := by omega
  have hd : (a % 0x10000 + 4) % 0x400 = a % 0x10000 % 0x400 + 4 := by omega
  have hp : decide ((a % 0x10000 + 4) % 0x100 < 0x60) = decide (a % 0x10000 % 0x100 < 0x60) := by
    rw [decide_eq_decide]
    omega
  have o8 : a % 0x10000 % 8 = 0 := by omega
  have d8 : a % 0x10000 % 0x400 % 8 = 0 := by omega
  simp only [counterAt, hw, ho, hd, hp, within_add_four o8, within_add_four d8, Nat.reduceMod]

theorem counterAt_lt {a : Nat} (h : counterAt a = true) : a < 0x2A0000 := by
  refine Nat.lt_of_not_le fun hle => ?_
  unfold counterAt at h
  repeat rw [if_neg (by omega)] at h
  exact Bool.noConfusion h

theorem not_imageAt_of_lt {a : Nat} (h : a < 0xC00000) : imageAt a = false := by
  simp only [imageAt, decide_eq_false (Nat.not_le.2 h), Bool.false_and]

/-- A read of a counter's low word has no effect of its own. -/
theorem busRead_counter (s : State) (rq : Requester) {a : Nat} (hc : counterAt a = true) (h8 : a % 8 = 0)
    (hp : s.absentAt a = false) : s.busRead rq a = s.plainRead rq a := by
  have h3 : ¬ (a / 0x10000 = 3 ∧ within (a % 0x10000) 0x200 0x200 = true ∧ a % 0x10000 % 8 = 0) := by
    rintro ⟨hw, ho, -⟩
    simp [counterAt, hw, within_iff] at hc ho
    omega
  have h4 : ∀ o n, o + n ≤ 0x4200 → ¬ (a / 0x10000 = 4 ∧ within (a % 0x10000) o n = true) := by
    rintro o n hn ⟨hw, ho⟩
    simp [counterAt, hw, within_iff] at hc ho
    omega
  have hm : mapped a = true := by simp [mapped, hc]
  unfold State.busRead
  dsimp only
  rw [if_neg (by simp [hp]), if_neg (by simp [hm]; omega), if_neg h3, if_neg (fun h => h4 _ _ (by decide) ⟨h.1, h.2.1⟩),
    if_neg (h4 _ _ (by decide)), if_neg (h4 _ _ (by decide))]

/-! ## Accesses to domains that are awake -/

/-- A domain that is ON needs no wake. -/
theorem wakeFor_on (s : State) (d need : Nat) (l : List Access) (h : s.pd d = 0) : s.wakeFor d need l = s := by
  simp [State.wakeFor, h]

/-- An access performs at once where its domain, if it has one, is ON. -/
theorem access_awake (s : State) (x : Access) (h : ∀ d, domainOf x.addr = some d → s.pd d = 0) : s.access x = s.perform x := by
  unfold State.access State.asleepAt
  cases hd : domainOf x.addr with
  | none => simp
  | some d => simp [h d hd, wakeFor_on]

/-- The host sees the machine from the end of LOAD on (R434). -/
theorem seenBy_loaded (s : State) (rq : Requester) (h : rq = .host → 5 ≤ s.mode) : s.seenBy rq = s := by
  unfold State.seenBy
  rw [if_neg]
  rintro ⟨hr, -, h4⟩
  have := h hr
  omega

/-- Settles O12: the read answers the low word and keeps the high one under the requester's own key. -/
theorem snapshotReadIsPerRequester : Obligations.SnapshotReadIsPerRequester := by
  intro s rq a hc h8 hp hd hm
  have ha := counterAt_lt hc
  have hi : imageAt a = false := not_imageAt_of_lt (by omega)
  have hi4 : imageAt (a + 4) = false := not_imageAt_of_lt (by omega)
  have hsee := seenBy_loaded s rq hm
  have low : s.readWord rq a = s.cnt a % 2 ^ 32 := by
    simp [State.readWord, hp, mapped, hc, fromSnap, hi, h8, hsee, State.nowWord]
  have high : s.nowWord (a + 4) = s.cnt a / 2 ^ 32 % 2 ^ 32 := by
    have e : (a + 4) % 8 = 4 := by omega
    simp [State.nowWord, hi4, counterAt_high h8, hc, e]
  have words : snapWords a = [a + 4] := by simp [snapWords, hi, hc, h8, upTo]
  have run : exec (.snapshotRead rq a) s =
      .next ((s.setSnap rq (a + 4) (s.cnt a / 2 ^ 32 % 2 ^ 32)).answer rq a (s.cnt a % 2 ^ 32)) := by
    simp [exec, execSnapshotRead, words, access_awake s ⟨rq, a, none⟩ hd, State.perform, busRead_counter s rq hc h8 hp,
      State.plainRead, low, hp, State.takeSnaps, snapKey, hi4, hsee, high]
  refine ⟨_, run, ?_, ?_, fun r x hr hx => ?_, rfl⟩
  · simp only [State.answer]
    congr 2
    exact BitVec.eq_of_toNat_eq (by simp)
  · simp
  · rw [snap_answer]
    exact snap_setSnap_other s rq r _ _ x hr (by omega) hx

end Sys2Proof.Machine
end

section
/-!
PROOFS. Lock bits (R7, R9) and the check of the ledger's minima (R36).
-/
namespace Sys2Proof.Machine

open Sys2Proof Sys2Proof.Laws

/-- A lock bit of which PD02 keeps no copy is set, and nothing else. -/
theorem lockBit_sets (s : State) (f : Fld) (v : Word) (h : bitsOf v 0 1 = 1) (hw : f.w = 1) (hr : restored f.a = false) :
    (s.lockBit f v 0).fld f = 1 ∧ OnlyRegs s (s.lockBit f v 0) [f] [] := by
  rw [lockBit_of_one s f v 0 h, swSet_of_not_restored s 1 hr]
  exact ⟨by simp [hw], (OnlyRegs.refl s [f] []).setFld f 1 (by simp)⟩

/-- A write of the row named after it acts at once where its domain is ON. -/
theorem onWrite_awake (s : State) (rq : Requester) (a : Nat) (v : Word) (f : State → State) {d : Nat} (hd : domainOf a = some d)
    (h : s.pd d = 0) : s.onWrite rq a v f = f s := by
  simp [State.onWrite, State.asleepAt, hd, h, wakeFor_on]

/-- The domain of an Inlay's own registers. -/
theorem domainOf_inlCtrl {i : Nat} (h : i < 2) : domainOf (0xA0004 + 0x10000 * i) = some (6 + i) := by
  have hi : i = 0 ∨ i = 1 := by omega
  rcases hi with rfl | rfl
  · rfl
  · rfl

theorem hasInlay_lt {s : State} {i : Nat} (h : s.hasInlay i = true) : i < 2 := by
  have : partInlays s.part ≤ 2 := by cases s.part <;> decide
  simp only [State.hasInlay, decide_eq_true_eq] at h
  omega

/-- An Inlay's lock, in a domain that is ON: the word's bit reaches the lock. -/
theorem exec_regLock_inl (s : State) (i : Nat) (v : Word) (hi : s.hasInlay i = true) (hp : s.pd (6 + i) = 0) :
    exec (.regLock (.inl i) v) s = .next (s.lockBit (Reg.INL_CTRL_LOCK i) v 0) := by
  simp [exec, execRegLock, hi, onWrite_awake _ _ _ _ _ (domainOf_inlCtrl (hasInlay_lt hi)) hp, State.inlWrite]

/-! ## The ledger's lock -/

/-- The minima fit the ledger, and each class's live part its minimum (R36). -/
def State.minimaFit (s : State) : Prop := s.lgrMinSum ≤ 131072 ∧ ∀ c ∈ allCls, s.lgrLive c ≤ s.lgrMin c

theorem ldgLock_of_fit (s : State) (also : List (Nat × Word)) {s' : State}
    (e : s' = s.plainWrites (also.filter (fun w => w.1 / 0x10000 = 64))) (h0 : s'.fld Reg.LGR_CTRL_LOCK = 0) (h : s'.minimaFit) :
    s.ldgLock also = ((s'.setFld Reg.LGR_CTRL_LOCK 1).setFld Reg.LGR_STATUS_CFG_ERR 0).judge := by
  obtain ⟨hsum, hlive⟩ := h
  subst e
  unfold State.ldgLock
  dsimp only
  rw [if_neg (by simp [State.on, h0]), if_pos ⟨hsum, by simpa using hlive⟩]
  rfl

theorem ldgLock_of_not_fit (s : State) (also : List (Nat × Word)) {s' : State}
    (e : s' = s.plainWrites (also.filter (fun w => w.1 / 0x10000 = 64))) (h0 : s'.fld Reg.LGR_CTRL_LOCK = 0) (h : ¬ s'.minimaFit) :
    s.ldgLock also = (s'.setFld Reg.LGR_STATUS_CFG_ERR 1).judge := by
  subst e
  unfold State.ldgLock
  dsimp only
  rw [if_neg (by simp [State.on, h0]), if_neg (fun hf => h ⟨hf.1, by simpa using hf.2⟩)]

/-- What judging leaves of a state that differs from another in the ledger's registers only. -/
theorem Frame.judge {b s : State} {fs : List Fld} {cs : List Nat} (h : Frame b s fs cs) (hl : Reg.LGR_STATUS_LIVE_HELD ∈ fs) :
    Frame { b with ldg := s.judge.ldg } s.judge fs cs := by
  have hj : Frame { s with ldg := s.judge.ldg } s.judge fs cs := (judge_frame s).weaken (by simpa using hl) (by simp)
  have hb : Frame { b with ldg := s.judge.ldg } { s with ldg := s.judge.ldg } fs cs :=
    ⟨h.flds, h.cnts, by
      have e := congrArg (fun x : State => { x with ldg := s.judge.ldg }) h.body
      exact e⟩
  exact hb.trans hj

/-- Settles O14: each unit's lock bit is set by its own write; the ledger's by the check of the values written with it. -/
theorem lockBitsSet : Obligations.LockBitsSet := by
  refine ⟨fun s u f v hv hu => ?_, fun s i v hi hp hv => ?_, fun s also => ?_⟩
  · rcases hu with ⟨rfl, rfl⟩ | ⟨rfl, rfl⟩ | ⟨rfl, rfl⟩ | ⟨rfl, rfl⟩ <;> exact ⟨_, rfl, lockBit_sets s _ v hv rfl rfl⟩
  · refine ⟨_, exec_regLock_inl s i v hi hp, ?_⟩
    rw [lockBit_of_one s _ v 0 hv]
    exact ⟨by simp [Reg.INL_CTRL_LOCK], OnlyRegs.swSet s _ 1⟩
  · intro s' h0
    refine ⟨s.ldgLock also, rfl, ?_⟩
    by_cases hfit : s'.minimaFit
    · rw [ldgLock_of_fit s also rfl h0 hfit]
      have fr := (((Frame.refl s' [Reg.LGR_CTRL_LOCK, Reg.LGR_STATUS_CFG_ERR, Reg.LGR_STATUS_LIVE_HELD] []).setFld
        Reg.LGR_CTRL_LOCK 1 (by simp)).setFld Reg.LGR_STATUS_CFG_ERR 0 (by simp)).judge (by simp)
      refine ⟨fun _ => ⟨?_, ?_⟩, fun h => absurd hfit h, judge_entries _, fr⟩
      · rw [judge_fld _ _ rfl (by decide), fld_setFld_other _ _ _ _ (by decide), fld_setFld_same]
        rfl
      · rw [judge_fld _ _ rfl (by decide), fld_setFld_same]
        rfl
    · rw [ldgLock_of_not_fit s also rfl h0 hfit]
      have fr := ((Frame.refl s' [Reg.LGR_CTRL_LOCK, Reg.LGR_STATUS_CFG_ERR, Reg.LGR_STATUS_LIVE_HELD] []).setFld
        Reg.LGR_STATUS_CFG_ERR 1 (by simp)).judge (by simp)
      refine ⟨fun h => absurd h hfit, fun _ => ⟨?_, ?_⟩, judge_entries _, fr⟩
      · rw [judge_fld _ _ rfl (by decide), fld_setFld_other _ _ _ _ (by decide), h0]
      · rw [judge_fld _ _ rfl (by decide), fld_setFld_same]
        rfl

end Sys2Proof.Machine
end

section
/-!
PROOFS. The wakes of domains (R17, R19, R224): what the statement on them says of a Lathe that no part has.
-/
namespace Sys2Proof.Machine

open Sys2Proof Sys2Proof.Laws

/-- A module in which domain 131 is waking, needed at time 0: the domain of a Lathe 119, which no part has. -/
def strayWake : State := { State.reset with wakes := [(131, some ⟨0, []⟩)] }

/-- The end of that wake at time 1 is late, and WAKE_LATE, bit 6 of 0x200A0, lies where the state of a domain 131 would: it does not read
ON. -/
theorem strayWake_done : ∃ t, exec (.domainWakeDone 131 1) strayWake = .next t ∧ t.pd 131 = 1 := ⟨_, rfl, by decide⟩

/-- A Lathe that no rotation awaits ends none. -/
theorem rotateEnd_none (s : State) (n : Nat) (h : s.shp.rotating = none) : s.rotateEnd n = s := by
  simp [State.rotateEnd, h]

/-- Refutes O15: its clause on Lathes holds for every number, and for Lathe 119, which no part has, the WAKE_LATE of a
late wake lies in the field that is to read ON. -/
theorem not_sleepingDomainsWakeOnAccess : ¬ Obligations.SleepingDomainsWakeOnAccess := by
  rintro ⟨-, -, -, -, -, -, -, latheWakes, -⟩
  obtain ⟨u, hrun, hon, -, -, -, hbody⟩ := latheWakes strayWake 119 1 ⟨0, []⟩ rfl rfl
  obtain ⟨t, ht, hlate⟩ := strayWake_done
  have hrot : u.shp.rotating = none := congrArg (fun x : State => x.shp.rotating) hbody
  have hu : exec (.domainWakeDone 131 1) strayWake = .next u := by
    rw [← rotateEnd_none u 119 hrot]
    exact hrun
  cases ht.symm.trans hu
  rw [hon] at hlate
  exact absurd hlate (by decide)

end Sys2Proof.Machine
end

section
/-!
PROOFS. The start of a task and what its run changes (R95 to R101, R271), and with it the task that reads a sequence (R67).
-/
namespace Sys2Proof.Machine

open Sys2Proof Sys2Proof.Laws

/-! ## What the steps of a run change -/

/-- A Lathe without what its run moves: the run itself, the last picture, the trace and the wake that is still to be paid. -/
def Lathe.settled (l : Lathe) : Lathe := { l with run := none, lastPic := none, trace := [], woke := 0 }

/-- From s to t Lathe n has taken steps of a run: its run, its trace, the counters of its steps and free values moved, and nothing else. -/
structure RunMoves (n : Nat) (s t : State) : Prop where
  lathe : (t.lth n).settled = (s.lth n).settled
  lathes : ∀ m, m ≠ n → t.lth m = s.lth m
  flds : ∀ g : Fld, (∀ f ∈ traceF n, g.key ≠ f.key) → t.fld g = s.fld g
  cnts : ∀ c, c ∉ runC n → t.cnt c = s.cnt c
  rest : { t with flds := s.flds, cnts := s.cnts, lathes := s.lathes, freeCtr := s.freeCtr } = s

theorem lth_setLth_same (s : State) (n : Nat) (l : Lathe) : (s.setLth n l).lth n = l := tget_tset_same ..

theorem lth_setLth_other (s : State) (n m : Nat) (l : Lathe) (h : m ≠ n) : (s.setLth n l).lth m = s.lth m :=
  tget_tset_other _ _ _ _ _ _ h

/-- Where the trace is enabled a record enters its buffer, and WR_PTR follows. -/
theorem traceRec_eq (s : State) (n event : Nat) (d : List Nat) (pc step : Nat) : ∃ records : Tbl (Nat × Nat),
    s.traceRec n event d pc step = if s.on (Reg.SPN_TRACE_CTRL_EN n) then
      let t := (s.freeNext.setLth n { s.lth n with trace := records }).setFld (Reg.SPN_TRACE_CTRL_WR_PTR n)
        (s.fld (Reg.SPN_TRACE_CTRL_WR_PTR n) + 1)
      if s.fld (Reg.SPN_TRACE_CTRL_WR_PTR n) = 255 then t.setFld (Reg.SPN_TRACE_CTRL_WRAPPED n) 1 else t
    else s := ⟨_, rfl⟩

namespace RunMoves

variable {n : Nat} {s t u : State}

theorem refl (n : Nat) (s : State) : RunMoves n s s := ⟨rfl, fun _ _ => rfl, fun _ _ => rfl, fun _ _ => rfl, rfl⟩

theorem trans (h : RunMoves n s t) (k : RunMoves n t u) : RunMoves n s u := by
  refine ⟨k.lathe.trans h.lathe, fun m hm => (k.lathes m hm).trans (h.lathes m hm), fun g hg => (k.flds g hg).trans (h.flds g hg),
    fun c hc => (k.cnts c hc).trans (h.cnts c hc), ?_⟩
  have e := congrArg (fun x : State => { x with flds := s.flds, cnts := s.cnts, lathes := s.lathes, freeCtr := s.freeCtr }) k.rest
  exact Eq.trans e h.rest

/-- The run, the last picture, the trace and the wake of Lathe n are set. -/
theorem setLth (h : RunMoves n s t) {l : Lathe} (hl : l.settled = (t.lth n).settled) : RunMoves n s (t.setLth n l) :=
  h.trans ⟨by rw [lth_setLth_same, hl], fun m hm => lth_setLth_other t n m l hm, fun _ _ => rfl, fun _ _ => rfl, rfl⟩

theorem freeNext (h : RunMoves n s t) : RunMoves n s t.freeNext := h.trans ⟨rfl, fun _ _ => rfl, fun _ _ => rfl, fun _ _ => rfl, rfl⟩

theorem setFld (h : RunMoves n s t) (f : Fld) (v : Nat) (hf : f ∈ traceF n) : RunMoves n s (t.setFld f v) :=
  h.trans ⟨rfl, fun _ _ => rfl, fun g hg => fld_setFld_other t f g v (hg f hf), fun _ _ => rfl, rfl⟩

theorem bump (h : RunMoves n s t) (c k : Nat) (hc : c ∈ runC n) : RunMoves n s (t.bump c k) := by
  have hl : (t.bump c k).lathes = t.lathes := by
    unfold State.bump
    split <;> rfl
  have hr : { t.bump c k with cnts := t.cnts } = t := by
    unfold State.bump
    split <;> rfl
  have hn (m : Nat) : (t.bump c k).lth m = t.lth m := by rw [State.lth, hl, State.lth]
  exact h.trans ⟨by rw [hn], fun m _ => hn m, fun g _ => fld_bump t c k g,
    fun d hd => cnt_bump_other t c k d (fun e => hd (e ▸ hc)),
    congrArg (fun x : State => { x with flds := t.flds, lathes := t.lathes, freeCtr := t.freeCtr }) hr⟩

theorem traceRec (h : RunMoves n s t) (event : Nat) (d : List Nat) (pc step : Nat) : RunMoves n s (t.traceRec n event d pc step) := by
  obtain ⟨records, e⟩ := traceRec_eq t n event d pc step
  rw [e]
  have hrec := (h.freeNext.setLth (l := { t.lth n with trace := records }) rfl).setFld (Reg.SPN_TRACE_CTRL_WR_PTR n)
    (t.fld (Reg.SPN_TRACE_CTRL_WR_PTR n) + 1) (by simp [traceF])
  split
  · split
    · exact hrec.setFld (Reg.SPN_TRACE_CTRL_WRAPPED n) 1 (by simp [traceF])
    · exact hrec
  · exact h

theorem countSwitch (h : RunMoves n s t) (d : List Nat) : RunMoves n s (t.countSwitch n d) := by
  unfold State.countSwitch
  split
  · dsimp only
    split
    · exact h.setLth rfl
    · exact (h.freeNext.bump _ _ (by simp [runC])).setLth rfl
  · exact h

theorem ended (h : RunMoves n s t) (r : Run) : RunMoves n s (t.ended n r) :=
  ((h.bump _ 1 (by simp [runC])).traceRec 1 _ _ _).setLth rfl

theorem lent_eq (h : RunMoves n s t) (k : Nat) : t.lent k = s.lent k := by
  have e := congrArg (fun x : State => x.lent k) h.rest
  exact e

theorem time_eq (h : RunMoves n s t) : t.time = s.time := by
  have e := congrArg State.time h.rest
  exact e

/-- Of its Lathe the steps of a run change the run, the last picture, the trace and the wake that is still to be paid. -/
theorem lathe_eq (h : RunMoves n s t) : t.lth n =
    { s.lth n with run := (t.lth n).run, lastPic := (t.lth n).lastPic, trace := (t.lth n).trace, woke := (t.lth n).woke } := by
  have e := congrArg (fun l : Lathe =>
    { l with run := (t.lth n).run, lastPic := (t.lth n).lastPic, trace := (t.lth n).trace, woke := (t.lth n).woke }) h.lathe
  exact e

end RunMoves

/-! ## The pop of a task -/

/-- Lathe n takes its head task out of its queue. -/
def State.popped (s : State) (n : Nat) (q : QTask) : State :=
  s.setLth n { s.lth n with queue := (s.lth n).queue.drop 1, curDesc := q.desc, bsq := { (s.lth n).bsq with flushed := false } }

theorem dispEntry_popped (s : State) (n : Nat) (q : QTask) (d : List Nat) : (s.popped n q).dispEntry n d = s.dispEntry n d := by
  have hdisp : ((s.popped n q).lth n).disp = (s.lth n).disp := by rw [State.popped, lth_setLth_same]
  rw [State.dispEntry, hdisp]
  rfl

/-- The state in which Lathe n has just popped and started its head task q. -/
def State.begun (s : State) (n : Nat) (q : QTask) : State :=
  ((((s.popped n q).countSwitch n q.desc).setLState q.entry 3).traceRec n 0 q.desc ((s.popped n q).entryPc n q.desc) 0).setRun n
    (run0 q s.time)

/-- A task that can start runs where its opcode is meant and what it waits for holds. -/
theorem begin_startable {s : State} {n : Nat} {q : QTask} {ok : Nat → Bool} {ready : List Nat → Bool} (h : Startable s n q)
    (hok : ok (dOpcode q.desc) = true) (hr : ready q.desc = true) : s.begin n ok ready = (s.begun n q, some (run0 q s.time)) := by
  obtain ⟨hhead, hpop, hcheck, hentry⟩ := h
  have hgo : ¬ (¬ ok (dOpcode q.desc) = true ∨ ¬ s.canPop n q.desc = true ∨
      ((decide (s.descCheck n q.desc = 0) && decide (nbits (s.dispEntry n q.desc) 12 1 = 1)) = true ∧ ¬ ready q.desc = true)) := by
    simp [hok, hpop, hr]
  have hroutine : nbits ((s.popped n q).dispEntry n q.desc) 12 1 ≠ 0 := by
    rw [dispEntry_popped, hentry]
    decide
  unfold State.begin
  rw [hhead]
  exact ((if_neg hgo).trans (if_neg (not_not_intro hcheck))).trans (if_neg hroutine)

/-- Whether a task can start does not depend on the time. -/
theorem startable_at {s : State} {n : Nat} {q : QTask} (h : Startable s n q) (now : Nat) : Startable (s.at now) n q := by
  unfold State.at
  split
  · exact h
  · exact h

theorem lent_setLState_other (s : State) (k st j : Nat) (h : j ≠ k) : (s.setLState k st).lent j = s.lent j := by
  unfold State.setLState
  split
  · simp only [State.lent]
    exact tget_tset_other _ _ _ _ _ _ h
  · rfl

theorem lent_setLState_same (s : State) (k st : Nat) (e : LEnt) (h : s.lent k = some e) :
    (s.setLState k st).lent k = some { e with state := st } := by
  unfold State.setLState
  rw [h]
  simp only [State.lent]
  exact tget_tset_same ..

theorem lathes_setLState (s : State) (k st : Nat) : (s.setLState k st).lathes = s.lathes := by
  unfold State.setLState
  split <;> rfl

/-- Setting the STATE of an entry changes the entries and nothing else. -/
theorem setLState_rest (s : State) (k st : Nat) :
    s.setLState k st = { s with ldg := { s.ldg with entries := (s.setLState k st).ldg.entries } } := by
  unfold State.setLState
  split <;> rfl

/-- The pop, a run's steps and the STATE of the entry together. -/
theorem popped_setLState {s t : State} {n : Nat} {q : QTask} (st : Nat) (h : RunMoves n (s.popped n q) t) :
    Popped s (t.setLState q.entry st) n q st := by
  have hl (m : Nat) : (t.setLState q.entry st).lth m = t.lth m := by rw [State.lth, lathes_setLState, State.lth]
  have he (k : Nat) : t.lent k = s.lent k := h.lent_eq k
  refine ⟨?_, fun e h => lent_setLState_same _ _ _ _ ((he _).trans h), ?_, fun m hm => ?_, fun k hk => ?_⟩
  · rw [hl, h.lathe_eq, State.popped, lth_setLth_same]
    exact ⟨rfl, rfl⟩
  · rw [hl, h.lathe_eq, State.popped, lth_setLth_same]
    exact ⟨rfl, rfl, rfl, rfl, rfl, rfl, rfl, rfl, rfl, rfl, rfl⟩
  · rw [hl, h.lathes m hm]
    exact lth_setLth_other _ _ _ _ hm
  · rw [lent_setLState_other _ _ _ _ hk, he]

/-- A run's steps leave a popped task popped. -/
theorem popped_moves {b s t : State} {n : Nat} {q : QTask} {st : Nat} (h : Popped b s n q st) (k : RunMoves n s t) :
    Popped b t n q st := by
  refine ⟨?_, fun e he => (k.lent_eq _).trans (h.entry e he), ?_, fun m hm => (k.lathes m hm).trans (h.lathes m hm),
    fun j hj => (k.lent_eq j).trans (h.entries j hj)⟩
  · rw [k.lathe_eq]
    exact h.queue
  · rw [k.lathe_eq]
    exact h.lathe

/-- A run's steps move only the registers of a run. -/
theorem OnlyRegs.moves {b s t : State} {n : Nat} (h : OnlyRegs (runBase b s) s (traceF n) (runC n)) (k : RunMoves n s t) :
    OnlyRegs (runBase b t) t (traceF n) (runC n) := by
  refine ⟨fun g hg => (k.flds g hg).trans (h.flds g hg), fun c hc => (k.cnts c hc).trans (h.cnts c hc), ?_⟩
  have e := congrArg (fun x : State => { x with flds := b.flds, cnts := b.cnts, lathes := t.lathes, freeCtr := t.freeCtr }) k.rest
  have e' := congrArg (fun x : State => { x with lathes := t.lathes, freeCtr := t.freeCtr }) h.rest
  have hl : t.ldg.entries = s.ldg.entries := by
    have e := congrArg (fun x : State => x.ldg.entries) k.rest
    exact e
  have hb : runBase b t = { runBase b s with lathes := t.lathes, freeCtr := t.freeCtr } := by simp only [runBase, hl]
  rw [hb]
  exact e.trans e'

/-! ## Runs -/

/-- A task that starts runs from its first step on. -/
theorem runs_begun (s : State) (n : Nat) (q : QTask) : Runs s (s.begun n q) n q (run0 q s.time) := by
  have hsw := (RunMoves.refl n (s.popped n q)).countSwitch q.desc
  have htail : RunMoves n (((s.popped n q).countSwitch n q.desc).setLState q.entry 3) (s.begun n q) :=
    ((RunMoves.refl n _).traceRec 0 q.desc _ 0).setLth rfl
  refine ⟨congrArg Lathe.run (lth_setLth_same ..), rfl, rfl, popped_moves (popped_setLState 3 hsw) htail, OnlyRegs.moves ?_ htail⟩
  have hpop : OnlyRegs (runBase s (s.popped n q)) (s.popped n q) (traceF n) (runC n) := ⟨fun _ _ => rfl, fun _ _ => rfl, rfl⟩
  have h := hpop.moves hsw
  generalize (s.popped n q).countSwitch n q.desc = u at h
  rw [setLState_rest]
  refine ⟨h.flds, h.cnts, ?_⟩
  have e := congrArg (fun x : State => { x with ldg := { x.ldg with entries := (u.setLState q.entry 3).ldg.entries } }) h.rest
  exact e

/-- A run's steps that leave its task and its start. -/
theorem runs_moves {b s t : State} {n : Nat} {q : QTask} {r r' : Run} (h : Runs b s n q r) (k : RunMoves n s t)
    (hr : (t.lth n).run = some r') (htask : r'.task = r.task) (hstart : r'.start = r.start) : Runs b t n q r' := by
  obtain ⟨-, h2, h3, h4, h5⟩ := h
  exact ⟨hr, htask.trans h2, hstart.trans h3, popped_moves h4 k, h5.moves k⟩

/-- A run with its last step committed. -/
def Run.over (r : Run) : Run := { r with done := true, steps := r.steps + 1, stepReruns := 0 }

theorem run_ended (s : State) (n : Nat) (r : Run) : ((s.ended n r).lth n).run = some r.over :=
  congrArg Lathe.run (lth_setLth_same ..)

/-- A routine that ends. -/
theorem runs_ended {b s : State} {n : Nat} {q : QTask} {r : Run} (h : Runs b s n q r) (r' : Run) (htask : r'.task = r.task)
    (hstart : r'.start = r.start) : Runs b (s.ended n r') n q r'.over :=
  runs_moves h ((RunMoves.refl n s).ended r') (run_ended ..) htask hstart

theorem runs_freeNext {b s : State} {n : Nat} {q : QTask} {r : Run} (h : Runs b s n q r) : Runs b s.freeNext n q r :=
  runs_moves h (RunMoves.refl n s).freeNext h.1 rfl rfl

theorem runs_streams_eq {b t : State} {n : Nat} {q : QTask} {r : Run} (h : Runs b t n q r) : t.streams = b.streams := by
  obtain ⟨-, -, -, -, h⟩ := h
  have e := congrArg State.streams h.rest
  exact e

theorem runs_stream_eq {b t : State} {n : Nat} {q : QTask} {r : Run} (h : Runs b t n q r) (k : Nat) : t.stream k = b.stream k := by
  rw [State.stream, runs_streams_eq h, State.stream]

theorem runs_progress_eq {b t : State} {n : Nat} {q : QTask} {r : Run} (h : Runs b t n q r) : t.progress = b.progress := by
  obtain ⟨-, -, -, -, h⟩ := h
  have e := congrArg State.progress h.rest
  exact e

theorem runs_blks_eq {b t : State} {n : Nat} {q : QTask} {r : Run} (h : Runs b t n q r) : t.blks = b.blks := by
  obtain ⟨-, -, -, -, h⟩ := h
  have e := congrArg State.blks h.rest
  exact e

theorem runs_time_eq {b t : State} {n : Nat} {q : QTask} {r : Run} (h : Runs b t n q r) : t.time = b.time := by
  obtain ⟨-, -, -, -, h⟩ := h
  have e := congrArg State.time h.rest
  exact e

/-- The progress table, the streams and the blocks are no part of what a run moves. -/
theorem runs_withPicture {b t : State} {n : Nat} {q : QTask} {r : Run} (h : Runs b t n q r) (p : Tbl Nat) (x : Tbl Stream) (k : Tbl Blk) :
    Runs { b with progress := p, streams := x, blks := k } { t with progress := p, streams := x, blks := k } n q r := by
  obtain ⟨h1, h2, h3, ⟨p1, p2, p3, p4, p5⟩, h5⟩ := h
  refine ⟨h1, h2, h3, ⟨p1, p2, p3, p4, p5⟩, h5.flds, h5.cnts, ?_⟩
  have e := congrArg (fun y : State => { y with progress := p, streams := x, blks := k }) h5.rest
  exact e

/-! ## DEC_SEQ -/

theorem stream_at (s : State) (now k : Nat) : (s.at now).stream k = s.stream k := by simp [State.stream]

/-- What DEC_SEQ makes of its run: the run that its routine ends. -/
def seqRun (x : Stream) (h : SeqHdr) (free time : Nat) (r : Run) : Run :=
  if h.layer ≠ 0 then r
  else if seqParses x h = false then
    { r with dec := some { x.dec with seq := none }, lost := true, lossCode := free % 10 + 1,
             damage := some (0x0D, dRow r.task.desc, 0, time), acc := [(3, 1), (15, 1)] }
  else if seqReason x h ≠ 0 then
    { r with dec := some { x.dec with seq := none }, lost := true, lossCode := seqReason x h, acc := [(15, 1)] }
  else
    { r with dec := some { x.dec with seq := some h,
                                      needStart := if x.dec.seq.isNone ∧ x.dec.needStart = 0 then 2 else x.dec.needStart } }

section

variable {x : Stream} {h : SeqHdr} {free time : Nat} {r : Run}

theorem seqRun_of_discarded (hl : h.layer ≠ 0) : seqRun x h free time r = r := if_pos hl

theorem seqRun_of_unparsed (hl : h.layer = 0) (hp : seqParses x h = false) : seqRun x h free time r =
    { r with dec := some { x.dec with seq := none }, lost := true, lossCode := free % 10 + 1,
             damage := some (0x0D, dRow r.task.desc, 0, time), acc := [(3, 1), (15, 1)] } :=
  (if_neg (not_not_intro hl)).trans (if_pos hp)

theorem seqRun_of_refused (hl : h.layer = 0) (hp : seqParses x h = true) (hw : seqReason x h ≠ 0) : seqRun x h free time r =
    { r with dec := some { x.dec with seq := none }, lost := true, lossCode := seqReason x h, acc := [(15, 1)] } :=
  ((if_neg (not_not_intro hl)).trans (if_neg (by simp [hp]))).trans (if_pos hw)

theorem seqRun_of_accepted (hl : h.layer = 0) (hp : seqParses x h = true) (hw : seqReason x h = 0) : seqRun x h free time r =
    { r with dec := some { x.dec with seq := some h,
                                      needStart := if x.dec.seq.isNone ∧ x.dec.needStart = 0 then 2 else x.dec.needStart } } :=
  ((if_neg (not_not_intro hl)).trans (if_neg (by simp [hp]))).trans (if_neg (not_not_intro hw))

/-- The header of a layer that is decoded loses its sequence, or puts it in force (R67). -/
theorem seqRun_outcome (hl : h.layer = 0) (hlost : r.lost = false) (hdamage : r.damage = none) :
    let z := seqRun x h free time r
    ∃ ds, z.dec = some ds ∧
      (seqParses x h = false → z.lost = true ∧ ds.seq = none ∧ z.damage = some (0x0D, dRow r.task.desc, 0, time)) ∧
      (seqParses x h = true → seqReason x h ≠ 0 → z.lost = true ∧ z.lossCode = seqReason x h ∧ ds.seq = none ∧ z.damage = none) ∧
      (seqParses x h = true → seqReason x h = 0 → z.lost = false ∧ ds.seq = some h ∧ ds.dpb = x.dec.dpb) := by
  by_cases hp : seqParses x h = true
  · by_cases hw : seqReason x h = 0
    · simp [seqRun_of_accepted hl hp hw, hp, hw, hlost]
    · simp [seqRun_of_refused hl hp hw, hp, hw, hdamage]
  · rw [Bool.not_eq_true] at hp
    simp [seqRun_of_unparsed hl hp, hp]

theorem seqRun_task : (seqRun x h free time r).task = r.task := by
  unfold seqRun
  split
  · rfl
  · split
    · rfl
    · split <;> rfl

theorem seqRun_start : (seqRun x h free time r).start = r.start := by
  unfold seqRun
  split
  · rfl
  · split
    · rfl
    · split <;> rfl

end

/-- A task that can start finds no picture of its stream in its way. -/
theorem begin_noPic {s : State} {n : Nat} {q : QTask} (hst : Startable s n q) (hcur : (s.stream (dSid q.desc)).dec.cur = none)
    (now : Nat) : (s.at now).begin n (fun o => o = dOpcode q.desc) s.noPic = ((s.at now).begun n q, some (run0 q (s.at now).time)) :=
  begin_startable (startable_at hst now) (decide_eq_true rfl) (by simp [State.noPic, hcur])

/-- DEC_SEQ, once its run r has begun in u, ends it at once; a header that cannot be parsed takes a free value. -/
theorem exec_decSeq {s u : State} {n now : Nat} {r : Run} (h : SeqHdr)
    (hb : (s.at now).begin n (fun o => o = 0x10) s.noPic = (u, some r)) :
    let x := u.stream (dSid r.task.desc)
    exec (.decSeq n h now) s =
      .next ((if h.layer = 0 ∧ seqParses x h = false then u.freeNext else u).ended n (seqRun x h u.freeVal u.time r)) := by
  simp only [exec, execDecSeq, hb]
  by_cases hl : h.layer = 0
  · by_cases hp : seqParses (u.stream (dSid r.task.desc)) h = true
    · by_cases hw : seqReason (u.stream (dSid r.task.desc)) h = 0
      · simp [hl, hp, hw, seqRun_of_accepted]
      · simp [hl, hp, hw, seqRun_of_refused]
    · rw [Bool.not_eq_true] at hp
      simp [hl, hp, seqRun_of_unparsed]
  · simp [hl, seqRun_of_discarded]

end Sys2Proof.Machine
end

section
/-!
PROOFS. The tasks that open a picture (R67, R124), and the pictures of a decode.
-/
namespace Sys2Proof.Machine

open Sys2Proof Sys2Proof.Laws

/-! ## DEC_PIC_START -/

/-- A stream's decoding state ds holds picture p, which a start has just opened: skipped, with nothing of the stream's state changed, or to be
decoded into its surface with what the decoded picture buffer keeps (R124). -/
structure Opens (x : Stream) (d : List Nat) (h : PicHdr) (ds : DecSt) (p : DecPic) : Prop where
  cur : ds.cur = some p
  seq : p.seq = dPicSeq d
  rows : p.rowsDone = []
  noSeq : x.dec.seq = none → p.skip = true
  skipped : p.skip = true → ds.dpb = x.dec.dpb ∧ ds.needStart = x.dec.needStart
  decoded : p.skip = false → ds.needStart = 0 ∧ (h.newSeq = true → ds.dpb = []) ∧ p.surf.addr = dDst d ∧
    p.refs.length = h.refs.length ∧ ∀ v ∈ ds.dpb, v ∈ x.dec.dpb ∧ v.id ∈ h.keep

/-- A new coded video sequence empties the decoded picture buffer; another picture leaves in it what its header keeps (R124). -/
theorem DecSt.enter_dpb (ds : DecSt) (h : PicHdr) :
    (ds.enter h).dpb = if h.newSeq then [] else ds.dpb.filter (fun p => h.keep.contains p.id) := by
  unfold DecSt.enter
  split <;> rfl

theorem DecSt.enter_seq (ds : DecSt) (h : PicHdr) : (ds.enter h).seq = ds.seq := by
  unfold DecSt.enter
  split <;> rfl

theorem opens_startPic (x : Stream) (d : List Nat) (h : PicHdr) (q : SeqHdr) (time : Nat) (hq : x.dec.seq = some q) :
    ∃ p, Opens x d h (startPic x d h q time) p := by
  have hdpb : (startPic x d h q time).dpb = (x.dec.enter h).dpb := rfl
  refine ⟨_, rfl, rfl, rfl, fun e => ?_, fun e => Bool.noConfusion e, fun _ => ⟨rfl, fun hn => ?_, rfl, List.length_map .., fun v hv => ?_⟩⟩
  · exact absurd (hq.symm.trans e) (by simp)
  · rw [hdpb, DecSt.enter_dpb, if_pos hn]
  · rw [hdpb, DecSt.enter_dpb] at hv
    split at hv
    · exact absurd hv List.not_mem_nil
    · simpa using hv

theorem opens_skipPic (x : Stream) (d : List Nat) (h : PicHdr) (directed time : Nat) : ∃ p, Opens x d h (skipPic x d h directed time) p :=
  ⟨_, rfl, rfl, rfl, fun _ => rfl, fun _ => ⟨rfl, rfl⟩, fun e => Bool.noConfusion e⟩

theorem opens_refusePic (x : Stream) (d : List Nat) (h : PicHdr) : ∃ p, Opens x d h (refusePic x d h) p :=
  ⟨_, rfl, rfl, rfl, fun _ => rfl, fun _ => ⟨rfl, rfl⟩, fun e => Bool.noConfusion e⟩

theorem openPic_opens (x : Stream) (d : List Nat) (h : PicHdr) (directed time : Nat) : ∃ p, Opens x d h (x.openPic d h directed time) p := by
  unfold Stream.openPic
  split
  next q hq =>
    split
    · exact opens_startPic x d h q time hq
    · exact opens_skipPic ..
  next => exact opens_skipPic ..

/-- Opening a picture leaves the sequence in force. -/
theorem openPic_seq (x : Stream) (d : List Nat) (h : PicHdr) (directed time : Nat) : (x.openPic d h directed time).seq = x.dec.seq := by
  unfold Stream.openPic
  split
  · split
    · exact DecSt.enter_seq ..
    · rfl
  · rfl

/-- The run of a DEC_PIC_START whose picture is directed to be skipped as `directed` says, at its end. -/
def picRun (x : Stream) (h : PicHdr) (directed time : Nat) (r : Run) : Run :=
  if x.showsTool h then { r with dec := some (refusePic x r.task.desc h), lost := true, lossCode := 7, acc := [(15, 1)] }
  else { r with dec := some (x.openPic r.task.desc h directed time),
                damage := (x.openPic r.task.desc h directed time).cur.bind (fun p => p.damage) }

section

variable {x : Stream} {h : PicHdr} {directed time : Nat} {r : Run}

theorem picRun_task : (picRun x h directed time r).task = r.task := by
  unfold picRun
  split <;> rfl

theorem picRun_start : (picRun x h directed time r).start = r.start := by
  unfold picRun
  split <;> rfl

/-- The run ends with a picture opened; it loses the sequence where the picture shows a refused tool (R67). -/
theorem picRun_opens (hlost : r.lost = false) :
    let z := picRun x h directed time r
    ∃ ds p, z.dec = some ds ∧ Opens x r.task.desc h ds p ∧ (x.showsTool h = true → z.lost = true ∧ z.lossCode = 7 ∧ ds.seq = none) ∧
      (x.showsTool h = false → z.lost = false ∧ ds.seq = x.dec.seq) := by
  unfold picRun
  by_cases hs : x.showsTool h = true
  · obtain ⟨p, hp⟩ := opens_refusePic x r.task.desc h
    simp only [hs]
    exact ⟨_, p, rfl, hp, fun _ => ⟨rfl, rfl, rfl⟩, fun e => Bool.noConfusion e⟩
  · obtain ⟨p, hp⟩ := openPic_opens x r.task.desc h directed time
    simp only [hs]
    exact ⟨_, p, rfl, hp, fun e => Bool.noConfusion e, fun _ => ⟨hlost, openPic_seq ..⟩⟩

end

/-- A stream's picture starts: no row of it has progressed, no block of it has completed, and the stream applies a level. -/
def State.clearPic (s : State) (sid level : Nat) : State :=
  ((s.clearProg sid [0]).clearBlks sid).setStream sid { s.stream sid with shed := level }

theorem prog_clearPic (s : State) (sid level k : Nat) :
    (s.clearPic sid level).prog k = if k / 4096 = sid ∧ k / 512 % 8 = 0 then 0 else s.prog k := by
  refine (tget_tclear ..).trans ?_
  simp [State.prog]

theorem blk_clearPic (s : State) (sid level row col : Nat) (hr : row < 512) (hc : col < 512) :
    ((s.clearPic sid level).blk sid row col).st = 0 := by
  have hk : blkKey sid row col / 2 ^ 18 = sid := by
    unfold blkKey
    omega
  have e : (s.clearPic sid level).blk sid row col = blk0 := (tget_tclear ..).trans (if_pos (decide_eq_true hk))
  rw [e]
  rfl

theorem stream_setStream_same (s : State) (sid : Nat) (x : Stream) : (s.setStream sid x).stream sid = x := tget_tset_same ..

theorem stream_setStream_other (s : State) (sid k : Nat) (x : Stream) (h : k ≠ sid) : (s.setStream sid x).stream k = s.stream k :=
  tget_tset_other _ _ _ _ _ _ h

theorem dec_clearPic (s : State) (sid level : Nat) : ((s.clearPic sid level).stream sid).dec = (s.stream sid).dec := by
  rw [State.clearPic, stream_setStream_same]

/-- How the Shepherd directs a stream's next picture: 2 shed, 1 skipped, 0 decoded (R206, R214). -/
def State.directs (s : State) (x : Stream) (h : PicHdr) : Nat :=
  if decSkips x.cls (s.levelFor x) then 2 else if h.skipDirected ∧ x.excess s.time then 1 else 0

/-- DEC_PIC_START, once its run r has begun in u, clears its picture's records and ends the run. -/
theorem exec_decPicStart {s u : State} {n now : Nat} {r : Run} (h : PicHdr)
    (hb : (s.at now).begin n (fun o => o = 0x11) s.noPic = (u, some r)) :
    let x := u.stream (dSid r.task.desc)
    exec (.decPicStart n h now) s =
      .next ((u.clearPic (dSid r.task.desc) (u.levelFor x)).ended n (picRun x h (u.directs x h) u.time r)) := by
  simp only [exec, execDecPicStart, hb, picRun, State.directs]
  split <;> rfl

/-- A picture's records are cleared and the run ends: of the state in which it began, b, its stream's level, the picture's rows and its blocks
differ beside what a run moves. -/
structure PictureStarts (b t : State) (n : Nat) (q : QTask) (z : Run) : Prop where
  run : (t.lth n).run = some z.over
  prog : ∀ k, t.prog k = if k / 4096 = dSid q.desc ∧ k / 512 % 8 = 0 then 0 else b.prog k
  blk : ∀ row col, row < 512 → col < 512 → (t.blk (dSid q.desc) row col).st = 0
  dec : (t.stream (dSid q.desc)).dec = (b.stream (dSid q.desc)).dec
  others : OtherStreams b t (dSid q.desc)
  popped : Popped b t n q 3
  regs : OnlyRegs (runBase { b with progress := t.progress, streams := t.streams, blks := t.blks } t) t (traceF n) (runC n)

theorem pictureStarts_ended {b u : State} {n : Nat} {q : QTask} {r z : Run} (h : Runs b u n q r) (level : Nat) (htask : z.task = r.task)
    (hstart : z.start = r.start) : PictureStarts b ((u.clearPic (dSid q.desc) level).ended n z) n q z := by
  have hclear : Runs { b with progress := (u.clearPic (dSid q.desc) level).progress, streams := (u.clearPic (dSid q.desc) level).streams,
                              blks := (u.clearPic (dSid q.desc) level).blks } (u.clearPic (dSid q.desc) level) n q r :=
    runs_withPicture h _ _ _
  have hend := runs_ended hclear z htask hstart
  have hprog := runs_progress_eq hend
  have hblks := runs_blks_eq hend
  have hstreams := runs_streams_eq hend
  obtain ⟨hrun, -, -, ⟨p1, p2, p3, p4, p5⟩, hregs⟩ := hend
  refine ⟨hrun, fun k => ?_, fun row col hrow hcol => ?_, ?_, fun k hk => ?_, ⟨p1, p2, p3, p4, p5⟩, ?_⟩
  · have e := prog_clearPic u (dSid q.desc) level k
    rw [State.prog, hprog]
    rwa [State.prog, State.prog, runs_progress_eq h] at e
  · rw [State.blk, hblks]
    exact blk_clearPic u _ level _ _ hrow hcol
  · rw [State.stream, hstreams]
    exact (dec_clearPic u _ level).trans (congrArg Stream.dec (runs_stream_eq h _))
  · rw [State.stream, hstreams]
    exact (stream_setStream_other _ _ _ _ hk).trans (runs_stream_eq h k)
  · rw [hprog, hblks, hstreams]
    exact hregs

/-- Settles O18: a task that can start begins its run, whose routine then ends in one of the ways that its header gives. -/
theorem decodePicturesStart : Obligations.DecodePicturesStart := by
  intro s n now q hst hcur x
  have hrun := runs_begun (s.at now) n q
  have hb := begin_noPic hst hcur now
  have hx (k : Nat) : ((s.at now).begun n q).stream k = s.stream k := (runs_stream_eq hrun k).trans (stream_at ..)
  have ht : ((s.at now).begun n q).time = max s.time now := (runs_time_eq hrun).trans (time_at ..)
  generalize (s.at now).begun n q = u at hrun hb hx ht
  generalize hr : run0 q (s.at now).time = r at hrun hb
  have htask : r.task = q := hr ▸ rfl
  refine ⟨fun hop h => ?_, fun hop h => ?_⟩
  · rw [hop] at hb
    have he := exec_decSeq h hb
    rw [htask, hx, ht] at he
    have hend := runs_ended (s := if h.layer = 0 ∧ seqParses x h = false then u.freeNext else u)
      (by
        split
        · exact runs_freeNext hrun
        · exact hrun)
      (seqRun x h u.freeVal (max s.time now) r) seqRun_task seqRun_start
    refine ⟨_, _, he, hend, rfl, fun hl => ?_, fun hl => ?_⟩
    · rw [seqRun_of_discarded hl, ← hr]
      exact ⟨rfl, rfl⟩
    · have hout := seqRun_outcome (x := x) (h := h) (free := u.freeVal) (time := max s.time now) (r := r) hl (hr ▸ rfl) (hr ▸ rfl)
      rw [htask] at hout
      exact hout
  · rw [hop] at hb
    have he := exec_decPicStart h hb
    rw [htask, hx] at he
    obtain ⟨ds, p, hds, ho, htool, hclean⟩ :=
      picRun_opens (x := x) (h := h) (directed := u.directs x h) (time := u.time) (r := r) (hr ▸ rfl)
    rw [htask] at ho
    have hz : (picRun x h (u.directs x h) u.time r).task = q := picRun_task.trans htask
    have hpic := pictureStarts_ended hrun (u.levelFor x) picRun_task (picRun_start (x := x) (h := h) (directed := u.directs x h) (time := u.time))
    refine ⟨_, _, ds, p, he, hpic.run, hz, rfl, hds, ho.cur, ho.seq, ho.rows, ho.noSeq, ho.skipped, ho.decoded, htool, hclean,
      fun k => ?_, hpic.blk, ?_, fun k hk => ?_, hpic.popped, hpic.regs⟩
    · refine (hpic.prog k).trans ?_
      rw [State.prog, at_progress, State.prog]
    · exact hpic.dec.trans (congrArg Stream.dec (stream_at ..))
    · exact (hpic.others k hk).trans (stream_at ..)

end Sys2Proof.Machine
end

section
/-!
PROOFS. What a store to device DRAM does to an armed injection (R428), and a host command that makes such a store: REFRESH_REQUEST, which brings
its stream's records to DRAM (R161, R197).
-/
namespace Sys2Proof.Machine

open Sys2Proof Sys2Proof.Laws

/-! ## A store meets an armed injection -/

/-- A field that both branches keep is kept. -/
theorem fld_ite {c : Prop} [Decidable c] {s t u : State} {f : Fld} (ht : t.fld f = s.fld f) (hu : u.fld f = s.fld f) :
    (if c then t else u).fld f = s.fld f := by
  split
  · exact ht
  · exact hu

theorem fld_addCand (s : State) (ch : Nat) (r : RowRec) (f : Fld) : (s.addCand ch r).fld f = s.fld f := by
  unfold State.addCand
  dsimp only
  split
  · rfl
  · exact fld_ite rfl (fld_ite rfl rfl)

theorem fld_touchRow (s : State) (p : Place) (u : Bool) (f : Fld) : (s.touchRow p u).fld f = s.fld f := by
  unfold State.touchRow
  exact fld_ite (fld_addCand ..) rfl

/-- Marking a line poisoned arms and disarms nothing. -/
theorem arm_poisonLine (s : State) (line : Nat) (p : Place) (port tag : Nat) :
    (s.poisonLine line p port tag).fld Reg.FLT_INJECT_CTRL_ARM = s.fld Reg.FLT_INJECT_CTRL_ARM := by
  unfold State.poisonLine State.dramErr
  rw [(Frame.raise (Frame.refl _ [Reg.DMC_FAULT_UE] []) _ _ _ _ (Or.inl (by simp))).flds _ rfl (by decide), fld_touchRow]
  refine (((OnlyRegs.refl _ [Reg.DMC_ERR_LOG0_CHANNEL, Reg.DMC_ERR_LOG0_BANK, Reg.DMC_ERR_LOG0_ROW, Reg.DMC_ERR_LOG0_SLOT,
    Reg.DMC_ERR_LOG0_TYPE, Reg.DMC_ERR_LOG1_PORT, Reg.DMC_ERR_LOG1_TAG, Reg.DMC_ERR_LOG1_TIME_MS] []).setFlds _ (by simp)).flds _
    (by decide)).trans ?_
  exact fld_bump ..

/-- A write to the line that an armed DRAM_CE or DRAM_UE names disarms it. -/
theorem injectWrite_disarms {s : State} {line : Nat} {j : Inject} (hj : s.flt.inject = some j) (hkind : j.kind = 3 ∨ j.kind = 4)
    (hline : j.addr / 64 = line) : (s.injectWrite line).fld Reg.FLT_INJECT_CTRL_ARM = 0 := by
  unfold State.injectWrite
  simp only [hj, hkind, hline, and_self, if_true]
  exact fld_setFld_same ..

/-- No write arms an injection. -/
theorem injectWrite_disarmed {s : State} (line : Nat) (h : s.fld Reg.FLT_INJECT_CTRL_ARM = 0) :
    (s.injectWrite line).fld Reg.FLT_INJECT_CTRL_ARM = 0 := by
  unfold State.injectWrite
  split
  · split
    · exact fld_setFld_same ..
    · exact h
  · exact h

theorem writeLines_disarmed {s : State} (a len bad : Nat) (lines : List Nat) (h : s.fld Reg.FLT_INJECT_CTRL_ARM = 0) :
    (s.writeLines a len bad lines).fld Reg.FLT_INJECT_CTRL_ARM = 0 := by
  induction lines generalizing s bad with
  | nil => exact h
  | cons l rest ih =>
    rw [State.writeLines]
    refine ih _ (injectWrite_disarmed l ?_)
    split
    · exact h
    · split
      · exact (arm_poisonLine ..).trans h
      · exact h

/-- A write whose first line is covered whole, and is the one that an armed injection names, disarms it. -/
theorem writeLines_disarms {s : State} {a len l : Nat} {j : Inject} (bad : Nat) (rest : List Nat) (hj : s.flt.inject = some j)
    (hkind : j.kind = 3 ∨ j.kind = 4) (hline : j.addr / 64 = l) (hwhole : a ≤ l * 64 ∧ l * 64 + 64 ≤ a + len) :
    (s.writeLines a len bad (l :: rest)).fld Reg.FLT_INJECT_CTRL_ARM = 0 := by
  rw [State.writeLines]
  dsimp only
  rw [if_pos hwhole]
  exact writeLines_disarmed _ _ _ _ (injectWrite_disarms hj hkind hline)

/-- Storing bytes changes memory alone. -/
theorem setBytes_eq (s : State) (a : Nat) (l : List Nat) : ∃ m, s.setBytes a l = { s with dram := { s.dram with mem := m } } := by
  induction l generalizing s a with
  | nil => exact ⟨_, rfl⟩
  | cons b r ih =>
    obtain ⟨m, hm⟩ := ih (s.setByte a (BitVec.ofNat 8 b)) (a + 1)
    rw [State.setBytes, hm, State.setByte]
    split
    · exact ⟨_, rfl⟩
    · exact ⟨_, rfl⟩

/-- A store from the line on that an armed injection names disarms it. -/
theorem putBytes_disarms {s : State} {a : Nat} {bytes : List Nat} {j : Inject} (hj : s.flt.inject = some j)
    (hkind : j.kind = 3 ∨ j.kind = 4) (hline : j.addr / 64 = a / 64) (ha : a % 64 = 0) (hlen : 64 ≤ bytes.length)
    (hroom : a < partUsable s.part) : (s.putBytes a bytes).fld Reg.FLT_INJECT_CTRL_ARM = 0 := by
  have hlines : linesOf a bytes.length = a / 64 :: upTo (a / 64 + 1) ((a + bytes.length - 1) / 64 - a / 64) :=
    if_neg (by omega)
  obtain ⟨m, hm⟩ := setBytes_eq s a bytes
  rw [State.putBytes, hlines, List.filter_cons_of_pos (by rw [decide_eq_true_eq]; omega), hm]
  exact writeLines_disarms 0 _ hj hkind hline ⟨by omega, by omega⟩

/-! ## A stream's records -/

theorem length_leBytes (v n : Nat) : (leBytes v n).length = n := by
  induction n generalizing v with
  | zero => rfl
  | succ n ih => rw [leBytes, List.length_cons, ih]

theorem length_upTo (a n : Nat) : (upTo a n).length = n := by
  induction n generalizing a with
  | zero => rfl
  | succ n ih => rw [upTo, List.length_cons, ih]

theorem length_words (word : Nat → Nat) (l : List Nat) : ((l.map (fun k => leBytes (word k) 4)).flatten).length = 4 * l.length := by
  induction l with
  | nil => rfl
  | cons k l ih =>
    rw [List.map_cons, List.flatten_cons, List.length_append, length_leBytes, ih, List.length_cons]
    omega

theorem length_bytes (x : Stream) (sid : Nat) : (x.bytes sid).length = 2048 := by
  rw [Stream.bytes, length_words, length_upTo]

/-- Saving a stream's records disarms an injection that names the first line of its context. -/
theorem saveCtx_disarms {s : State} {sid : Nat} {j : Inject} (hj : s.flt.inject = some j) (hkind : j.kind = 3 ∨ j.kind = 4)
    (hline : j.addr / 64 = s.ctxAddr sid / 64) (ha : s.ctxAddr sid % 64 = 0) (hroom : s.ctxAddr sid < partUsable s.part) :
    (s.saveCtx sid).fld Reg.FLT_INJECT_CTRL_ARM = 0 :=
  putBytes_disarms hj hkind hline ha (by rw [length_bytes]; decide) hroom

/-! ## The end of a command -/

/-- A queue's next command asks for its entry: of the registers only LIVE_HELD and those of events and faults move. -/
theorem fld_hostAsk (s : State) (q : Nat) (g : Fld) (h : eventField g.key = false) (h' : g.key ≠ Reg.LGR_STATUS_LIVE_HELD.key) :
    (s.hostAsk q).fld g = s.fld g := by
  unfold State.hostAsk State.ask
  split
  · rfl
  · split
    · rfl
    · exact judge_fld _ _ h h'

theorem fld_setLState (s : State) (k st : Nat) (g : Fld) : (s.setLState k st).fld g = s.fld g := by
  unfold State.setLState
  split <;> rfl

/-- So do they where a command ends. -/
theorem fld_finish (s : State) (e : Nat) (f : HFin) (g : Fld) (h : eventField g.key = false)
    (h' : g.key ≠ Reg.LGR_STATUS_LIVE_HELD.key) : (s.finish e f).fld g = s.fld g := by
  unfold State.finish State.cplLost State.cmdGone
  split
  · dsimp only
    split
    · exact (fld_hostAsk _ _ g h h').trans (fld_bump ..)
    · split
      · rfl
      · exact fld_setLState ..
  · rfl

/-! ## REFRESH_REQUEST -/

/-- A REFRESH_REQUEST of an open encode stream reaches the stream and ends OK. -/
theorem exec_refreshRequest {s : State} {e now : Nat} {c : HCmd} (hrun : (s.at now).running e 0x14 = some c)
    (hopen : ((s.at now).stream (cTarget c.words)).state ≠ 0) (hdir : ((s.at now).stream (cTarget c.words)).dir = 1) :
    exec (.refreshRequest e now) s =
      .next (((s.at now).putStream (cTarget c.words) ((s.at now).stream (cTarget c.words)).askRefresh).endCmd e 0) := by
  simp [exec, execRefreshRequest, hrun, hopen, hdir, State.refresh]

/-- A REFRESH_REQUEST of stream 5 that has started. -/
def refreshCmd : HCmd := ⟨0, 0x14 :: 5 :: List.replicate 14 0, none, 0, 0, 0, 0, 0, .nothing, [], none, 0, false⟩

/-- A module in SERVICE whose stream 5 encodes, with that command in entry 44, and with an armed DRAM_CE that names the first line of the
stream's context. -/
def armedRefresh : State :=
  { State.reset.setFlds [(Reg.LCM_MODE_MODE, 5), (Reg.FLT_INJECT_CTRL_ARM, 1)] with
    flt := { State.reset.flt with inject := some ⟨3, 0, 5 * 4096⟩ }, streams := [(5, { stream0 with dir := 1, state := 1 })],
    cmds := [(44, some refreshCmd)] }

/-- The request's store of the stream's records disarms the injection. -/
theorem armedRefresh_disarms : ∃ t, exec (.refreshRequest 44 0) armedRefresh = .next t ∧ t.fld Reg.FLT_INJECT_CTRL_ARM = 0 := by
  refine ⟨_, exec_refreshRequest (c := refreshCmd) rfl (by decide) rfl, ?_⟩
  rw [State.endCmd, fld_finish _ _ _ _ rfl (by decide)]
  exact saveCtx_disarms (j := ⟨3, 0, 5 * 4096⟩) rfl (Or.inl rfl) (by decide) (by decide) (by decide)

/-- Refutes O59: its clause on REFRESH_REQUEST keeps every register but those of the host interface, and the store of the stream's records in
device DRAM that the request makes clears FLT_INJECT_CTRL.ARM where an injection waits for a write there. -/
theorem not_hostCommandsAct : ¬ Obligations.HostCommandsAct := by
  rintro ⟨acts, -⟩
  obtain ⟨-, -, -, -, refresh, -⟩ := acts armedRefresh 44 0 refreshCmd
  obtain ⟨t, hrun, -, -, -, hframe⟩ := refresh rfl
  obtain ⟨u, hu, hdisarmed⟩ := armedRefresh_disarms
  obtain rfl : t = u := by
    rw [hrun] at hu
    exact Host.Outcome.next.inj hu
  have hkept : t.fld Reg.FLT_INJECT_CTRL_ARM = (armedRefresh.at 0).fld Reg.FLT_INJECT_CTRL_ARM :=
    hframe.flds Reg.FLT_INJECT_CTRL_ARM rfl (by decide)
  rw [hdisarmed, fld_at] at hkept
  exact absurd hkept (by decide)

end Sys2Proof.Machine
end

section
/-!
PROOFS. The end of a decoded picture (R130): what the statement on it says of two surfaces whose formats differ.
-/
namespace Sys2Proof.Machine

open Sys2Proof Sys2Proof.Laws

/-- A DEC_PIC_END of stream 0, picture 0. -/
def picEndTask : QTask := ⟨sealDesc (0x16 :: List.replicate 15 0), 0, 0, []⟩

/-- A sequence of one sample, in blocks of two by two. -/
def dotSeq : SeqHdr :=
  ⟨true, 0, false, 1, 40, 1, 1, 8, 8, 0, 2, ⟨false, false, false, false, false, false, false⟩, false, false, 1, 1⟩

/-- A picture of one sample: its output surface, at 0x1000, has one plane (512 bytes), and the surface that its references read has three. -/
def lumaPic : DecPic :=
  { id := 0, poc := 0, seq := 0, intra := true, clears := false, surf := ⟨0x1000, 1, 1, 3, 0⟩, refSurf := ⟨0x10000, 1, 1, 0, 0⟩, refs := [],
    first := false, parseAhead := false, skip := false, directed := 0, layer := 0, shown := true, started := false, finalAt := none,
    syn := [], parsed := false, rowsDone := [], taint := false, concealed := 0, acc := [], damage := none }

/-- Stream 0 decodes that picture, no slice of which has come, and Lathe 0 is ready to end it. -/
def lumaEnds : State :=
  { State.reset.setFld (Reg.SPN_STATUS_STATE 0) 3 with
    streams := [(0, { stream0 with state := 2, dec := { decSt0 with seq := some dotSeq, cur := some lumaPic } })],
    lathes := [(0, { lathe0 with queue := [picEndTask], disp := [(0x16, 4096)] })] }

/-- A picture's end that brings nothing. -/
def bareEnd : PicEndIn := ⟨0, false, true, [], 0⟩

theorem lumaEnds_startable : Startable lumaEnds 0 picEndTask := by
  unfold Startable
  decide +kernel

/-- Concealing the chroma of the one block writes past the end of the output surface: 0x1200 holds a header of a plane that it does not have. -/
theorem lumaEnds_strays (t : State) (h : exec (.decPicEnd 0 bareEnd 0) lumaEnds = .next t) : t.byte 0x1201 = 0x80 := by
  have hbyte : (match exec (.decPicEnd 0 bareEnd 0) lumaEnds with
      | .next u => u.byte 0x1201
      | _ => 0) = 0x80 := by decide +kernel
  rwa [h] at hbyte

/-- Refutes O21: DEC_PIC_END conceals as many planes as the reference surface has in the output surface too, and the statement does not ask
that the formats of the two agree, as those of every picture that DEC_PIC_START opens do. Where the output surface has fewer planes, the store
goes beyond it. -/
theorem not_decodeParsesAheadAndEnds : ¬ Obligations.DecodeParsesAheadAndEnds := by
  rintro ⟨-, ends⟩
  obtain ⟨t, r, hrun, -, -, -, -, -, -, -, hbeside, -⟩ :=
    ends lumaEnds 0 0 picEndTask lumaPic dotSeq bareEnd lumaEnds_startable (by decide +kernel) rfl rfl (by decide +kernel) (by decide)
      (by decide)
  have hkept : t.byte 0x1201 = lumaEnds.byte 0x1201 := hbeside 0x1201 (Or.inr (by decide)) (Or.inl (by decide))
  rw [lumaEnds_strays t hrun] at hkept
  exact absurd hkept (by decide)

end Sys2Proof.Machine
end

section
/-!
PROOFS. What a Lathe's bitstream queue takes from the feeder, gives way to at the stall limit, and loses to a flush (R110, R113 to R115).
-/
namespace Sys2Proof.Machine

open Sys2Proof Sys2Proof.Laws

/-! ## Reads of a queue -/

@[simp] theorem lathes_bump (s : State) (c k : Nat) : (s.bump c k).lathes = s.lathes := by
  unfold State.bump
  split <;> rfl

@[simp] theorem lth_bump (s : State) (c k m : Nat) : (s.bump c k).lth m = s.lth m := by rw [State.lth, lathes_bump, State.lth]

@[simp] theorem bsq_bump (s : State) (c k m : Nat) : (s.bump c k).bsq m = s.bsq m := by rw [State.bsq, lth_bump, State.bsq]

@[simp] theorem on_bump (s : State) (c k : Nat) (f : Fld) : (s.bump c k).on f = s.on f := by rw [State.on, fld_bump, State.on]

@[simp] theorem lth_setFld (s : State) (f : Fld) (v m : Nat) : (s.setFld f v).lth m = s.lth m := rfl

@[simp] theorem bsq_setFld (s : State) (f : Fld) (v m : Nat) : (s.setFld f v).bsq m = s.bsq m := rfl

@[simp] theorem bsq_setBsq_same (s : State) (n : Nat) (q : Bsq) : (s.setBsq n q).bsq n = q := by
  rw [State.bsq, State.setBsq, lth_setLth_same]

@[simp] theorem fld_setBsq (s : State) (n : Nat) (q : Bsq) (f : Fld) : (s.setBsq n q).fld f = s.fld f := rfl

@[simp] theorem on_setBsq (s : State) (n : Nat) (q : Bsq) (f : Fld) : (s.setBsq n q).on f = s.on f := rfl

@[simp] theorem cnt_setBsq (s : State) (n : Nat) (q : Bsq) (c : Nat) : (s.setBsq n q).cnt c = s.cnt c := rfl

/-! ## What a queue's operations change -/

/-- From s to t Lathe n's bitstream queue, the fields fs and the counters cs have moved, and nothing else; its run is as it was. -/
structure QueueMoves (n : Nat) (fs : List Fld) (cs : List Nat) (s t : State) : Prop where
  run : (t.lth n).run = (s.lth n).run
  lathes : ∀ m, m ≠ n → t.lth m = s.lth m
  regs : OnlyRegs { s with lathes := t.lathes } t fs cs

namespace QueueMoves

variable {n : Nat} {fs : List Fld} {cs : List Nat} {s t : State}

theorem refl (n : Nat) (fs : List Fld) (cs : List Nat) (s : State) : QueueMoves n fs cs s s := ⟨rfl, fun _ _ => rfl, OnlyRegs.refl ..⟩

theorem setBsq (h : QueueMoves n fs cs s t) (q : Bsq) : QueueMoves n fs cs s (t.setBsq n q) := by
  refine ⟨?_, fun m hm => (lth_setLth_other _ _ _ _ hm).trans (h.lathes m hm), h.regs.flds, h.regs.cnts, ?_⟩
  · rw [State.setBsq, lth_setLth_same]
    exact h.run
  · have e := congrArg (fun x : State => { x with lathes := (t.setBsq n q).lathes }) h.regs.rest
    exact e

theorem bump (h : QueueMoves n fs cs s t) (c k : Nat) (hc : c ∈ cs) : QueueMoves n fs cs s (t.bump c k) :=
  ⟨by rw [lth_bump, h.run], fun m hm => by rw [lth_bump, h.lathes m hm], by
    rw [lathes_bump]
    exact h.regs.bump c k hc⟩

theorem setFld (h : QueueMoves n fs cs s t) (f : Fld) (v : Nat) (hf : f ∈ fs) : QueueMoves n fs cs s (t.setFld f v) :=
  ⟨h.run, h.lathes, h.regs.setFld f v hf⟩

end QueueMoves

/-! ## A word is offered -/

/-- The counters that an offered word moves. -/
def offerC (n : Nat) : List Nat :=
  [Cnt.BSQ_WORDS_IN n, Cnt.BSQ_WORDS_DROPPED n, Cnt.BSQ_WORDS_FLUSHED n, Cnt.BSQ_GAPS_OVERFLOW n, Cnt.BSQ_GAPS_LOSS n]

/-- A queue after a word is stored that no injection meets. -/
def Bsq.stored (q : Bsq) (w : BsqWord) : Bsq :=
  { q with words := q.words ++ [w], discarding := false, gapWritten := q.gapWritten || isOverflow w, item := !w.last }

/-- A stored word counts, and a GAP in the counter of its source too. -/
theorem bsqStore_eq {s : State} {n : Nat} {w : BsqWord} (h : s.flt.inject = none) :
    s.bsqStore n w =
      let t := (s.setBsq n ((s.bsq n).stored w)).bump (Cnt.BSQ_WORDS_IN n)
      if w.kind = 1 then t.bump (if isOverflow w then Cnt.BSQ_GAPS_OVERFLOW n else Cnt.BSQ_GAPS_LOSS n) else t := by
  simp [State.bsqStore, Bsq.stored, h]

theorem bsq_bsqStore {s : State} {n : Nat} {w : BsqWord} (h : s.flt.inject = none) : (s.bsqStore n w).bsq n = (s.bsq n).stored w := by
  rw [bsqStore_eq h]
  dsimp only
  split
  · simp
  · simp

theorem bsqStore_moves {s : State} {n : Nat} {w : BsqWord} (h : s.flt.inject = none) : QueueMoves n [] (offerC n) s (s.bsqStore n w) := by
  have hin := ((QueueMoves.refl n [] (offerC n) s).setBsq ((s.bsq n).stored w)).bump (Cnt.BSQ_WORDS_IN n) 1 (by simp [offerC])
  rw [bsqStore_eq h]
  dsimp only
  split
  · refine hin.bump _ 1 ?_
    split
    · simp [offerC]
    · simp [offerC]
  · exact hin

section

variable {s : State} {n : Nat} {w : BsqWord}

/-- A word that a flush covers is flushed (R115). -/
theorem bsqOffer_of_flushed (h : (s.bsq n).flushed = true) : s.bsqOffer n w = s.bump (Cnt.BSQ_WORDS_FLUSHED n) := by
  simp [State.bsqOffer, h]

/-- In the discarding state a word that starts no item is dropped (R110). -/
theorem bsqOffer_of_discarded (hf : (s.bsq n).flushed = false) (hd : (s.bsq n).discarding = true) (hw : w.start = false) :
    s.bsqOffer n w = s.bump (Cnt.BSQ_WORDS_DROPPED n) := by
  simp [State.bsqOffer, hf, hd, hw]

/-- Any other word is stored where there is room (R110). -/
theorem bsqOffer_of_room (hf : (s.bsq n).flushed = false) (hw : (s.bsq n).discarding = false ∨ w.start = true)
    (hr : (s.bsq n).occupied < 16383) : s.bsqOffer n w = s.bsqStore n w := by
  unfold State.bsqOffer
  dsimp only
  rw [if_neg (by simp [hf]), if_neg (by rcases hw with hw | hw <;> simp [hw]), if_pos hr]

/-- At a full queue the feeder holds it (R110). -/
theorem bsqOffer_of_full (hf : (s.bsq n).flushed = false) (hw : (s.bsq n).discarding = false ∨ w.start = true)
    (hr : 16383 ≤ (s.bsq n).occupied) :
    s.bsqOffer n w = s.setBsq n { s.bsq n with held := some w, stalled := true, discarding := false } := by
  unfold State.bsqOffer
  dsimp only
  rw [if_neg (by simp [hf]), if_neg (by rcases hw with hw | hw <;> simp [hw]), if_neg (Nat.not_lt.2 hr)]

/-- A word that is not taken leaves the queue. -/
theorem bsq_bsqOffer_of_lost (h : (s.bsq n).flushed = true ∨ ((s.bsq n).discarding = true ∧ w.start = false)) :
    (s.bsqOffer n w).bsq n = s.bsq n := by
  cases hf : (s.bsq n).flushed with
  | true => rw [bsqOffer_of_flushed hf, bsq_bump]
  | false =>
    obtain ⟨hd, hw⟩ := h.resolve_left (by simp [hf])
    rw [bsqOffer_of_discarded hf hd hw, bsq_bump]

theorem bsqOffer_moves (h : s.flt.inject = none) : QueueMoves n [] (offerC n) s (s.bsqOffer n w) := by
  have start := QueueMoves.refl n [] (offerC n) s
  unfold State.bsqOffer
  dsimp only
  split
  · exact start.bump _ 1 (by simp [offerC])
  · split
    · exact start.bump _ 1 (by simp [offerC])
    · split
      · exact bsqStore_moves h
      · exact start.setBsq _

end

/-! ## The feeder's word -/

section

variable {s : State} {n : Nat} {w : BsqWord} {src : Nat}

theorem feederWord_of_poison (h : s.rangePoison src 8 = true) : (s.feederWord n w src none).kind = 2 := by
  simp [State.feederWord, h]

theorem feederWord_of_clean (h : s.rangePoison src 8 = false) : s.feederWord n w src none = w := by
  simp [State.feederWord, h]

/-- Where no task runs, the losses are those recorded of stream 0. -/
theorem feederWord_of_loss {k c : Nat} (hrun : (s.lth n).run = none) (h : (lossesOf (tget [] s.ring.arrived 0))[k]? = some c) :
    s.feederWord n w src (some k) = gapWord 2 c w.start w.last := by
  simp [State.feederWord, hrun, h]

end

/-! ## The feeder's commands at a Lathe that runs nothing -/

/-- Where no task runs, none goes on. -/
theorem resumeRun_of_idle {s : State} {n : Nat} (h : (s.lth n).run = none) : s.resumeRun n = s := by
  simp [State.resumeRun, h]

section

variable {s : State} {n : Nat}

/-- The feeder offers its word. -/
theorem exec_feederPush (hn : s.hasLathe n = true) (hrun : (s.lth n).run = none) (hheld : (s.bsq n).held = none)
    (hinj : s.flt.inject = none) (w : BsqWord) (src : Nat) (loss : Option Nat) :
    exec (.feederPush n ⟨w, src⟩ loss false) s = .next (s.bsqOffer n (s.feederWord n w src loss)) := by
  have hidle : ((s.bsqOffer n (s.feederWord n w src loss)).lth n).run = none := (bsqOffer_moves hinj).run.trans hrun
  simp [exec, execFeederPush, hn, hheld, resumeRun_of_idle hidle]

/-- A pop of the same cycle at an empty queue counts IDLE first: it does not see the word (R113). -/
theorem exec_feederPush_pop (hn : s.hasLathe n = true) (hheld : (s.bsq n).held = none) (hu : (s.bsq n).unread = 0) (w : BsqWord)
    (src : Nat) (loss : Option Nat) :
    exec (.feederPush n ⟨w, src⟩ loss true) s = .next ((s.bump (Cnt.BSQ_CYC_IDLE n)).bsqOffer n (s.feederWord n w src loss)) := by
  simp [exec, execFeederPush, hn, hheld, hu]

/-- The counters of an offered word are not that of IDLE. -/
theorem idle_not_offerC (n : Nat) : Cnt.BSQ_CYC_IDLE n ∉ offerC n := by
  simp [offerC, Cnt.BSQ_CYC_IDLE, Cnt.BSQ_WORDS_IN, Cnt.BSQ_WORDS_DROPPED, Cnt.BSQ_WORDS_FLUSHED, Cnt.BSQ_GAPS_OVERFLOW,
    Cnt.BSQ_GAPS_LOSS]

/-- That pop counts one cycle of IDLE, and leaves RD; the word is stored behind it. -/
theorem feederPush_pop_stores {w : BsqWord} (hinj : s.flt.inject = none) (hf : (s.bsq n).flushed = false)
    (hw : (s.bsq n).discarding = false ∨ w.start = true) (hr : (s.bsq n).occupied < 16383) :
    let t := (s.bump (Cnt.BSQ_CYC_IDLE n)).bsqOffer n w
    t.bsq n = (s.bsq n).stored w ∧
      (s.on (freezeOf (Cnt.BSQ_CYC_IDLE n)) = false → t.cnt (Cnt.BSQ_CYC_IDLE n) = (s.cnt (Cnt.BSQ_CYC_IDLE n) + 1) % 2 ^ 64) := by
  have hq : (s.bump (Cnt.BSQ_CYC_IDLE n)).bsq n = s.bsq n := bsq_bump ..
  have hinj' : (s.bump (Cnt.BSQ_CYC_IDLE n)).flt.inject = none := by rw [flt_bump, hinj]
  refine ⟨?_, fun hfree => ?_⟩
  · rw [bsqOffer_of_room (hq ▸ hf) (hq ▸ hw) (hq ▸ hr), bsq_bsqStore hinj', hq]
  · rw [(bsqOffer_moves hinj').regs.cnts _ (idle_not_offerC n)]
    exact cnt_bump_same s _ 1 hfree

end

/-! ## The stall limit -/

/-- A queue whose held word has given way: to an OVERFLOW GAP in the kept slot, where that is free. -/
def Bsq.overflowed (q : Bsq) : Bsq :=
  let gap := q.words.length < 16384
  { q with words := if gap then q.words ++ [gapWord 1 0 false true] else q.words, held := none, stalled := false, discarding := true,
           gapWritten := q.gapWritten || gap, item := false }

/-- The counters that the stall limit moves. -/
def stallC (n : Nat) : List Nat := [Cnt.BSQ_WORDS_DROPPED n, Cnt.BSQ_WORDS_IN n, Cnt.BSQ_GAPS_OVERFLOW n, Cnt.BSQ_CYC_FULL n]

/-- The word dropped counts, and the GAP where one is stored. -/
theorem bsqOverflow_eq (s : State) (n : Nat) : s.bsqOverflow n =
    let t := (s.setBsq n (s.bsq n).overflowed).bump (Cnt.BSQ_WORDS_DROPPED n)
    if (s.bsq n).words.length < 16384 then (t.bump (Cnt.BSQ_WORDS_IN n)).bump (Cnt.BSQ_GAPS_OVERFLOW n) else t := rfl

theorem bsq_bsqOverflow (s : State) (n : Nat) : (s.bsqOverflow n).bsq n = (s.bsq n).overflowed := by
  rw [bsqOverflow_eq]
  dsimp only
  split
  · simp
  · simp

theorem bsqOverflow_moves (s : State) (n : Nat) : QueueMoves n [] (stallC n) s (s.bsqOverflow n) := by
  have dropped := ((QueueMoves.refl n [] (stallC n) s).setBsq (s.bsq n).overflowed).bump (Cnt.BSQ_WORDS_DROPPED n) 1 (by simp [stallC])
  rw [bsqOverflow_eq]
  dsimp only
  split
  · exact (dropped.bump _ 1 (by simp [stallC])).bump _ 1 (by simp [stallC])
  · exact dropped

/-- At the stall limit the held word gives way (R110), and the cycles that it was held count in CYC_FULL. -/
theorem exec_feederStallLimit {s : State} {n : Nat} {w : BsqWord} (hrun : (s.lth n).run = none) (hheld : (s.bsq n).held = some w) :
    exec (.feederStallLimit n false) s =
      .next ((s.bsqOverflow n).bump (Cnt.BSQ_CYC_FULL n) (atLeast1 (s.fld (Reg.LTH_BSQ_STALL_LIMIT_LIMIT_CYC n)))) := by
  have hidle : ((s.bsqOverflow n).lth n).run = none := (bsqOverflow_moves s n).run.trans hrun
  simp [exec, execFeederStallLimit, hheld, resumeRun_of_idle, hidle]

/-! ## A flush -/

/-- Every Lathe's bitstream queue lies in the Lathe's own domain. -/
theorem domainOf_bsqCtrl {n : Nat} (h : n < 26) : domainOf (0x100208 + 0x10000 * n) = some (12 + n) := by
  have hw : (0x100208 + 0x10000 * n) / 0x10000 = 16 + n := by omega
  unfold domainOf
  dsimp only
  rw [hw, if_neg (by omega), if_neg (by omega), if_neg (by omega), if_pos (by omega)]
  congr 1
  omega

theorem hasLathe_lt {s : State} {n : Nat} (h : s.hasLathe n = true) : n < 26 := by
  have : partLathes s.part ≤ 26 := by cases s.part <;> decide
  simp only [State.hasLathe, decide_eq_true_eq] at h
  omega

/-- In a domain that is ON a flush is requested at once (R114). -/
theorem exec_bsqFlushRequest {s : State} {n : Nat} (hn : s.hasLathe n = true) (hp : s.pd (12 + n) = 0) :
    exec (.bsqFlushRequest n) s = .next (s.bsqRequest n) := by
  simp [exec, execBsqFlushRequest, hn, onWrite_awake _ _ _ _ _ (domainOf_bsqCtrl (hasLathe_lt hn)) hp]

theorem bsqRequest_moves (s : State) (n : Nat) : QueueMoves n [Reg.LTH_BSQ_CTRL_FLUSH n] [] s (s.bsqRequest n) :=
  ((QueueMoves.refl ..).setFld _ 1 (by simp)).setBsq _

theorem fld_bsqRequest (s : State) (n : Nat) : (s.bsqRequest n).fld (Reg.LTH_BSQ_CTRL_FLUSH n) = 1 := by
  simp [State.bsqRequest, Reg.LTH_BSQ_CTRL_FLUSH]

/-- A pending flush takes effect where no routine holds words (R114). -/
theorem exec_bsqFlush {s : State} {n : Nat} (hp : (s.bsq n).flushPending = true) (hrd : (s.bsq n).rd = 0) (k : Nat) (c : CycleIn) :
    exec (.bsqFlush n k c) s = .next (s.bsqFlush n k c) := by
  simp [exec, execBsqFlush, hp, hrd]

/-- The words that a flush discards: those of the queue, the held one, k of the item in flight and one pushed in its cycle (R115). -/
def Bsq.discards (q : Bsq) (k : Nat) (c : CycleIn) : Nat :=
  q.words.length + (if q.held.isSome then 1 else 0) + k + (if c.push then 1 else 0)

/-- A flush leaves the feeder in one of its states before an empty queue, counts a pop of its cycle as IDLE, and counts itself and what it
discards. -/
theorem bsqFlush_eq (s : State) (n k : Nat) (c : CycleIn) : ∃ discarding flushed,
    s.bsqFlush n k c =
      let t := s.setBsq n { bsq0 with discarding := discarding, flushed := flushed }
      let u := if c.pop then t.bump (Cnt.BSQ_CYC_IDLE n) else t
      ((u.setFld (Reg.LTH_BSQ_CTRL_FLUSH n) 0).bump (Cnt.BSQ_FLUSHES n)).bump (Cnt.BSQ_WORDS_FLUSHED n) ((s.bsq n).discards k c) :=
  ⟨_, _, rfl⟩

/-- The counters that a flush moves. -/
def flushC (n : Nat) : List Nat := [Cnt.BSQ_FLUSHES n, Cnt.BSQ_WORDS_FLUSHED n, Cnt.BSQ_CYC_IDLE n]

theorem bsqFlush_moves (s : State) (n k : Nat) (c : CycleIn) :
    QueueMoves n [Reg.LTH_BSQ_CTRL_FLUSH n] (flushC n) s (s.bsqFlush n k c) := by
  obtain ⟨discarding, flushed, e⟩ := bsqFlush_eq s n k c
  have empty := (QueueMoves.refl n [Reg.LTH_BSQ_CTRL_FLUSH n] (flushC n) s).setBsq { bsq0 with discarding := discarding, flushed := flushed }
  rw [e]
  refine (((?_ : QueueMoves ..).setFld _ 0 (by simp)).bump _ 1 (by simp [flushC])).bump _ _ (by simp [flushC])
  split
  · exact empty.bump _ 1 (by simp [flushC])
  · exact empty

theorem bsq_bsqFlush (s : State) (n k : Nat) (c : CycleIn) :
    ∃ discarding flushed, (s.bsqFlush n k c).bsq n = { bsq0 with discarding := discarding, flushed := flushed } := by
  obtain ⟨discarding, flushed, e⟩ := bsqFlush_eq s n k c
  refine ⟨discarding, flushed, ?_⟩
  rw [e]
  cases c.pop <;> simp

theorem fld_bsqFlush (s : State) (n k : Nat) (c : CycleIn) : (s.bsqFlush n k c).fld (Reg.LTH_BSQ_CTRL_FLUSH n) = 0 := by
  obtain ⟨discarding, flushed, e⟩ := bsqFlush_eq s n k c
  rw [e]
  simp

/-- FREEZE of a Lathe's counters is not its FLUSH. -/
theorem freeze_ne_flush (n : Nat) : (freezeOf (Cnt.BSQ_WORDS_FLUSHED n)).key ≠ (Reg.LTH_BSQ_CTRL_FLUSH n).key := by
  have hw : 0x10 ≤ Cnt.BSQ_WORDS_FLUSHED n / 0x10000 := by
    unfold Cnt.BSQ_WORDS_FLUSHED
    omega
  simp only [freezeOf, if_pos hw, Fld.key, Reg.LTH_BSQ_CTRL_FLUSH]
  omega

theorem cnt_bsqFlush (s : State) (n k : Nat) (c : CycleIn) (h : s.on (freezeOf (Cnt.BSQ_WORDS_FLUSHED n)) = false) :
    (s.bsqFlush n k c).cnt (Cnt.BSQ_WORDS_FLUSHED n) = (s.cnt (Cnt.BSQ_WORDS_FLUSHED n) + (s.bsq n).discards k c) % 2 ^ 64 := by
  obtain ⟨discarding, flushed, e⟩ := bsqFlush_eq s n k c
  have hidle : Cnt.BSQ_WORDS_FLUSHED n ≠ Cnt.BSQ_CYC_IDLE n := by simp [Cnt.BSQ_WORDS_FLUSHED, Cnt.BSQ_CYC_IDLE]
  have hflushes : Cnt.BSQ_WORDS_FLUSHED n ≠ Cnt.BSQ_FLUSHES n := by simp [Cnt.BSQ_WORDS_FLUSHED, Cnt.BSQ_FLUSHES]
  have hon (t : State) (v : Nat) : (t.setFld (Reg.LTH_BSQ_CTRL_FLUSH n) v).on (freezeOf (Cnt.BSQ_WORDS_FLUSHED n)) =
      t.on (freezeOf (Cnt.BSQ_WORDS_FLUSHED n)) := by
    rw [State.on, fld_setFld_other _ _ _ _ (freeze_ne_flush n), State.on]
  rw [e]
  cases c.pop with
  | true =>
    dsimp only
    rw [cnt_bump_same, cnt_bump_other _ _ _ _ hflushes, cnt_setFld, if_pos rfl, cnt_bump_other _ _ _ _ hidle, cnt_setBsq]
    simp [hon, h]
  | false =>
    dsimp only
    rw [cnt_bump_same, cnt_bump_other _ _ _ _ hflushes, cnt_setFld, if_neg Bool.false_ne_true, cnt_setBsq]
    simp [hon, h]

/-! ## The queue's statement -/

/-- Settles O27: each command of the feeder or of a flush is one operation on the queue, which moves its own counters alone. -/
theorem bitstreamQueueTakesWords : Obligations.BitstreamQueueTakesWords := by
  intro s n hn hrun q
  refine ⟨fun w src loss hheld hinj => ?_, fun w hheld => ?_, fun hp => ?_, fun k c hp hrd => ?_⟩
  · intro v free
    refine ⟨fun hl h => ?_, fun hl h => ?_, fun k c hl h => ?_, ?_, fun ⟨hf, hw⟩ hu hr => ?_⟩
    · subst hl
      exact feederWord_of_poison h
    · subst hl
      exact feederWord_of_clean h
    · subst hl
      exact feederWord_of_loss hrun h
    · have hm := bsqOffer_moves (n := n) (w := v) hinj
      refine ⟨_, exec_feederPush hn hrun hheld hinj w src loss, hm.lathes, bsq_bsqOffer_of_lost, fun ⟨hf, hw⟩ hr => ?_,
        fun ⟨hf, hw⟩ hr => ?_, hm.regs⟩
      · rw [bsqOffer_of_room hf hw hr]
        exact bsq_bsqStore hinj
      · rw [bsqOffer_of_full hf hw hr]
        exact bsq_setBsq_same ..
    · obtain ⟨hq, hcnt⟩ := feederPush_pop_stores hinj hf hw hr
      refine ⟨_, exec_feederPush_pop hn hheld hu w src loss, ?_, ?_, hcnt⟩
      · rw [hq]
        rfl
      · rw [hq]
        rfl
  · have hm := (bsqOverflow_moves s n).bump (Cnt.BSQ_CYC_FULL n) (atLeast1 (s.fld (Reg.LTH_BSQ_STALL_LIMIT_LIMIT_CYC n))) (by simp [stallC])
    refine ⟨_, exec_feederStallLimit hrun hheld, ?_⟩
    rw [bsq_bump, bsq_bsqOverflow]
    exact ⟨rfl, rfl, rfl, fun h => if_pos h, fun h => if_neg (Nat.not_lt.2 h), hm.lathes, hm.regs⟩
  · have hm := bsqRequest_moves s n
    exact ⟨_, exec_bsqFlushRequest hn hp, bsq_setBsq_same .., fld_bsqRequest .., hm.lathes, hm.regs⟩
  · have hm := bsqFlush_moves s n k c
    obtain ⟨discarding, flushed, hq⟩ := bsq_bsqFlush s n k c
    refine ⟨_, exec_bsqFlush hp hrd k c, ?_⟩
    rw [hq]
    exact ⟨rfl, rfl, rfl, fld_bsqFlush .., cnt_bsqFlush s n k c, hm.lathes, hm.regs⟩

end Sys2Proof.Machine
end

section
/-!
PROOFS. The encode tasks beside the rows: the start of a picture and its end (R76, R176, R177), and the analysis of a row (R145).
-/
namespace Sys2Proof.Machine

open Sys2Proof Sys2Proof.Laws

/-! ## What a run leaves to its task -/

/-- A picture's progress is cleared beside what a run moves (R219). -/
theorem runs_clearProg {b t : State} {n : Nat} {q : QTask} {r : Run} (h : Runs b t n q r) (sid : Nat) (kinds : List Nat) :
    Runs (b.clearProg sid kinds) (t.clearProg sid kinds) n q r := by
  obtain ⟨hrun, htask, hstart, ⟨p1, p2, p3, p4, p5⟩, hregs⟩ := h
  exact ⟨hrun, htask, hstart, ⟨p1, p2, p3, p4, p5⟩, hregs.flds, hregs.cnts, congrArg (fun x : State => x.clearProg sid kinds) hregs.rest⟩

theorem cnt_account_same (s : State) (c n : Nat) : (s.account c n).cnt c = (s.cnt c + n) % 2 ^ 64 := tget_tset_same ..

theorem cnt_account_other (s : State) (c n d : Nat) (h : d ≠ c) : (s.account c n).cnt d = s.cnt d := tget_tset_other _ _ _ _ _ _ h

/-- A task's bytes count against its stream's tag beside what its run moves (R312). -/
theorem runs_tasksMoved {b t : State} {n : Nat} {q : QTask} {r : Run} (h : Runs b t n q r) (d : List Nat) (bytes : Nat) :
    Runs (b.tasksMoved d bytes) (t.tasksMoved d bytes) n q r := by
  obtain ⟨hrun, htask, hstart, ⟨p1, p2, p3, p4, p5⟩, hregs⟩ := h
  refine ⟨hrun, htask, hstart, ⟨p1, p2, p3, p4, p5⟩, hregs.flds, fun c hc => ?_, ?_⟩
  · have hcnt : t.cnt c = b.cnt c := hregs.cnts c hc
    change (t.account (Cnt.DMC_ACCT (dSid d)) bytes).cnt c = (b.account (Cnt.DMC_ACCT (dSid d)) bytes).cnt c
    by_cases hacct : c = Cnt.DMC_ACCT (dSid d)
    · rw [← hacct, cnt_account_same, cnt_account_same, hcnt]
    · rw [cnt_account_other _ _ _ _ hacct, cnt_account_other _ _ _ _ hacct, hcnt]
  · exact congrArg (fun x : State => x.tasksMoved d bytes) hregs.rest

theorem run0_task (q : QTask) (start : Nat) : (run0 q start).task = q := rfl

/-- A task that can start, and that finds what it waits for, begins its run. -/
theorem begin_ready {s : State} {n : Nat} {q : QTask} {ready : List Nat → Bool} (hst : Startable s n q) (hr : ready q.desc = true)
    (now : Nat) : (s.at now).begin n (fun o => o = dOpcode q.desc) ready = ((s.at now).begun n q, some (run0 q (s.at now).time)) :=
  begin_startable (startable_at hst now) (decide_eq_true rfl) hr

theorem stream_begun (s : State) (n now : Nat) (q : QTask) (k : Nat) : ((s.at now).begun n q).stream k = s.stream k :=
  (runs_stream_eq (runs_begun ..) k).trans (stream_at ..)

theorem runs_canvases_eq {b t : State} {n : Nat} {q : QTask} {r : Run} (h : Runs b t n q r) : t.canvases = b.canvases := by
  obtain ⟨-, -, -, -, h⟩ := h
  have e := congrArg State.canvases h.rest
  exact e

/-- The geometry of a rendition is that of the canvases. -/
theorem geo_congr {s t : State} (h : t.canvases = s.canvases) (x : Stream) (r : Nat) : t.geo x r = s.geo x r := by
  simp only [State.geo, State.rendW, State.rendH, State.rendRows, State.rendRegs, State.cv, h]

theorem lt_of_mem_upTo {k a n : Nat} (h : k ∈ upTo a n) : k < a + n := by
  induction n generalizing a with
  | zero => exact absurd h List.not_mem_nil
  | succ n ih =>
    rcases List.mem_cons.1 h with rfl | h
    · omega
    · have := ih h
      omega

/-- A task belongs to the picture that its rendition codes. -/
theorem codes_of_cur {s : State} {r : Nat} {d : List Nat} {pic : EncPic} (hcur : ((s.stream (dSid d)).rendition r).cur = some pic)
    (hseq : pic.c % 65536 = dPicSeq d) : s.codes r d = true := by
  simp [State.codes, hcur, hseq]

/-! ## ENC_PIC_START -/

theorem rendition_setRend_same (x : Stream) (r : Nat) (y : Rend) : (x.setRend r y).rendition r = y := tget_tset_same ..

/-- A rendition that has coded no picture is added with its first one; the changes due at that picture do not alter this (R160, R167, R189). -/
theorem cause_encPicFor_takeSoon (x : Stream) (r : Nat) (z : Decided) : ((x.takeSoon r z.c).encPicFor r z).cause =
    if (x.rendition r).total = 0 ∧ z.c ≠ 0 then some 5 else z.cause := by
  have htotal : ((x.takeSoon r z.c).rendition r).total = (x.rendition r).total := by rw [Stream.takeSoon, rendition_setRend_same]
  rw [← htotal]
  rfl

/-- The start sets a picture's quantiser, target, fullness and syntax, and leaves the rest as the decided picture gave it (R173, R176). -/
theorem startPic0_eq (s : State) (x : Stream) (r : Nat) (z : Decided) : ∃ rq safe target full syn,
    s.startPic0 x r z = { (x.takeSoon r z.c).encPicFor r z with rq := rq, safe := safe, target := target, full := full, syn := syn } :=
  ⟨_, _, _, _, _, rfl⟩

/-- A picture in the intra form is an I picture with no reference and no place in a rolling cycle (R155, R158, R159, R173). -/
theorem encPicFor_intra {x : Stream} {r : Nat} {z : Decided} (h : (x.encPicFor r z).intra = true) :
    (x.encPicFor r z).type = 0 ∧ (x.encPicFor r z).refs = [] ∧ (x.encPicFor r z).roll = none :=
  ⟨if_pos h, if_pos h, if_pos (Or.inl h)⟩

/-- A picture takes the intra form where its decision asks for it, or where its rendition is added with it (R160, R167). -/
theorem encPicFor_intra_iff (x : Stream) (r : Nat) (z : Decided) :
    (x.encPicFor r z).intra = true ↔ z.intra = true ∨ (x.encPicFor r z).cause = some 5 := by
  have e : (x.encPicFor r z).intra = (decide ((x.encPicFor r z).cause = some 5) || z.intra) := rfl
  rw [e, Bool.or_eq_true, decide_eq_true_iff, or_comm]

/-- The kinds of progress rows that a rendition's picture clears: its own, and with rendition 0 those of the analysis (R219). -/
def startKinds (r : Nat) : List Nat := if r = 0 then [0, 4] else [r]

theorem mem_startKinds (r k : Nat) : k ∈ startKinds r ↔ k = r ∨ (r = 0 ∧ k = 4) := by
  unfold startKinds
  split
  next h => simp [h]
  next h => simp [h]

theorem prog_clearProg (s : State) (sid k : Nat) (kinds : List Nat) :
    (s.clearProg sid kinds).prog k = if k / 4096 = sid ∧ k / 512 % 8 ∈ kinds then 0 else s.prog k := by
  refine (tget_tclear ..).trans ?_
  simp [State.prog]

/-- A picture's progress is cleared and the run ends: of the state in which it began, only that progress differs beside what a run moves. -/
theorem clearProg_ended {b u : State} {n : Nat} {q : QTask} {r z : Run} (h : Runs b u n q r) (sid : Nat) (kinds : List Nat)
    (htask : z.task = r.task) (hstart : z.start = r.start) :
    let t := (u.clearProg sid kinds).ended n z
    (t.lth n).run = some z.over ∧ (∀ k, t.prog k = if k / 4096 = sid ∧ k / 512 % 8 ∈ kinds then 0 else b.prog k) ∧ Popped b t n q 3 ∧
      OnlyRegs (runBase { b with progress := t.progress } t) t (traceF n) (runC n) := by
  have hend := runs_ended (runs_clearProg h sid kinds) z htask hstart
  generalize (u.clearProg sid kinds).ended n z = t at hend
  have hprog := runs_progress_eq hend
  obtain ⟨hrun, -, -, ⟨p1, p2, p3, p4, p5⟩, hregs⟩ := hend
  refine ⟨hrun, fun k => ?_, ⟨p1, p2, p3, p4, p5⟩, ?_⟩
  · rw [State.prog, hprog]
    exact prog_clearProg ..
  · rw [hprog]
    exact hregs

/-- ENC_PIC_START of a decided picture clears the progress of the picture that it starts and ends its run with it. -/
theorem exec_encPicStart {s : State} {n : Nat} {q : QTask} {z : Decided} (now : Nat) (hst : Startable s n q) (hop : dOpcode q.desc = 0x30)
    (hz : (s.stream (dSid q.desc)).startable (dRend q.desc) (dPicSeq q.desc) = some z) :
    let u := (s.at now).begun n q
    exec (.encPicStart n now) s = .next ((u.clearProg (dSid q.desc) (startKinds (dRend q.desc))).ended n
      { run0 q (s.at now).time with enc := some (u.startPic0 (s.stream (dSid q.desc)) (dRend q.desc) z) }) := by
  have hb := begin_ready (ready := s.encStartReady) hst (by rw [State.encStartReady, hz]; rfl) now
  rw [hop] at hb
  simp only [exec, execEncPicStart, hb, run0_task, stream_begun, hz]
  rfl

/-! ## ANA_ROW -/

/-- A row analyses each of its inputs, in their order. -/
theorem length_records (s : State) (a : AnaCtx) (l : List AnaIn) (done : List AnaRec) :
    (a.records s done l).length = done.length + l.length := by
  induction l generalizing done with
  | nil => rfl
  | cons i l ih =>
    rw [AnaCtx.records, ih, List.length_append, List.length_singleton, List.length_cons]
    omega

/-- What holds of each record that the row makes holds of all that it leaves. -/
theorem forall_mem_records {p : AnaRec → Prop} {s : State} {a : AnaCtx} (h : ∀ done k i, p (a.record s done k i)) (l : List AnaIn)
    {done : List AnaRec} (hdone : ∀ y ∈ done, p y) : ∀ y ∈ a.records s done l, p y := by
  induction l generalizing done with
  | nil => exact hdone
  | cons i l ih =>
    refine ih fun y hy => ?_
    rcases List.mem_append.1 hy with hy | hy
    · exact hdone y hy
    · exact List.mem_singleton.1 hy ▸ h done done.length i

/-- A block that is not searched, and every one of picture 0, has zero vectors (R152, R162, R184). -/
theorem record_zero {a : AnaCtx} (h : a.c = 0 ∨ ∀ u v, a.zero u v = true) (s : State) (done : List AnaRec) (k : Nat) (i : AnaIn) :
    (a.record s done k i).mv = (0, 0) ∧ (a.record s done k i).mv2 = (0, 0) := by
  have hkeep (m : Int × Int) : a.c = 0 ∨ a.zero (k % a.g0.across) (a.row * (a.g0.block / 8) + k / a.g0.across) = true ∨
      ¬ a.effort.reaches (a.centres done k) m = true := h.imp_right fun hz => Or.inl (hz _ _)
  exact ⟨if_pos (hkeep _), if_pos (hkeep _)⟩

/-- A stream's private state with the cells of a row of its picture aged (R151). -/
def State.rowAged (s : State) (x : Stream) (pic : EncPic) (d : List Nat) : EncSt :=
  let g := s.geo x 0
  (s.ageRows x.enc x.hints g.cvW pic (dAux d) (g.firstCellRow (dRow d)) (g.coverRows (dRow d))).1

/-- The records of a row: one for each of its blocks, those that no input names with zero vectors (R145). -/
def State.rowRecords (s : State) (x : Stream) (pic : EncPic) (d : List Nat) (recs : List AnaIn) : List AnaRec :=
  let count := (s.geo x 0).recCount (dRow d)
  (s.anaCtx x pic d (s.rowAged x pic d)).records s []
    ((recs ++ List.replicate (count - recs.length) (⟨(0, 0), (0, 0), 0⟩ : AnaIn)).take count)

/-- A stream's private state with a row of its picture analysed. -/
def State.rowAnalysed (s : State) (x : Stream) (pic : EncPic) (d : List Nat) (recs : List AnaIn) : EncSt :=
  { s.rowAged x pic d with ana := tset [] (s.rowAged x pic d).ana (anaKey pic.c (dRow d)) (s.rowRecords x pic d recs) }

theorem ana_rowAnalysed (s : State) (x : Stream) (pic : EncPic) (d : List Nat) (recs : List AnaIn) :
    tget [] (s.rowAnalysed x pic d recs).ana (anaKey pic.c (dRow d)) = s.rowRecords x pic d recs := tget_tset_same ..

theorem length_rowRecords (s : State) (x : Stream) (pic : EncPic) (d : List Nat) (recs : List AnaIn) :
    (s.rowRecords x pic d recs).length = (s.geo x 0).recCount (dRow d) := by
  rw [State.rowRecords, length_records, List.length_nil, List.length_take, List.length_append, List.length_replicate]
  omega

/-- A REPEAT and picture 0 are not searched. -/
theorem rowRecords_zero {pic : EncPic} (h : pic.kind = 1 ∨ pic.c = 0) (s : State) (x : Stream) (d : List Nat) (recs : List AnaIn) :
    ∀ a ∈ s.rowRecords x pic d recs, a.mv = (0, 0) ∧ a.mv2 = (0, 0) := by
  refine forall_mem_records (record_zero ?_ s) _ fun _ h => absurd h List.not_mem_nil
  rcases h with hkind | hc
  · exact Or.inr fun u v => by simp [State.anaCtx, hkind]
  · exact Or.inl hc

/-- ANA_ROW of the picture that rendition 0 codes ends its run with the row analysed. -/
theorem exec_anaRow {s : State} {n : Nat} {q : QTask} {pic : EncPic} (now : Nat) (recs : List AnaIn) (hst : Startable s n q)
    (hop : dOpcode q.desc = 0x31) (hcur : ((s.stream (dSid q.desc)).rendition 0).cur = some pic) (hseq : pic.c % 65536 = dPicSeq q.desc) :
    let u := (s.at now).begun n q
    ∃ acc blocks, exec (.anaRow n recs now) s = .next (u.ended n { run0 q (s.at now).time with
      encSt := some (u.rowAnalysed (s.stream (dSid q.desc)) pic q.desc recs), acc := acc, blocks := blocks }) := by
  have hb := begin_ready (ready := s.codes 0) hst (codes_of_cur hcur hseq) now
  rw [hop] at hb
  simp only [exec, execAnaRow, hb, run0_task, stream_begun, hcur, State.rowAnalysed, State.rowRecords, State.rowAged]
  exact ⟨_, _, rfl⟩

/-! ## ENC_PIC_END -/

/-- A picture whose rows have all committed can end. -/
theorem encEndReady_of_rows {s : State} {d : List Nat} {pic : EncPic} (hcur : ((s.stream (dSid d)).rendition (dRend d)).cur = some pic)
    (hseq : pic.c % 65536 = dPicSeq d) (hrows : ∀ i < s.rendRows (s.stream (dSid d)) (dRend d), tget false pic.rowsDone i = true) :
    s.encEndReady d = true := by
  have hall : (upTo 0 (s.rendRows (s.stream (dSid d)) (dRend d))).all (fun i => tget false pic.rowsDone i) = true :=
    List.all_eq_true.2 fun i hi => hrows i (by simpa using lt_of_mem_upTo hi)
  simp [State.encEndReady, codes_of_cur hcur hseq, hcur, hall]

/-- ENC_PIC_END counts its tasks' traffic and ends its run with the status of a concealed picture or of a whole one. -/
theorem exec_encPicEnd {s : State} {n : Nat} {q : QTask} {pic : EncPic} (moved now : Nat) (hst : Startable s n q)
    (hop : dOpcode q.desc = 0x33) (hready : s.encEndReady q.desc = true)
    (hcur : ((s.stream (dSid q.desc)).rendition (dRend q.desc)).cur = some pic) :
    exec (.encPicEnd n moved now) s = .next ((((s.at now).begun n q).tasksMoved q.desc moved).ended n
      { run0 q (s.at now).time with status := if pic.conceal then 0x0A else 0 }) := by
  have hb := begin_ready (ready := s.encEndReady) hst hready now
  rw [hop] at hb
  have hx : (((s.at now).begun n q).tasksMoved q.desc moved).stream (dSid q.desc) = s.stream (dSid q.desc) := stream_begun ..
  simp only [exec, execEncPicEnd, hb, run0_task, hx, hcur, Option.any_some]

/-! ## The pictures' statement -/

/-- ENC_PIC_START of a decided picture and ANA_ROW of the picture in coding end at once, and what they made waits in their run. -/
theorem encPicStart_anaRow_end : encodePicturesStart := by
  intro s n now q hst d x
  have hrun := runs_begun (s.at now) n q
  refine ⟨fun z hop hz => ?_, fun recs pic hop hcur hseq => ?_⟩
  · have he := exec_encPicStart now hst hop hz
    obtain ⟨rq, safe, target, full, syn, hp⟩ := startPic0_eq ((s.at now).begun n q) x (dRend d) z
    obtain ⟨hdone, hprog, hpopped, hregs⟩ := clearProg_ended hrun (dSid d) (startKinds (dRend d))
      (z := { run0 q (s.at now).time with enc := some (((s.at now).begun n q).startPic0 x (dRend d) z) }) rfl rfl
    refine ⟨_, _, _, he, hdone, rfl, rfl, congrArg some hp, rfl, rfl, rfl, encPicFor_intra, rfl, rfl, encPicFor_intra_iff ..,
      cause_encPicFor_takeSoon .., fun k => ?_, hpopped, hregs⟩
    refine (hprog k).trans (ite_congr (propext (and_congr_right fun _ => mem_startKinds ..)) (fun _ => rfl) fun _ => ?_)
    rw [State.prog, at_progress, State.prog]
  · obtain ⟨acc, blocks, he⟩ := exec_anaRow now recs hst hop hcur hseq
    have hgeo : ((s.at now).begun n q).geo x 0 = s.geo x 0 := geo_congr ((runs_canvases_eq hrun).trans (at_canvases ..)) x 0
    refine ⟨_, _, _, he, runs_ended hrun _ rfl rfl, rfl, rfl, ?_, fun h => ?_⟩
    · rw [ana_rowAnalysed, length_rowRecords, hgeo]
    · rw [ana_rowAnalysed]
      exact rowRecords_zero h _ _ _ _

/-- ENC_PIC_END of a picture whose rows have all committed ends at once. -/
theorem encPicEnd_ends : encodePicturesEnd := by
  intro s n moved now q pic hst d x hop hcur hseq hrows
  have he := exec_encPicEnd moved now hst hop (encEndReady_of_rows hcur hseq hrows) hcur
  exact ⟨_, _, he, runs_ended (runs_tasksMoved (runs_begun (s.at now) n q) d moved) _ rfl rfl, rfl, rfl⟩

/-- Settles O22: each of the three tasks begins its run, which its routine ends at once with what its commit will bring. -/
theorem encodePicturesStartAndEnd : Obligations.EncodePicturesStartAndEnd := ⟨encPicStart_anaRow_end, encPicEnd_ends⟩

end Sys2Proof.Machine
end
